-- ==== Sys2Proof/Word.lean ====
section
/-! DEFINITION. The machine's words: bytes, lines, registers and packed location codes, and the plainest arithmetic on them. -/
namespace Sys2Proof

/-- One byte. -/
abbrev Byte := BitVec 8

/-- A 64-byte line of pool memory; byte 0 is bits 7..0 (R9, R63). -/
abbrev Line := BitVec 512

/-- A 32-bit direct or block register. -/
abbrev Reg32 := BitVec 32

/-- A 64-bit direct or block register. -/
abbrev Reg64 := BitVec 64

/-- A packed 32-bit location code (R17, R18). -/
abbrev Loc := BitVec 32

/-- Bits `[hi:lo]` of a number, as the spec writes a bit range. -/
def bits (n hi lo : Nat) : Nat := n / 2 ^ lo % 2 ^ (hi + 1 - lo)

/-- One bit of a number. -/
def bit (n i : Nat) : Bool := n / 2 ^ i % 2 == 1

/-- A Bool as a one-bit number. -/
def b2n (b : Bool) : Nat := if b then 1 else 0

end Sys2Proof
end

