-- ==== Sys2Proof/Syntax.lean ====
section
/-! DEFINITION. The commands of the block: one constructor of Instr per row of spec/opcode_table.json, with the row's operands, and the operand types. -/
namespace Sys2Proof

/-- Mailbox transports of Table 10.1 (R462). -/
inductive Xport where
  | cxl | smbus | i3c | trunk | sliceChan
deriving DecidableEq, Repr

/-- The Zorne header of a command frame (Table 10.2, R468) and the bytes of its payload, which the MAC covers (R482). The spec
lays out few payloads: what a payload holds stands in the command's own operands, and `lenOk` says whether PLEN is the length
the opcode requires (R471). `port` is the upstream port of a CXL mailbox, `ep` the transport endpoint (MCTP endpoint ID). -/
structure Frame where
  xport : Xport
  port : Nat
  ep : Nat
  version : Nat
  tag : Nat
  sid : Nat
  seq : Nat
  dest : Nat
  fwd : Bool
  fwdRole : Nat
  plen : Nat
  lenOk : Bool
  mac : BitVec 128
  body : List Byte
  slice : Nat
deriving DecidableEq, Repr

/-- Who asks for, holds or answers a line: Table 2.1, Table 2.3 and the non-caching requesters. -/
inductive Agent where
  | host (n : Nat)
  | dev (n : Nat)
  | mod (n : Nat)
  | dma (ch : Nat)
  | io (port : Nat)
  | post (slice : Nat)
  | fw
deriving DecidableEq, Repr

/-- Operands of a request of class REQ that reaches a keeper: sender, FPA of the line, byte mask and
data of a write, record of an AtomOp. -/
structure ReqOp where
  src : Agent
  fpa : Nat
  nt : Bool
  mask : BitVec 64
  data : Line
deriving DecidableEq, Repr

/-- Operands of an RSP or DAT message that reaches a keeper, a proxy or a requester: sender, line, the
attributes of Table 2.7 and Table 2.8, and the data of a DAT message. -/
structure MsgOp where
  src : Agent
  fpa : Nat
  dp : Bool
  k : Bool
  nd : Bool
  poison : Bool
  lmask : Nat
  data : Line
deriving DecidableEq, Repr

/-- How the request's first cell crosses: in order, discarded where its HCRC check fails, at its ingress point or (`far`) at its
egress point (R132), or late, after some AON ticks on its plane (R145, R149). -/
inductive Passage where
  | clean
  | corrupt (far : Bool)
  | slow (ticks : Nat)
deriving DecidableEq, Repr

/-- Operands of a host's CXL.mem message (Table 2.9): upstream port, MetaValue (0 I, 1 S, 2 A),
offset in the host's HDM range, byte enables and data. `inv` marks MemInv, `ptl` MemWrPtl, `evict`
MemClnEvct; `way` says how the request's cell crosses. -/
structure HostOp where
  port : Nat
  hoff : Nat
  mv : Nat
  inv : Bool
  ptl : Bool
  evict : Bool
  way : Passage
  enables : BitVec 64
  data : Line
deriving DecidableEq, Repr

/-- One entry named by BIND_ADD (Table 5.7). -/
structure BindReq where
  hoffExt : Nat
  home : Nat
  fext : Nat
  nm1 : Nat
  access : Nat
  dcr : Nat
deriving DecidableEq, Repr

/-- A ward region (Table 9.7). -/
structure Region where
  v : Bool := false
  cut : BitVec 12 := 0
  cutMask : BitVec 12 := 0
  permIn : BitVec 3 := 0
  permOut : BitVec 3 := 0
  base : Nat := 0
  limit : Nat := 0
deriving DecidableEq, Repr

/-- An alias window's definition (R365). -/
structure WinDef where
  next : Nat
  homeA : Nat
  fextA : Nat
  homeB : Nat
  fextB : Nat
  owner : Nat
deriving DecidableEq, Repr

/-- What a received trunk flit carries besides its payload (Table 6.7): SEQ, ACK and one credit update;
`ok` says that its codeword decodes and its CRC-16 is correct. -/
structure FlitOp where
  tp : Nat
  ok : Bool
  seq : Nat
  ack : Nat
  cls : Nat
  dataKind : Bool
  count : Nat
deriving DecidableEq, Repr

/-- The message a received PAYLOAD flit carries (Table 6.8): class, opcode, the header and data
credits it takes are those of Table 6.9. -/
structure TrunkMsg where
  cls : Nat
  op : Nat
  addr : Nat
  tag : Nat
  len : Nat
  dp : Bool
  lmask : Nat
  first : Bool
  last : Bool
  k : Bool
  nd : Bool
  nt : Bool
  poison : Bool
  srcm : Nat
  dstm : Nat
  data : Line
  mask : BitVec 64
deriving DecidableEq, Repr

/-- A hierarchy-control message (R308, R313): its kind, the index it assigns or the member it concerns,
and the settings it distributes (R316). -/
structure HierMsg where
  kind : Nat
  idx : Nat
  serial : Nat
  autoAdmit : Bool
  meshTimeout : Nat
  trCpl : Nat
  members : List (Nat × Nat)
deriving DecidableEq, Repr

/-- A saved slice image (Table 9.14), field by field: what SLICE_RESTORE reads at the image's address.
`crcOk` and `sealOk` are the outcomes of its CRC-32C and HMAC checks over bytes the spec lays out only in part. -/
structure Image where
  magicOk : Bool
  version : Nat
  size : Nat
  crcOk : Bool
  seald : Bool
  sealOk : Bool
  sv8650 : Bool
  cut : BitVec 12
  userCounters : Bool
  window : Option Nat
  area : Option Nat
  chanReqBase : Nat
  chanReqLog : Nat
  chanRepBase : Nat
  chanRepLog : Nat
  chanReqTail : Nat
  chanReqHead : Nat
  chanReqPhase : Bool
  chanRepTail : Nat
  chanRepHead : Nat
  chanRepPhase : Bool
  rings : List (List Nat)
  chans : List (List Nat)
  buckets : List (BitVec 64)
  counters : List (Nat × Bool)
  ranges : List (Nat × Nat × Nat)
deriving DecidableEq, Repr

/-- Identity and capability of a partner at link-up and arrival (Table 5.1): `cxl` 3 or 2 or 0 (PCIe
only), `kind` is 0 host, 1 expander with HDM-H, 2 caching device, 3 passed-through, 4 expander offering
only HDM-DB; `serial` none when it has no Device Serial Number, `cert` the digest of an authenticated
SPDM session's certificate chain, none without one; `capacity` in 256 MiB blocks. -/
structure PartnerId where
  kind : Nat
  cxl : Nat
  serial : Option Nat
  cert : Option Nat
  capacity : Nat
  /-- Logical devices of an MLD in PASSTHROUGH use, 1 for any other partner (Table 5.1) -/
  lds : Nat := 1
deriving DecidableEq, Repr

/-- A logical device of a passed-through partner: its port and LD number, 0 where the partner is one device (Table 5.1). -/
structure LogDev where
  port : Nat
  ld : Nat
deriving DecidableEq, Repr

/-- The lanes a link trained with: how many, and whether lane reversal was applied (R182). -/
structure LinkLanes where
  width : Nat
  rev : Bool
deriving DecidableEq, Repr

/-- A link that idles: 0 lanes stay active in L1, else L0p narrows the link to `width` (R207). -/
structure IdleOp where
  port : Nat
  width : Nat
deriving DecidableEq, Repr

/-- Lanes of a trunk port aligned on markers, and their skew in nanoseconds (R289). -/
structure AlignOp where
  tp : Nat
  skew : Nat
deriving DecidableEq, Repr

/-- A NULL flit, and whether the elastic buffer deletes or inserted it (R277, R296). -/
structure NullOp where
  fl : FlitOp
  deleted : Bool
deriving DecidableEq, Repr

/-- A back-invalidate response: BIRspS or BIRspI, and whether it is the Blk form (Table 2.9). -/
structure BirspOp where
  shared : Bool
  blk : Bool
deriving DecidableEq, Repr

/-- One command or event of the block: one constructor per row of spec/opcode_table.json. -/
inductive Instr where
  -- SESSION
  | openSession (f : Frame) (role slice ksrc : Nat) (nc : BitVec 256)
  | sessionAuth (f : Frame) (sid : Nat) (proof : BitVec 256)
  | closeSession (f : Frame) (sid : Nat)
  | sessionList (f : Frame)
  | keySet (f : Frame) (role : Nat) (key : BitVec 256)
  | passwordSet (f : Frame) (role : Nat) (key : BitVec 256)
  | sessionSet (f : Frame) (role secs : Nat)
  | sessionIdleTimeout (sid : Nat)
  | sessionAuthExpiry (sid : Nat)
  | lockoutExpiry (role : Nat)
  -- MODULE
  | moduleIdentify (f : Frame)
  | moduleStatus (f : Frame)
  | moduleSet (f : Frame) (smbus vec : Option Nat) (notify alert : Option Bool) (edge : Option (Nat × Nat × Nat))
  | moduleLock (f : Frame) (mask : Nat)
  | eventGet (f : Frame) (ack : Bool) (seq : Nat)
  | opJournalGet (f : Frame) (index count : Nat)
  | opStatus (f : Frame) (grp : Nat)
  | opAbort (f : Frame) (grp : Nat)
  | moduleReset (f : Frame)
  | resetTarget (f : Frame) (loc : Loc)
  | resetStatus (f : Frame)
  | regGet (f : Frame) (off width : Nat)
  | regSet (f : Frame) (off width val : Nat)
  | identifyV1 (f : Frame)
  | sliceFreezeV1 (f : Frame) (slice : Nat)
  | sliceSaveV1 (f : Frame) (slice addr : Nat)
  | sliceRestoreV1 (f : Frame) (host pasid addr : Nat) (img : Image)
  | sliceThawV1 (f : Frame) (slice : Nat)
  | mctpControl (xport : Xport) (ep cmd arg : Nat)
  | trunkMailboxFrame (tp : Nat) (f : Frame) (opcode : Nat)
  | forwardResend (tag : Nat)
  -- PORT
  | portMapGet (f : Frame)
  | portMapCommit (f : Frame) (map : List Reg32)
  | portEnable (f : Frame) (port : Nat)
  | portDisable (f : Frame) (port : Nat)
  | portStatus (f : Frame) (port : Nat)
  | portSet (f : Frame) (port : Nat) (dsCpl dsFail usCpl : Option Nat) (aspm l0p contain : Option Bool)
  | portEqSet (f : Frame) (loc : Loc) (wholePort : Bool) (val : Reg32)
  | portEqStatus (f : Frame) (loc : Loc)
  | portReset (f : Frame) (port : Nat)
  | portBlockRead (f : Frame) (loc : Loc) (reg : Nat)
  | portBlockWrite (f : Frame) (loc : Loc) (reg val : Nat)
  -- PARTNER
  | partnerList (f : Frame)
  | partnerEventGet (f : Frame) (count : Nat)
  | partnerSet (f : Frame) (port : Nat) (timer snoop : Option Nat) (autoAdd : Option Bool)
  | partnerRelease (f : Frame) (port : Nat)
  | evacuatePartner (f : Frame) (port ch share stallPages maxPasses mask : Nat)
  | evacPassDone (e : Nat)
  | evacStallDrained (e : Nat)
  | evacFinalPassDone
  | evacStallGuard
  -- BIND
  | bindAdd (f : Frame) (host : Nat) (entries : List BindReq)
  | bindRelease (f : Frame) (host entry : Nat) (force : Bool)
  | bindTableGet (f : Frame) (host : Nat)
  | bindPassthru (f : Frame) (d : LogDev) (host bridge : Nat)
  | addDynamicCapacityResponse (host : Nat) (accepted declined : List Nat)
  | dcAddTimeout (host entry : Nat)
  | releaseDynamicCapacity (host entry : Nat)
  | dcReleaseTimeout (host entry : Nat)
  | bindingRemovalDone (host entry : Nat)
  -- POOL
  | poolAddPartner (f : Frame) (port : Nat)
  | scrubDone (ext : Nat)
  | poolStatus (f : Frame)
  | poolExtentRevalidate (f : Frame) (ext count : Nat)
  | poolExtentRelease (f : Frame) (ext count : Nat)
  | poolAlloc (f : Frame) (module count : Nat)
  | poolSpillSet (f : Frame) (base size high low : Nat) (en : Bool)
  -- SLICE
  | sliceCreate (f : Frame) (host pasid : Nat)
  | sliceSet (f : Frame) (slice : Nat) (mask : Option (List Nat)) (userCounters : Option Bool)
  | sliceDestroy (f : Frame) (slice : Nat)
  | sliceStatus (f : Frame) (slice : Nat)
  | sliceFreeze (f : Frame) (slice : Nat)
  | sliceThaw (f : Frame) (slice : Nat)
  | sliceSave (f : Frame) (slice owner addr : Nat)
  | sliceRestore (f : Frame) (host pasid addr : Nat) (chmap : List Nat) (img : Image)
  | sliceWindowSet (f : Frame) (slice : Nat) (window area : Option Nat)
  | sliceChanSet (f : Frame) (slice reqBase reqLog repBase repLog vec : Nat)
  | sliceChanGet (f : Frame) (slice : Nat)
  | sliceChanPut (f : Frame) (slice tag status len : Nat) (payload : List Byte)
  | logStart (f : Frame) (slice owner buf0 buf1 : Nat)
  | logHarvest (f : Frame) (slice : Nat) (zero rcl : Bool)
  | logStop (f : Frame) (slice : Nat)
  | sliceCounterClear (f : Frame) (slice : Nat)
  -- DMAADM
  | dmaChSet (f : Frame) (ch : Nat) (slice prio share wdog : Option Nat)
  | dmaRingAssign (f : Frame) (ring ch slot sqBase sqLog cq cqBase cqLog vec : Nat)
  | dmaRingRelease (f : Frame) (ring : Nat)
  | dmaStatus (f : Frame) (slice : Nat)
  | dmaAliasSet (f : Frame) (win : Nat) (dfn : Option WinDef)
  | dmaAliasStatus (f : Frame) (win : Nat)
  -- WARD
  | wardRegionSet (f : Frame) (n : Nat) (r : Region)
  | wardRegionGet (f : Frame) (n : Nat)
  | wardCutSet (f : Frame) (device : Bool) (idx : Nat) (cut : BitVec 12)
  | wardCommit (f : Frame) (target : Nat)
  | wardStatusGet (f : Frame)
  -- SHAPE and GATE
  | shapeBktSet (f : Frame) (agg : Bool) (slice bkt : Nat) (cfg : Reg64)
  | shapeBktGet (f : Frame) (agg : Bool) (slice bkt : Nat)
  | shapeStatus (f : Frame)
  | gateListSet (f : Frame) (point : Nat) (ctl base : Reg64) (entries : List Reg32)
  | gateCommit (f : Frame) (point : Nat)
  | gateGet (f : Frame) (point : Nat)
  | gateTsyncSet (f : Frame) (loss : Nat)
  -- HIER
  | hierStatus (f : Frame)
  | hierKeySet (f : Frame) (key : BitVec 256)
  | hierSet (f : Frame) (rolePref : Option Bool) (autoAdmit : Option Bool) (meshTimeout trCpl : Option Nat)
  | hierAdmit (f : Frame) (serial : Nat)
  | hierRemove (f : Frame) (idx : Nat)
  | hierRemoveStepDone
  | hierForget (f : Frame) (idx : Nat)
  | hierTrunkDisable (f : Frame) (tp : Nat)
  | hierTrunkEnable (f : Frame) (tp : Nat)
  -- FAULT
  | faultLogGet (f : Frame) (fromSeq count : Nat)
  | faultStatus (f : Frame)
  | faultReactionSet (f : Frame) (byClass : Bool) (code : Nat) (pat : Loc) (action : Option Nat) (irq : Bool) (idx : Nat) (del : Bool)
  | reactionDryrun (f : Frame) (byClass : Bool) (code : Nat) (loc : Loc)
  | faultLogClear (f : Frame)
  | aliveSet (f : Frame) (hz : Nat)
  -- POWER
  | powerStatus (f : Frame)
  | powerSet (f : Frame) (ctl limits : Reg64)
  | powerStateSet (f : Frame) (target : Nat) (persist : Bool)
  | energyClear (f : Frame)
  | thermalSet (f : Frame) (grp warn crit : Nat)
  | thermalStatus (f : Frame)
  -- PERF
  | perfCntSet (f : Frame) (glb : Bool) (port idx : Nat) (sel : Reg32) (preload : Option Nat) (clrOvf : Bool)
  | perfCntGet (f : Frame) (glb : Bool) (port idx : Nat)
  | perfSampleSet (f : Frame) (idx : Nat) (cfg : List Nat)
  | perfOvfSet (f : Frame) (en : Bool) (vec : Nat)
  -- FW
  | fwInfo (f : Frame)
  | fwTransfer (f : Frame) (off : Nat) (data : List Byte)
  | fwVerify (f : Frame)
  | fwVerifyDone
  | fwActivate (f : Frame) (resetNow : Bool)
  -- direct registers
  | dmaSqDb (ring tail : Nat)
  | dmaCqDb (ring head : Nat)
  | dmaRingCtlEn (ring : Nat) (en : Bool)
  | dmaRingCtlAbort (ring : Nat)
  | chStop (ch : Nat) (stop : Bool)
  | schReqDb (slice tail : Nat)
  | schRepDb (slice head : Nat)
  | wardCommitGo (target : Nat) (go : Bool)
  | globalLockWrite (val : Nat)
  | perfCtlFreeze (freeze : Bool)
  | perfCtlClear
  | perfSmpHead (idx head : Nat)
  | sequenceClear (off val : Nat)
  | sillCtlEn (en : Bool)
  | registerWrite (bar2 : Bool) (port off width val : Nat)
  | tvRead (field : Nat)
  | votePass
  | counterLowRead (requester off : Nat)
  -- cores, clocks, planes
  | coreWake
  | coreHalt
  | coreWdog
  | corePllLock (die : Nat)
  | planeIdleGate (plane : Nat)
  | planeUngate (plane : Nat)
  -- resets
  | rstNLow
  | rstNRelease
  | moduleResetCoreReset
  | moduleResetRelease
  | moduleResetReady
  | sliceDrainDone (ks : Nat)
  | resetDone (loc : Loc)
  -- coherence
  | rds (r : ReqOp)
  | rdx (r : ReqOp)
  | upg (r : ReqOp)
  | wrinvfull (r : ReqOp)
  | wrinvpart (r : ReqOp)
  | atomop (r : ReqOp) (record nextRec : BitVec 128)
  | evict (r : ReqOp)
  | wbdata (m : MsgOp)
  | snpinv (m : MsgOp)
  | snpshr (m : MsgOp)
  | snpdata (m : MsgOp)
  | birecall (m : MsgOp)
  | rspi (m : MsgOp)
  | rsps (m : MsgOp)
  | rspo (m : MsgOp)
  | rspwbpend (m : MsgOp)
  | cmp (m : MsgOp)
  | cmppoison (m : MsgOp)
  | datas (m : MsgOp)
  | datae (m : MsgOp)
  | datam (m : MsgOp)
  | datao (m : MsgOp)
  | conflictQueueResume (ks fpa : Nat)
  | snoopTimeout (fpa : Nat) (holder : Agent)
  -- host and device side
  | postingWindowWrite (h : HostOp)
  | m2sReq (h : HostOp)
  | m2sRwd (h : HostOp)
  | m2sBirsp (port hoff : Nat) (b : BirspOp)
  | biconflict (port hoff : Nat)
  | d2hReq (dev op : Nat) (r : ReqOp)
  | s2mDrs (port fpa : Nat) (poison : Bool) (data : Line)
  | s2mNdrCmp (port fpa : Nat)
  | passthruMemRequest (d : LogDev) (pasid addr len : Nat) (write : Bool) (data : List Byte)
  | cxlioTlp (d : LogDev) (fromHost : Bool) (tlp : List Byte)
  -- crossbar and arbiters
  | reseqHole (src dst cls : Nat)
  | spillReadBack (point : Nat)
  | arbRequest (port req : Nat) (write : Bool) (units : Nat)
  | arbGrant (port : Nat)
  | arbHandoffDone (port : Nat)
  | arbHold (port : Nat)
  | arbMask (port req : Nat)
  | arbUnmask (port req : Nat)
  | arbParkTimeout (port req : Nat)
  -- port sideband and links
  | perstNLow (grp : Nat)
  | perstNRelease (grp : Nat)
  | perstReleaseTimer (grp : Nat)
  | refclkStable (k : Nat)
  | receiverDetect (port : Nat) (found : Bool)
  | linkUp (port : Nat) (lanes : LinkLanes) (rate : Nat) (pid : PartnerId)
  | ideEstablished (port : Nat)
  | memoryActive (port capacity : Nat)
  | arrive (port : Nat)
  | spdmSessionComplete (port cert : Nat) (lastTick : Bool)
  | linkDown (port cause : Nat)
  | linkLevelReset (port : Nat)
  | ideIntegrityFailure (port : Nat)
  | departureSweepDone (port : Nat)
  | departureTimerExpiry (port : Nat)
  | dsCplTimeout (port fpa : Nat)
  | usCplTimeout (port fpa : Nat)
  | trCplTimeout (fpa : Nat) (src : Agent)
  | refclkLoss (k : Nat)
  | refclkReturn (k : Nat)
  -- trunk
  | trunkTrainDone (tp : Nat) (precode : Bool)
  | trunkTrainTimeout (tp : Nat)
  | trunkAlignDone (a : AlignOp)
  | laneMarker (tp lane : Nat) (mcrcOk : Bool) (logical mcount midx : Nat)
  | initCredit (tp serial idx role : Nat) (counts : List Nat)
  | authChal (tp : Nat) (nonce : BitVec 256)
  | authResp (tp : Nat) (hmac : BitVec 256)
  | authFailRetry (tp : Nat)
  | payloadFlit (fl : FlitOp) (msg : TrunkMsg)
  | nullFlit (x : NullOp)
  | replayReq (tp seq : Nat)
  | replayTimeout (tp : Nat)
  | resume (tp : Nat) (linkId : BitVec 64) (seq : Nat) (counts : List Nat) (lastTick : Bool)
  | linkSleep (tp cause : Nat)
  | leave (tp idx : Nat)
  | reset (tp idx : Nat)
  | sleep1Codeword (tp : Nat)
  | tl1IdleEntry (tp : Nat)
  | wakeSequence (tp : Nat)
  | wakeLockTimeout (tp : Nat)
  | errorWindowEval (tp : Nat)
  | cdrLoss (tp lane : Nat)
  | trefclkLoss (die : Nat)
  | linkHoldExpiry (tp : Nat)
  -- hierarchy
  | managerDeclare
  | hierarchyControl (tp : Nat) (m : HierMsg)
  | meshComplete
  | meshTimeout
  | joinRetry
  -- DMA engine
  | descriptorFetch (ch ring fetch : Nat)
  | descriptorBegin (ch : Nat)
  | nop (ch : Nat)
  | copy (ch : Nat)
  | fill (ch : Nat)
  | check (ch : Nat)
  | atomic (ch : Nat)
  | flip (ch : Nat)
  | fence (ch : Nat)
  | burstBegin (ch : Nat)
  | descriptorComplete (ch : Nat)
  | drainDone (ring : Nat)
  | dreqEdge (n : Nat)
  | dmaWatchdog (ch : Nat)
  | flipPrepare (win : Nat)
  | flipCommit (win : Nat)
  | flipDrainDone (win : Nat)
  | flipSweepDone (win : Nat)
  -- shaping and gates
  | chargeProceed (agg : Bool) (slice bkt : Nat)
  | shapingQueueEntry (port : Nat)
  | tsync
  | tsyncLoss
  | cycleStart (point : Nat)
  | gateEntry (point : Nat)
  | gateSwap (point : Nat)
  -- slice channel and ward commit
  | sliceChannelRequest (slice : Nat) (phase cls : Bool) (opcode tag len : Nat) (payload : List Byte)
  | wardCommitCheck
  | wardSwitch
  | wardCopyDone
  -- faults, counters, thermal
  | faultReport (code : Nat) (loc : Loc) (detail : Reg32) (port : Nat)
  | wire (loc : Loc) (source : Nat)
  | reactionWindowClose (loc : Loc)
  | overflowMessage
  | sampleRecord (idx ns : Nat)
  | thermalSensorUpdate (readings : List Nat)
  | dieThermal (die : Nat)
  -- power entry
  | feedChange (feedB : Bool) (st : Nat)
  | qualStart
  | qualDone
  | powerGood
  | sillSoa
  | sillFastTrip
  | sillSlowTrip
  | coolEnd
  | retryReload
  | sillOv
  | ovRecover
  | bulkRecharge
  | coldReset
  | coldRelease
  | sillBrownout
  | brownoutSleep
  | pfwRelease
  | polStop
  | meterUpdate (va vb vin vbulk ia ib iin : Nat) (ok : Bool)
  | gpfRequest (port : Nat)
  | selfTestDone (pass : Bool)
  | startupReady
  | tapInstruction (op : Nat)
  | testLogicReset
  | qualLeavesRange
  | bulkRechargeEnd
  -- later rows of the table
  | controlFlitRepeat (tp : Nat)
  | forwardedReply (tp tag rc : Nat) (data : List Nat)
  | homeModuleRequest (tp kind ext count : Nat)
  | gpfCompletion (port : Nat)
  | memoryActiveTimeout (port : Nat)
  | linkL1Entry (x : IdleOp)
  | linkL1Exit (port : Nat)
  | cxlMemoryDeviceCommand (port opcode : Nat)
  | unsupportedOpcode (f : Frame) (opcode : Nat)
  | scrubPatrol (die port : Nat)
deriving DecidableEq, Repr

end Sys2Proof
end

