-- ==== Sys2Proof/Config.lean ====
section
/-! DEFINITION. What the spec leaves open: free values, opaque constants that no proof can evaluate. -/
namespace Sys2Proof

/-- The module's random source, by draw number: nonces and salts (R478, R480, R307). A free value (log 1). -/
opaque Config.random : Nat → BitVec 256

/-- HMAC-SHA-256 of a byte list under a key (R479, R307, R457). The spec names the function and does not
lay it out; the model keeps it uninterpreted (log 6). -/
opaque Config.hmac : BitVec 256 → List Byte → BitVec 256

/-- The payload bytes of a response, from its opcode and the numbers it holds (R468). The spec lays out few of them. Free (log 6). -/
opaque Config.payload : Nat → List Nat → List Byte

/-- Outcome of the hash and signature check of a bank's image (R500): true when both are good. Free (log 6). -/
opaque Config.imageGood : List Host.Cell → Bool

/-- SVN of a bank's image (R500). The image layout is not given; free (log 6). -/
opaque Config.imageSvn : List Host.Cell → Nat

/-- Version of a bank's image (R499). The image layout is not given; free (log 6). -/
opaque Config.imageVersion : List Host.Cell → Nat

/-- Contents written to the overlapping bytes of a COPY whose source and destination overlap (R339). Free (log 7). -/
opaque Config.overlap : Nat → BitVec 512

/-- The bytes of one block of a slice image (Table 9.14) from its kind and what it holds; the spec does not give its inner layout. Free (log 54). -/
opaque Config.imageBlock : List Nat → Nat

/-- A value the spec does not state, by draw number (log 1). -/
opaque Config.free : Nat → Nat

end Sys2Proof
end

