-- ==== Sys2Proof/Machine/Table.lean ====
section
/-! DEFINITION. Sparse tables in one canonical form: keys strictly rising, and no entry equal to the table's default value. -/
namespace Sys2Proof.Machine

/-- A sparse table of values by number. -/
abbrev Tbl (α : Type) := List (Nat × α)

/-- The entry listed at a key. -/
def Tbl.find {α : Type} (t : Tbl α) (k : Nat) : Option α :=
  match t with
  | [] => none
  | (j, a) :: r => if j = k then some a else Tbl.find r k

/-- The value at a key, `d` where nothing is listed. -/
def Tbl.get {α : Type} (d : α) (t : Tbl α) (k : Nat) : α := (Tbl.find t k).getD d

/-- The table without the key. -/
def Tbl.del {α : Type} (t : Tbl α) (k : Nat) : Tbl α :=
  match t with
  | [] => []
  | (j, a) :: r => if j = k then r else (j, a) :: Tbl.del r k

/-- The table with the value listed at the key, keys kept rising. -/
def Tbl.put {α : Type} (t : Tbl α) (k : Nat) (v : α) : Tbl α :=
  match t with
  | [] => [(k, v)]
  | (j, a) :: r =>
    if k < j then (k, v) :: (j, a) :: r
    else if j = k then (k, v) :: r
    else (j, a) :: Tbl.put r k v

/-- The table with the value at the key; a value equal to the default is not listed. -/
def Tbl.set {α : Type} [DecidableEq α] (d : α) (t : Tbl α) (k : Nat) (v : α) : Tbl α :=
  if v = d then Tbl.del t k else Tbl.put t k v

/-- Every listed value changed. -/
def Tbl.mapv {α : Type} [DecidableEq α] (d : α) (f : Nat → α → α) (t : Tbl α) : Tbl α :=
  match t with
  | [] => []
  | (k, a) :: r =>
    if f k a = d then Tbl.mapv d f r else (k, f k a) :: Tbl.mapv d f r

/-- The entries whose key and value meet a test. -/
def Tbl.keep {α : Type} (p : Nat → α → Bool) (t : Tbl α) : Tbl α := t.filter (fun e => p e.1 e.2)

/-- Keys strictly rise from a lower bound, and no value is the default. -/
def Tbl.okFrom {α : Type} [DecidableEq α] (d : α) (lo : Nat) (t : Tbl α) : Bool :=
  match t with
  | [] => true
  | (k, a) :: r => decide (lo ≤ k) && decide (a ≠ d) && Tbl.okFrom d (k + 1) r

/-- The canonical form of a table with default `d`. -/
def Tbl.wf {α : Type} [DecidableEq α] (d : α) (t : Tbl α) : Bool := Tbl.okFrom d 0 t

/-- A list of distinct names with one more. -/
def addOnce {α : Type} [DecidableEq α] (a : α) (l : List α) : List α := if a ∈ l then l else l ++ [a]

/-- A list of distinct names with several more. -/
def addAll {α : Type} [DecidableEq α] (as : List α) (l : List α) : List α := as.foldl (fun r a => addOnce a r) l

/-- A list without a name. -/
def dropOf {α : Type} [DecidableEq α] (a : α) (l : List α) : List α := l.filter (fun x => decide (x ≠ a))

end Sys2Proof.Machine
end

