-- ==== Sys2Proof/Machine/State.lean ====
section
/-! DEFINITION. The state of the block as plain data, its reset value, and the reasons a step can stop. A field's comment ends with the rule that names it, its width and its reset value. -/
namespace Sys2Proof.Machine

/-! ### Shared shapes of registers -/

/-- A triplicate-voted field: three stored copies, read by bitwise majority (R15, R518). -/
structure Tri where
  /-- First copy [R518; 64; 0] -/
  c0 : Reg64 := 0
  /-- Second copy [R518; 64; 0] -/
  c1 : Reg64 := 0
  /-- Third copy [R518; 64; 0] -/
  c2 : Reg64 := 0
deriving DecidableEq, Repr

/-- A sequence-clear register: SEQ, the set event bits each with the age of its latest setting, and the
value fields in their places (R515). -/
structure Sqc where
  /-- SEQ of an SQC register [R515; 8; 0] -/
  seq : BitVec 8 := 0
  /-- Set event bits of an SQC register, each with its age in SEQ steps, saturating at 255 [R515; 8 per bit; none set] -/
  ages : Tbl Nat := []
  /-- Value fields of an SQC register, in their places [R515; 24; 0] -/
  val : Reg32 := 0
deriving DecidableEq, Repr

/-! ### Module: identity, power state, resets, service -/

/-- Module power states as GLOBAL_STATE.PSTATE reports them (Table 11.3), and OFF (R588). -/
inductive PState where
  | off | standby | ready | active | brownout | moduleReset | stopped
deriving DecidableEq, Repr

/-- Identity, state, locks and votes of the global window (Table 11.3). -/
structure Glob where
  /-- GLOBAL_ID.VARIANT, true for SV8650-MA [R510; 1; DESIGN CHOICE true (log 2)] -/
  isMA : Bool := true
  /-- GLOBAL_SERIAL.SERIAL [R510; 64; DESIGN CHOICE 0 (log 2)] -/
  serial : Nat := 0
  /-- GLOBAL_ID.MIDX [R510; 4; 0xF] -/
  midx : Nat := 15
  /-- GLOBAL_ID.HROLE: 0 undeclared, 1 manager, 2 worker, 3 ORPHAN [R510; 2; 0] -/
  hrole : Nat := 0
  /-- GLOBAL_STATE.PSTATE [R510; 3; 1 STANDBY] -/
  pstate : PState := .standby
  /-- GLOBAL_LOCK, bits HIER 4, CLOCK 3, KEY 2, WARD 1, POWER 0 [R511; 3 x 32; 0] -/
  lock : Tri := {}
  /-- GLOBAL_EVENT [R510; 32; 0] -/
  event : Sqc := {}
  /-- GLOBAL_VOTE.LOC [R510; 32; 0] -/
  voteLoc : Loc := 0
  /-- GLOBAL_VOTE.OFFSET [R510; 20; 0] -/
  voteOff : Nat := 0
  /-- GLOBAL_VOTE.COUNT, saturating at 4,095 [R510; 12; 0] -/
  voteCnt : Nat := 0
  /-- BIND_ROOT [R510; 3 x 64; 0] -/
  bindRoot : Tri := {}
  /-- AON ticks of 40 ns since the last COLD reset [R559; 64; 0] -/
  ticks : Nat := 0
  /-- Draws taken so far from the free values of Config (the model's own counter) [none; 64; DESIGN CHOICE 0 (log 1)] -/
  draws : Nat := 0
deriving DecidableEq, Repr

/-- A targeted reset in progress: type of Table 1.9, location, whether a reaction began it, and the
keeper slices that have still to drain (R55). -/
structure ResetRec where
  kind : Nat
  loc : Loc
  reaction : Bool
  draining : List Nat
deriving DecidableEq, Repr

/-- Where a MODULE reset stands in Table 1.10. -/
inductive MrPhase where
  | idle
  | triggered (since : Nat)
  | held
  | released
deriving DecidableEq, Repr

/-- Resets, and which elements are out of service. -/
structure Svc where
  /-- Targeted resets in progress [R60; list; none] -/
  resets : List ResetRec := []
  /-- The last 16 finished targeted resets, newest last [R486; 16 records; none] -/
  finished : List (Nat × Loc) := []
  /-- Phase of a MODULE reset [R52; 2; none running] -/
  mr : MrPhase := .idle
  /-- RST_N input, filtered, true when high [R52; 1; DESIGN CHOICE true (log 2)] -/
  rstN : Bool := true
  /-- SB_VIO input at 1.5 V or more [R627; 1; DESIGN CHOICE true (log 112)] -/
  sbVio : Bool := true
  /-- Elements asked to be released by a MODULE reset held under R643, and die restores held [R643; list; none] -/
  thermHold : List Nat := []
  /-- Stopped dies D0 to D6 [R36; 7; none] -/
  stoppedDies : List Nat := []
  /-- Gated quadrants [R36; 8; none] -/
  gatedQuads : List Nat := []
  /-- Stopped keeper slices [R37; 32; none] -/
  stoppedSlices : List Nat := []
  /-- Isolated units, by location code [R549; list; none] -/
  isolated : List Loc := []
  /-- Control cores running [R39; 1; DESIGN CHOICE false (log 2)] -/
  coresRun : Bool := false
  /-- A wake event has come that the cores have not run for: a mailbox doorbell, a fault report, a timer expiry or a partner event [R39; 1; DESIGN CHOICE false (log 2)] -/
  wake : Bool := false
  /-- The cores have not started since the last COLD reset [R498; 1; true] -/
  coldBoot : Bool := true
  /-- Core PLL of D0 and of D1 locked [R40; 2; DESIGN CHOICE false (log 2)] -/
  pll0 : Bool := false
  /-- Core PLL of D1 locked [R40; 1; DESIGN CHOICE false (log 2)] -/
  pll1 : Bool := false
  /-- The only copy of the tables: none while D2 and D4 are both in service, else the surviving stack [R46; 1; none] -/
  soleCopy : Option Nat := none
  /-- DMA stopped and ingress closed for a reset or a stop [R52; 1; false] -/
  ingressShut : Bool := false
  /-- PERST_N of every group driven low from step 4 of a MODULE reset or of STOP_MODULE [R52, R215; 1; false] -/
  perstAll : Bool := false
deriving DecidableEq, Repr

/-! ### Zorne mailbox -/

/-- A mailbox session (R476 to R483). -/
structure Session where
  sid : Nat
  role : Nat
  slice : Nat
  ksrc : Nat
  xport : Xport
  ep : Nat
  nc : BitVec 256
  nd : BitVec 256
  authed : Bool
  sk : BitVec 256
  seqNext : Nat
  badMacs : Nat
  openedAt : Nat
  lastAt : Nat
deriving DecidableEq, Repr

/-- The background operation of a group (Table 10.10). -/
structure BgOp where
  opid : Nat
  opcode : Nat
  running : Bool
  status : Nat
  pos : Nat
  total : Nat
  result : Nat
  startAt : Nat
  endAt : Nat
deriving DecidableEq, Repr

/-- A journal record (Table 10.17). -/
structure JRec where
  type : Nat
  status : Nat
  code : Nat
  opid : Nat
  position : Nat
  arg : Nat
  time : Nat
deriving DecidableEq, Repr

/-- A command P0 has forwarded and not yet answered (R467). -/
structure Fwd where
  frame : Frame
  opcode : Nat
  role : Nat
  resends : Nat
  slice : Nat
deriving DecidableEq, Repr

/-- A LOG_HARVEST under way (R454), on this module's own slice (with its frame) or on behalf of a member that
logs extents homed here (with the member and what it asked). -/
structure Harvest where
  frame : Option Frame
  slice : Nat
  back : Nat × Nat × Nat
  rcl : Bool
  /-- The barrier is past -/
  begun : Bool
  sweep : Option Nat
  /-- Bits set in the retired buffer -/
  bits : Nat
  /-- Homes asked and not answered -/
  remote : List Nat
deriving DecidableEq, Repr

/-- State of the mailbox (chapter 10). -/
structure Mbx where
  /-- Sessions, at most eight [R476; 8 records; none] -/
  sessions : List Session := []
  /-- SID and session key of the session closed last, for the response of the command that closed it [R482; 288; none] -/
  lastSk : Option (Nat × BitVec 256) := none
  /-- Next SID to give out [R478; 32; DESIGN CHOICE 1 (log 2)] -/
  nextSid : Nat := 1
  /-- Provisioned role keys K in flash, by role 1 to 4 [R480; 4 x 256; DESIGN CHOICE 0 (log 2)] -/
  keys : Tbl (BitVec 256) := []
  /-- Password-derived K in flash, by role [R480; 4 x 256; none] -/
  pwKeys : Tbl (BitVec 256) := []
  /-- Module salt in flash [R480; 128; DESIGN CHOICE 0 (log 2)] -/
  salt : BitVec 128 := 0
  /-- Consecutive AUTH_FAILED answers, by role [R484; 3 per role; 0] -/
  fails : Tbl Nat := []
  /-- Roles locked out, with the AON tick of the end [R484; 64 per role; none] -/
  lockouts : Tbl Nat := []
  /-- Idle timeout in seconds, by role [R483; 12 per role; 300] -/
  idle : Tbl Nat := []
  /-- MSI-X vector of the mailbox notification [R486; 11; DESIGN CHOICE 0 (log 2)] -/
  vec : Nat := 0
  /-- Mailbox notification enabled by MODULE_SET [R492; 1; DESIGN CHOICE false (log 2)] -/
  notify : Bool := false
  /-- ALERT_N enabled by MODULE_SET [R486; 1; DESIGN CHOICE false (log 2)] -/
  alertEn : Bool := false
  /-- ALERT_N asserted (pin low) [R492; 1; false] -/
  alert : Bool := false
  /-- SMBus address in force [R463; 7; 0x32] -/
  smbus : Nat := 0x32
  /-- SMBus address held in flash, applied at the next MODULE reset [R463; 7; 0x32] -/
  smbusFlash : Nat := 0x32
  /-- LVCMOS edge rates set by MODULE_SET, by pin group [R629; 2 per group; see R629] -/
  edges : Tbl Nat := []
  /-- Endpoint IDs set by MCTP control messages, by transport [R463; 8; DESIGN CHOICE 0 (log 2)] -/
  eids : Tbl Nat := []
  /-- Mailbox event summary with its SEQ; value field: the groups of OP_ENDED in [31:16] [R491; 40; 0] -/
  summary : Sqc := {}
  /-- Operation journal, oldest first, at most 262,144 records, in flash [R497; 262,144 x 256; empty] -/
  journal : List JRec := []
  /-- Index of the oldest journal record held [R497; 64; 0] -/
  journalBase : Nat := 0
  /-- Background operation of each group [R495; per group; none] -/
  ops : Tbl BgOp := []
  /-- Next OPID [R493; 32; DESIGN CHOICE 1 (log 2)] -/
  nextOp : Nat := 1
  /-- Commands waiting for execution, at most 16, each with its opcode and the role and slice it was admitted in [R472; 16 commands; none] -/
  waiting : List (Instr × Nat × Nat × Nat) := []
  /-- Role and slice of the waiting command that executes next (none between commands, the model's own) [none; record; none] -/
  resumed : Option (Nat × Nat) := none
  /-- Commands forwarded by P0 and outstanding [R467; list; none] -/
  fwds : List Fwd := []
  /-- Last forwarded TAG and SEQ executed per SID, with the stored reply code and data [R467; per SID; none] -/
  lastFwd : Tbl (Nat × Nat × Nat × List Nat) := []
  /-- Harvests under way [R454; list; none] -/
  harvests : List Harvest := []
  /-- A forwarded frame accepted from P0 whose command is to execute next [R466; 1 frame; none] -/
  trunkFrame : Option Frame := none
deriving DecidableEq, Repr

/-- A firmware bank (R499). -/
inductive BankState where
  | empty | staging | staged | pending | active | invalid
deriving DecidableEq, Repr

/-- A firmware bank: its state, the bytes transferred so far, and version and SVN of its image (R499, R500). -/
structure Bank where
  state : BankState := .empty
  size : Nat := 0
  version : Nat := 0
  svn : Nat := 0
deriving DecidableEq, Repr

/-- Firmware banks and the flash (R499 to R501). -/
structure Fw where
  /-- State of bank 0: it holds the shipped firmware Zorne 4.2, written as 0x0402 [R2, R499; record; DESIGN CHOICE ACTIVE, version 0x0402 (log 2)] -/
  bank0 : Bank := { state := .active, version := 0x0402 }
  /-- State of bank 1 [R499; record; DESIGN CHOICE EMPTY (log 2)] -/
  bank1 : Bank := {}
  /-- Minimum SVN, in fuses [R499; 32; DESIGN CHOICE 0 (log 2)] -/
  minSvn : Nat := 0
  /-- Contents of the 48 MiB of firmware banks in flash, bytes other than the erased byte 0xFF [R499; 64 MiB; DESIGN CHOICE all erased (log 3)] -/
  flash : List Host.Cell := []
deriving DecidableEq, Repr

/-! ### Counters (chapter 11) -/

/-- A 48-bit counter with its sticky OVF (Table 11.8). -/
structure Cnt where
  /-- COUNT of a counter [R520; 48; 0] -/
  count : BitVec 48 := 0
  /-- OVF of a counter [R520; 1; 0] -/
  ovf : Bool := false
deriving DecidableEq, Repr

/-- A transaction a sampler has selected (Table 11.11): ingress point of its requester, class, opcode, attributed slice,
address of its first byte, homed on another module, MTIME at its admission. -/
structure SampSel where
  src : Nat
  cls : Nat
  op : Nat
  slice : Nat
  addr : Nat
  remote : Bool
  time : Nat
  /-- Who asks, is snooped or writes -/
  agent : Agent
  /-- The line of a REQ, the sector of an SNP, the descriptor and burst of a BLK -/
  key : Nat × Nat
  /-- SERVER so far -/
  server : Nat
  rlc : Bool := false
  alc : Bool := false
  snooped : Bool := false
  queued : Bool := false
  /-- OUTCOME, once it has ended -/
  outcome : Nat := 0
deriving DecidableEq, Repr

/-- A sampler (R532 to R536). -/
structure Sampler where
  /-- EN of a sampler [R532; 1; 0] -/
  en : Bool := false
  /-- Host physical address of its ring [R532; 64; DESIGN CHOICE 0 (log 2)] -/
  base : Nat := 0
  /-- m, the ring holds 2^m records [R532; 5; DESIGN CHOICE 6 (log 2)] -/
  log2 : Nat := 6
  /-- MSI-X vector of a sampler [R532; 11; DESIGN CHOICE 0 (log 2)] -/
  vec : Nat := 0
  /-- IRQ_LOG2 [R532; 5; DESIGN CHOICE 0 (log 2)] -/
  irqLog2 : Nat := 0
  /-- Matched point [R532; 7; DESIGN CHOICE 0 (log 2)] -/
  point : Nat := 0
  /-- Matched classes: bit 0 REQ, 1 SNP, 4 BLK [R532; 6; DESIGN CHOICE 0 (log 2)] -/
  classes : Nat := 0
  /-- Matched opcode, 0x1F for any [R532; 5; DESIGN CHOICE 0x1F (log 2)] -/
  opcode : Nat := 0x1F
  /-- First address matched [R532; 52; DESIGN CHOICE 0 (log 2)] -/
  lo : Nat := 0
  /-- Last address matched [R532; 52; DESIGN CHOICE 0 (log 2)] -/
  hi : Nat := 0
  /-- Matched slice, 0x1FF for any [R532; 9; DESIGN CHOICE 0x1FF (log 2)] -/
  slice : Nat := 0x1FF
  /-- LOG2N [R532; 5; DESIGN CHOICE 0 (log 2)] -/
  log2n : Nat := 0
  /-- Matching transactions since the last selection [R533; 20; 0] -/
  seen : Nat := 0
  /-- Selected transactions that have not ended, oldest first [R533; list; none] -/
  sel : List SampSel := []
  /-- Selected transactions that have ended and whose records have not been written, in completion order [R534; list; none] -/
  ended : List SampSel := []
  /-- PERF_SMP_STATUS.TAIL [R520; 16; 0] -/
  tail : Nat := 0
  /-- PERF_SMP_STATUS.HEAD [R520; 16; 0] -/
  head : Nat := 0
  /-- Records written and not freed [R534; 17; 0] -/
  used : Nat := 0
  /-- PERF_SMP_STATUS.PHASE [R520; 1; 1] -/
  phase : Bool := true
  /-- PERF_SMP_STATUS.LOST [R520; 30; 0] -/
  lost : Nat := 0
  /-- Records lost since the last one written [R534; 15; 0] -/
  lostSince : Nat := 0
  /-- Records written since EN was set [R532; 32; 0] -/
  written : Nat := 0
deriving DecidableEq, Repr

/-- Counters, selectors, samplers (chapter 11). -/
structure Perf where
  /-- TD counters and PORT_CNT, at 8 p + i (i 0 to 3 TD_RETIRED, TD_WASTED, TD_FRONT, TD_BACK; 4 to 7 PORT_CNT) and GLB_CNT at 512 + n [R520; 528 x 49; 0] -/
  cnt : Tbl Cnt := []
  /-- PORT_SEL at 8 p + 4 + i and GLB_SEL at 512 + n [R520; 32 each; 0x00FF_0000] -/
  sel : Tbl Reg32 := []
  /-- PERF_CTL.FREEZE [R520; 1; 0] -/
  freeze : Bool := false
  /-- PERF_EVENT [R520; 32; 0] -/
  event : Sqc := {}
  /-- PERF_SNAP [R520; 64; 0x7F] -/
  snap : Reg64 := 0x7F
  /-- Samplers S0 to S3, with PERF_SMP_STATUS [R532; 4 records; PHASE 1, others 0] -/
  smp : Tbl Sampler := []
  /-- Overflow interrupt enabled by PERF_OVF_SET [R530; 1; 0] -/
  ovfEn : Bool := false
  /-- Vector of the overflow interrupt [R530; 11; DESIGN CHOICE 0 (log 2)] -/
  ovfVec : Nat := 0
  /-- Microsecond of the last overflow message [R530; 64; none] -/
  ovfLast : Option Nat := none
  /-- A wrap waits for the next overflow message [R530; 1; 0] -/
  ovfPend : Bool := false
  /-- High half latched by a 32-bit read of a counter's low half, by requester and offset [R528; 32 each; none] -/
  latch : List ((Nat × Nat) × Reg32) := []
  /-- Slot accumulators of the ports, in 1/256 byte [R521; 14 per port; 0] -/
  slotAcc : Tbl Nat := []
  /-- Cells discarded or repeated, not yet given a slot, by port [R522; count; 0] -/
  slotWaste : Tbl Nat := []
  /-- Cells that entered the crossbar, not yet given a slot, by port [R522; count; 0] -/
  slotRet : Tbl Nat := []
  /-- CXL.mem requests admitted or issued and not completed: port, line, AON tick of the admission [R525; list; none] -/
  lat : List (Nat × Nat × Nat) := []
deriving DecidableEq, Repr

/-! ### Fault collection (chapter 12) -/

/-- A fault record (Table 12.10). -/
structure FRec where
  time : Nat
  seq : Nat
  loc : Loc
  detail : Reg32
  code : Nat
  reaction : Nat
  cls : Nat
  wire : Bool
  absorbed : Bool
  superseded : Bool
  repeats : Nat
  port : Nat
deriving DecidableEq, Repr

/-- An override of a reaction (R552): code, location pattern, action bit (0 none), INTERRUPT. -/
structure Override where
  code : Nat
  pat : Loc
  action : Option Nat
  irq : Bool
deriving DecidableEq, Repr

/-- An open reaction window (R554): its containment element, class, action and the SEQ of its record. -/
structure Window where
  elem : Loc
  cls : Nat
  action : Nat
  recSeq : Nat
  closeBy : Nat
deriving DecidableEq, Repr

/-- Fault log, counters, reactions, ALIVE (chapter 12). -/
structure Faults where
  /-- D6 fault log, oldest first, at most 4,096 records [R560; 4,096 x 256; empty] -/
  log : List FRec := []
  /-- Protected records of class C4 or C5 [R560; 16 x 256; empty] -/
  prot : List FRec := []
  /-- SEQ of the next record [R559; 32; DESIGN CHOICE 1 (log 2)] -/
  nextSeq : Nat := 1
  /-- FAULT_EVENT [R564; 32; 0] -/
  event : Sqc := {}
  /-- FAULT_CNT per class [R564; 6 x 49; 0] -/
  cnt : Tbl Cnt := []
  /-- Records per die, for FAULT_STATUS [R570; count; 0] -/
  perDie : Tbl Nat := []
  /-- FAULT_LOST [R564; 49; 0] -/
  lost : Cnt := {}
  /-- FAULT_STATUS.TESTMODE_CLOSED [R564; 1; 1] -/
  testClosed : Bool := true
  /-- Actions of reactions begun and not yet carried out: action bit, location, class (empty between commands, the model's own) [none; list; none] -/
  acts : List (Nat × Loc × Nat) := []
  /-- Reaction of each class C0 to C4: action bit (0 none) and INTERRUPT [R552; per class; Table 12.4] -/
  react : Tbl (Nat × Bool) := []
  /-- Overrides by index 0 to 63 [R552; 64 records; none] -/
  overrides : Tbl Override := []
  /-- Open reaction windows [R554; list; none] -/
  windows : List Window := []
  /-- ALIVE_STATUS.RUN [R564; 1; 1] -/
  alive : Bool := true
  /-- ALIVE_STATUS.STOP_CAUSE [R564; 3; 0] -/
  stopCause : Nat := 0
  /-- ALIVE frequency in force, Hz [R564; 14; 1000] -/
  aliveHz : Nat := 1000
  /-- ALIVE frequency stored while ALIVE is stopped [R571; 14; none] -/
  aliveNext : Option Nat := none
  /-- A C5 reaction has begun: only D6 AON sources are logged [R558; 1; false] -/
  c5 : Bool := false
  /-- Cluster and region nodes that failed and hear no source until their element is restored [Table 12.6; list; none] -/
  deaf : List Loc := []
  /-- SEQ of the newest record overwritten in the log [R563; 32; none (0)] -/
  gapTo : Nat := 0
deriving DecidableEq, Repr

/-! ### Ports and lanes (chapter 4) -/

/-- Lane states of Table 4.7, with the states of training. -/
inductive LState where
  | deep | detect | training | l0 | l0p | l1
deriving DecidableEq, Repr

/-- One port (0 to 63). Its configuration is in the port map. -/
structure Port where
  /-- State of the port's lanes [R207; 3; DEEP] -/
  lanes : LState := .deep
  /-- Port may leave DETECT toward training (PORT_ENABLE, PORT_DISABLE) [R189; 1; enabled] -/
  enabled : Bool := true
  /-- Port fenced: no message is sent to its partner [R248; 1; false] -/
  fenced : Bool := false
  /-- Receiver detection has found a partner [R217; 1; false] -/
  found : Bool := false
  /-- Trained width in lanes, 0 when down [R182; 5; 0] -/
  width : Nat := 0
  /-- Trained rate code of R645, 0 when down [R645; 8; 0] -/
  rate : Nat := 0
  /-- Lane reversal applied in training [R182; 1; false] -/
  rev : Bool := false
  /-- Active lanes while L0p has narrowed the link, else 0 [R207; 5; 0] -/
  l0pW : Nat := 0
  /-- DS_CPL_TIMEOUT in microseconds [R200; 16; 4000] -/
  dsCpl : Nat := 4000
  /-- DS_FAIL_LIMIT [R200; 8; 8] -/
  dsFail : Nat := 8
  /-- US_CPL_TIMEOUT in microseconds [R200; 18; 32000] -/
  usCpl : Nat := 32000
  /-- ASPM L1 enabled [R209; 1; off downstream, DESIGN CHOICE off upstream (log 2)] -/
  aspm : Bool := false
  /-- L0p enabled [R189; 1; DESIGN CHOICE off (log 2)] -/
  l0p : Bool := false
  /-- IDE mode set by PORT_SET, true for containment [R197; 1; skid] -/
  contain : Bool := false
  /-- IDE mode in force since the last key programming [R197; 1; skid] -/
  containNow : Bool := false
  /-- IDE established on the link [R199; 1; false] -/
  ide : Bool := false
  /-- Consecutive DS_CPL_TIMEOUT expiries [R202; 8; 0] -/
  dsFails : Nat := 0
  /-- Link error count of PORT_STATUS [R213; count; DESIGN CHOICE 0 (log 2)] -/
  linkErrs : Nat := 0
  /-- AON tick of the last BIND_MISS report of the port [R237; 64; none] -/
  missAt : Option Nat := none
  /-- An access granted by the arbiter waits for the link to leave L1 [R209; 1; false] -/
  l1Wait : Bool := false
  /-- CXL.io enumeration as a host is under way, or a host awaits readiness [R217; 1; false] -/
  enum : Bool := false
  /-- Memory_Active reported by the expander [R217; 1; false] -/
  memActive : Bool := false
  /-- What the link partner said of itself at link up [R221; record; none] -/
  pid : Option PartnerId := none
  /-- Class of the link partner as its link came up, 0 before (Table 5.1) [R221; 4; 0] -/
  cls : Nat := 0
  /-- Host requests admitted and not completed, as FPA and tag kind, oldest first [R203; list; none] -/
  open_ : List (Nat × Nat) := []
deriving DecidableEq, Repr

/-- A port group (0 to 15). -/
structure Group where
  /-- PERST_N[g] driven low by the module [R215; 1; low, until the bring-up of R217] -/
  driven : Bool := true
  /-- PERST_N[g] held low by the host of an upstream group [R215; 1; DESIGN CHOICE false (log 2)] -/
  hostLow : Bool := false
  /-- The group is in its bring-up of Table 4.8 or R218 [R217; 1; false] -/
  bringUp : Bool := false
  /-- CLKREQ_N[g] driven low by the module [R216; 1; false, no lane out of DEEP] -/
  clkreq : Bool := false
deriving DecidableEq, Repr

/-- State of ports, lanes, groups and reference clocks. -/
structure Ports where
  /-- Committed port map, entries by group [R186; 16 x 32; from flash] -/
  map : Tbl Reg32 := [(0, 0x4C000FFC#32)]
  /-- Port map held in flash [R186; 16 x 32; blank flash map of R186] -/
  flash : Tbl Reg32 := [(0, 0x4C000FFC#32)]
  /-- Ports by number [R207; 64 records; as the fields say] -/
  port : Tbl Port := []
  /-- Groups by number [R178; 16 records; as the fields say] -/
  group : Tbl Group := []
  /-- LANE_EQ_CTL by lane [R204; 256 x 32; 0x1000_0000] -/
  eqCtl : Tbl Reg32 := []
  /-- LANE_EQ_CTL values in use since the last equalisation, by lane [R205; 256 x 32; 0x1000_0000] -/
  eqUse : Tbl Reg32 := []
  /-- LANE_EQ_STATUS by lane [R204; 256 x 32; 0] -/
  eqStat : Tbl Reg32 := []
  /-- TLANE_EQ_CTL by trunk lane [R204; 32 x 32; Table 6.1] -/
  teqCtl : Tbl Reg32 := []
  /-- TLANE_EQ_STATUS by trunk lane [R204; 32 x 32; 0] -/
  teqStat : Tbl Reg32 := []
  /-- REFCLKk stable for 100 microseconds, by quadrant [R216; 8; DESIGN CHOICE none (log 2)] -/
  refOk : List Nat := []
  /-- Quadrants whose REFCLKk has been lost [R214; 8; none] -/
  refLost : List Nat := []
deriving DecidableEq, Repr

/-! ### Partners, bindings, pool (chapter 5) -/

/-- A partner on a port. -/
structure Partner where
  /-- Partner kind of Table 5.1 [R221; 4; none] -/
  kind : Nat
  /-- Host or device index, 0xFF when none [R223; 8; none] -/
  index : Nat
  /-- Device Serial Number [R222; 64; none] -/
  serial : Option Nat
  /-- Digest of the certificate chain of an authenticated SPDM session [R221; 256; none] -/
  cert : Option Nat
  /-- Decoded capacity in 256 MiB blocks [R254; 17; none] -/
  capacity : Nat
  /-- AON tick at which the departure timer ends; none while attached [R251; 64; none] -/
  timerEnd : Option Nat
  /-- AON tick of the departure [R227; 64; none] -/
  leftAt : Nat
  /-- The effects of a surprise departure are being applied [R248; 1; none] -/
  leaving : Bool
  /-- Cause of the departure (Table 5.2) [R227; 4; none] -/
  cause : Nat
  /-- Partner table index [R232; 12; none] -/
  pindex : Nat
  /-- Logical devices of an MLD in PASSTHROUGH use, 1 otherwise [R221; 5; none] -/
  lds : Nat := 1
  /-- Capacity that was not added for want of room in the pool, in 256 MiB blocks [R247; 17; 0] -/
  excess : Nat := 0
deriving DecidableEq, Repr

/-- A partner event record (Table 5.3). -/
structure PRec where
  ident : Nat
  time : Nat
  loc : Loc
  ext : Nat
  next : Nat
  detail : Nat
  kind : Nat
  extV : Bool
  index : Nat
  port : Nat
  seq : Nat
  code : Nat
deriving DecidableEq, Repr

/-- Settings of PARTNER_SET for a port. -/
structure PSet where
  /-- Departure timer in milliseconds [R251; 16; 2000] -/
  timer : Nat := 2000
deriving DecidableEq, Repr

/-- State of an extent (Table 5.6). -/
inductive ExtState where
  | absent | free | bound | carve | evacSrc | evacDst | suspect | failed | scrub
deriving DecidableEq, Repr

/-- An extent table entry (Table 5.5). -/
structure Ext where
  /-- STATE of an extent [R233; 4; ABSENT] -/
  state : ExtState := .absent
  /-- PORT of the backing [R232; 6; 0] -/
  port : Nat := 0
  /-- DPA_EXT of the backing [R232; 16; 0] -/
  dpa : Nat := 0
  /-- BINDS [R232; 10; 0] -/
  binds : Nat := 0
  /-- PARTNER table index [R232; 12; 0] -/
  partner : Nat := 0
  /-- GEN [R232; 16; 0] -/
  gen : Nat := 0
  /-- Reserved by POOL_ALLOC for later binding [R265; 1; false] -/
  reserved : Bool := false
  /-- Members whose slices log the writes of this extent [R453; 9; none] -/
  remoteLog : List Nat := []
  /-- One EXTENT_FAILED fault has been reported since the extent became FAILED [R238; 1; false] -/
  told : Bool := false
deriving DecidableEq, Repr

/-- State of a binding entry as BIND_TABLE_GET reports it (R243), with the removal of R239 under way, and
an addition or removal stored for a HOST_H (R240). -/
inductive EntState where
  | valid | addPending | releasePending | removing | storedAdd | storedRelease
deriving DecidableEq, Repr

/-- A binding table entry (Table 5.7). -/
structure Ent where
  hoffExt : Nat
  home : Nat
  fext : Nat
  nm1 : Nat
  access : Nat
  dcr : Nat
  state : EntState
  /-- Raise DC_RELEASED when the removal completes (R242) -/
  tell : Bool
  /-- AON tick of the Add or Release Capacity event -/
  since : Nat
deriving DecidableEq, Repr

/-- An evacuation in progress (R257 to R263). -/
structure Evac where
  port : Nat
  ch : Nat
  share : Nat
  stallPages : Nat
  maxPasses : Nat
  mask : Nat
  e : Nat
  f : Nat
  prev : ExtState
  /-- 2 copy pass, 4 write stall waiting for admitted writes, 5 final pass -/
  step : Nat
  pass : Nat
  guards : Nat
  skipped : Nat
  stallAt : Nat
  /-- Pages of the harvested bitmap that the pass copies; none: every page [R259; 65,536; no reset of its own] -/
  pages : Option (List Nat) := none
deriving DecidableEq, Repr

/-- A request to the firmware of a home module: the home, kind, first extent and count. -/
structure HomeAsk where
  /-- Home module asked [R647; 4; no reset of its own] -/
  home : Nat
  /-- 0 bind, 1 lower BINDS, 2 reserve, 3 and 4 log on and off, 7 and 8 a harvest's barrier, 9 may a worker leave [R647; 4; no reset of its own] -/
  kind : Nat
  /-- First extent [R647; 16; no reset of its own] -/
  ext : Nat
  /-- How many extents [R647; 16; no reset of its own] -/
  n : Nat
deriving DecidableEq, Repr

/-- A command that waits for the homes it has asked (R647): its frame and opcode, what it is about, the entries it names,
the requests not answered, those granted, and how often they were sent again. -/
structure HomeReq where
  frame : Frame
  op : Nat
  arg : Nat
  binds : List BindReq
  asks : List HomeAsk
  done : List HomeAsk
  tries : Nat
deriving DecidableEq, Repr

/-- Extents taken out of a host's bindings whose recall has not answered (R239, R646): the sweep if one runs, whether the
host was told, its port, the DC region, the first extent and how many, and those still to be unbound. -/
structure Cut where
  sweep : Option Nat
  told : Bool
  port : Nat
  dcr : Nat
  first : Nat
  n : Nat
  left : List Nat
deriving DecidableEq, Repr

/-- Partners, their event log, host bindings and the pool. -/
structure Pool where
  /-- Partners by port, 0x40 + n for trunk port n [R221; records; none] -/
  partner : Tbl Partner := []
  /-- Newcomer that waits behind a partner's timer, by port [R253; records; none] -/
  newcomer : Tbl PartnerId := []
  /-- PARTNER_SET settings by port [R251; records; defaults] -/
  pset : Tbl PSet := []
  /-- Snoop timeout in microseconds, set by PARTNER_SET [R125; 18; 16000] -/
  snoop : Nat := 16000
  /-- PARTNER_SET.AUTO_ADD [R226; 1; 0] -/
  autoAdd : Bool := false
  /-- Partner event log, oldest first, at most 1,024 [R229; 1,024 x 256; empty] -/
  events : List PRec := []
  /-- Next event SEQ [R229; 8; DESIGN CHOICE 0 (log 2)] -/
  evSeq : Nat := 0
  /-- Lost events: count, and SEQ and TIME of the first [R229; record; none] -/
  evLost : Option (Nat × Nat × Nat) := none
  /-- Extent table [R232; 65,536 x 64; all ABSENT] -/
  ext : Tbl Ext := []
  /-- Partner table indices given so far [R232; 12; 0] -/
  nextPartner : Nat := 0
  /-- Binding tables, entry n of host h at 512 h + n [R235; 48 x 512 x 64; empty] -/
  ent : Tbl Ent := []
  /-- Virtual downstream bridges: port + 64 x logical device bound at 16 h + bridge [R194; records; none] -/
  bridge : Tbl Nat := []
  /-- Additions of capacity in progress: port, the extents taken, and true for a POOL_ADD_PARTNER [R246; list; none] -/
  adding : List (Nat × List Nat × Bool) := []
  /-- POOL_EXTENT_RELEASE in progress: extents not yet settled [R255; record; none] -/
  releasing : Option (List Nat) := none
  /-- Removals from bindings that wait for their recalls [R239, R646; list; none] -/
  cuts : List Cut := []
  /-- Evacuation in progress [R257; record; none] -/
  evac : Option Evac := none
  /-- 4 KiB pages of extents marked dirty by memory writes while logged, as extent x 65,536 + page [R259; bitmaps; none] -/
  dirty : List Nat := []
  /-- BIND_RELEASE commands with FORCE whose answer waits for the removal: host, entry, frame [R243; list; none] -/
  forced : List (Nat × Nat × Frame) := []
  /-- Requests sent to a home module and not answered, for BIND_ADD and its like [R647; list; none] -/
  homeReqs : List HomeReq := []
deriving DecidableEq, Repr

/-! ### What the module sends -/

/-- Output pins whose changes are recorded. -/
inductive Pin where
  | alertN | pfwN | alive | perstN (g : Nat) | clkreqN (g : Nat)
deriving DecidableEq, Repr

/-- One thing the module has sent to the outside world, or to memory on an expander. -/
inductive Out where
  /-- Response to a mailbox command: its frame, opcode, return code, payload numbers and MAC -/
  | reply (f : Frame) (opcode rc : Nat) (data : List Nat) (mac : BitVec 128)
  /-- Answer to an MCTP control message -/
  | mctp (x : Xport) (ep cmd rc arg : Nat)
  /-- Frame forwarded by P0 to a worker, or a stored reply sent again by a worker -/
  | forward (dest : Nat) (f : Frame) (opcode role : Nat)
  /-- Falgen message to an agent: opcode of Table 2.7, line or byte address, DP, ND, K, NT, LMASK, POISON, data -/
  | send (dst : Agent) (opc fpa : Nat) (dp nd k nt : Bool) (lmask : Nat) (poison : Bool) (data : Line)
  /-- Access to an expander: port, DPA extent, offset, read or write with byte enables, data and poison -/
  | mem (port dpa off : Nat) (write : Bool) (enables : BitVec 64) (data : Line) (poison : Bool)
  /-- S2M message to a host: kind of Table 2.9 (0 DRS, 1 NDR Cmp, 2 Cmp-S, 3 Cmp-E, 4 BIConflictAck, 5 Cmp granting I) -/
  | s2m (port kind addr mv : Nat) (poison : Bool) (data : Line)
  /-- Back-invalidate to a host: port, 0 BISnpInv, 1 BISnpData, 2 BISnpInvBlk (Table 2.9), host offset -/
  | bisnp (port kind addr : Nat)
  /-- H2D message to a caching device: port, 0 SnpInv, 1 SnpData, 2 GO, 3 GO granting I, 4 data with GO-S, 5 data with GO-E, 6 data with Poison (Table 2.9), address, poison, data -/
  | h2d (port kind addr : Nat) (poison : Bool) (data : Line)
  /-- Dynamic capacity event to a host: 0 Add, 1 Release, 2 Forced Release; entry number -/
  | dcEvent (host kind entry : Nat)
  /-- Write by the module in pool memory: first byte's FPA, bytes, value -/
  | poolWr (fpa bytes value : Nat)
  /-- Zero-fill of an extent: port and first byte of its 256 MiB at the expander (R234) -/
  | scrubFill (port dpa : Nat)
  /-- Copy pass of an evacuation: extents E and F, the 4 KiB pages copied; none: every page (Table 5.11) -/
  | evacCopy (e f : Nat) (pages : Option (List Nat))
  /-- Write by the module in the manager host's memory -/
  | hostWr (addr bytes value : Nat)
  /-- MSI-X message through a port -/
  | msix (port vec : Nat)
  /-- Change of an output pin -/
  | pin (p : Pin) (high : Bool)
  /-- CONTROL flit: trunk port, type of Table 6.10, content -/
  | control (tp type : Nat) (data : List Nat)
  /-- PAYLOAD flit with its SEQ, ACK, credit update (counter at 2 class + kind, cumulative count) and message -/
  | flit (tp seq ack crd count : Nat) (m : TrunkMsg)
  /-- What a trunk transmitter sends besides flits: 0 an IDLE codeword with SLEEP1, 1 a wake sequence (R274), 2 an IDLE codeword (R277) -/
  | codeword (tp kind : Nat)
  /-- Lane marker block on the four lanes: trunk port, MCOUNT, MIDX (R278) -/
  | marker (tp mcount midx : Nat)
  /-- CXL.io TLP or completion: 0 routed, 1 Unsupported Request, 2 read data, 3 poisoned read data, 4 Request Retry Status -/
  | tlp (port kind : Nat) (bytes : List Byte)
  /-- CXL memory-device mailbox answer on an upstream port -/
  | cxlMbx (port opcode : Nat) (ok : Bool)
  /-- Hierarchy-control message -/
  | hierMsg (tp : Nat) (m : HierMsg)
  /-- Request from this module's firmware to the home module -/
  | homeReq (dest kind ext count : Nat)
  /-- Global Persistent Flush issued to an expander, or answered to a host -/
  | gpf (port : Nat) (answer : Bool)
deriving DecidableEq, Repr

/-! ### Keepers: directory, transactions, caches (chapter 2) -/

/-- Request opcodes of class REQ (Table 2.7). -/
inductive ReqKind where
  | rds | rdx | upg | wrInvFull | wrInvPart | atomOp | evict
deriving DecidableEq, Repr

/-- A coherent write that the module makes on a slice's behalf (R430): who issues it, for whom, the lines not yet completed, and
the port and vector of the MSI-X message that follows it (R352, R353). -/
structure ModWr where
  src : Agent
  owner : Agent
  lines : List Nat
  irq : Option (Nat × Nat) := none
deriving DecidableEq, Repr

/-- A request on its way to, or queued at, a keeper: opcode, operands, and for an AtomOp its record and
the record of the next slot (R118). -/
structure QReq where
  kind : ReqKind
  r : ReqOp
  record : BitVec 128
  nextRec : BitVec 128
  /-- A header-only write whose data travels as BLK (R49, R130) -/
  bulk : Bool := false
  /-- Its payload is poisoned (Table 3.2, R133) -/
  psn : Bool := false
  /-- It has waited in a conflict queue (Table 11.11) -/
  queued : Bool := false
  /-- Of a record: the completion area of its poster at its admission (Table 9.2) -/
  area : Option Nat := none
deriving DecidableEq, Repr

/-- A directory entry (Table 2.2), its fields apart. Pointers hold the agent IDs of Table 2.3. -/
structure DEnt where
  /-- TAG.PX [R69; 1; entry free] -/
  px : Bool
  /-- TAG.Q [R69; 25; entry free] -/
  tag : Nat
  /-- LS0 [R69; 3; 0] -/
  ls0 : Nat
  /-- LS1 [R69; 3; 0] -/
  ls1 : Nat
  /-- LS2 [R69; 3; 0] -/
  ls2 : Nat
  /-- LS3 [R69; 3; 0] -/
  ls3 : Nat
  /-- SHR.MODE: 0 PTR, 1 CHOST, 2 BCAST [R69; 2; entry free] -/
  mode : Nat
  /-- PTR0 [R69; 8; entry free] -/
  p0 : Nat
  /-- PTR1 [R69; 8; entry free] -/
  p1 : Nat
  /-- PTR2 [R69; 8; entry free] -/
  p2 : Nat
  /-- SHR.LIST in CHOST mode [R69; 24; entry free] -/
  hosts : BitVec 24
deriving DecidableEq, Repr

/-- The snoops of class SNP (Table 2.7). -/
inductive SnpKind where
  | inv | shr | data | recall
deriving DecidableEq, Repr

/-- The responses of class RSP that answer a snoop (Table 2.8). -/
inductive RspKind where
  | rspI | rspS | rspO | wbPend
deriving DecidableEq, Repr

/-- Who waits for a snoop's answer: a home transaction, a proxy answering a home's snoop, a victim
buffer, or a directory sweep by number. -/
inductive WOwner where
  | txn | proxy | victim | sweep (n : Nat)
deriving DecidableEq, Repr

/-- A snoop sent and not yet answered in full (R82). -/
structure Wait where
  own : WOwner
  agent : Agent
  /-- Line number FPA / 64 -/
  line : Nat
  /-- Line number of the transaction the snoop serves -/
  forLine : Nat
  kind : SnpKind
  nd : Bool
  /-- The response received, waiting for its DAT message -/
  rsp : Option RspKind
  /-- The data received, waiting for its response, and its poison -/
  dat : Option (Line × Bool)
  /-- The data came as a WbData (R99, R104) -/
  wb : Bool
  /-- AON tick at which the snoop was sent -/
  since : Nat
deriving DecidableEq, Repr

/-- Where an open transaction stands: at the home snoops of R74, its own snoops, its memory read or write, or the
requester's Cmp; at the proxy the home's answer, or other local holders being invalidated. -/
inductive Stage where
  | share | snoop | memRd | memWr | ack | fwd | inval
deriving DecidableEq, Repr

/-- The message that ends a transaction toward its requester. -/
inductive Grant where
  | none | dataS | dataE | dataM | cmp | cmpE | cmpI | poison
deriving DecidableEq, Repr

/-- An open transaction (R90). -/
structure Txn where
  line : Nat
  q : QReq
  stage : Stage
  /-- Line state code at the decision (Table 2.4 or 2.21) -/
  st : Nat
  /-- Dirty data taken from holders -/
  dirty : Option Line
  /-- Agents that answered RspS or RspO, and so still hold the line -/
  kept : List Agent
  /-- The owner answered RspO -/
  ownerKept : Bool
  /-- The line is to be marked poisoned (R124) -/
  psn : Bool
  grant : Grant
  /-- The entry is rewritten with the requester as its only pointer (R75) -/
  narrow : Bool := false
  /-- The requester held the line when the transaction began -/
  held : Bool := false
  /-- A memory read issued beside the snoops is open (Table 2.13) -/
  reading : Bool := false
  /-- Data of that read, and its poison, before the snoops have all answered -/
  early : Option (Line × Bool) := none
deriving DecidableEq, Repr

/-- A directory sweep under way (R239, R248, R369, R55): why, and on whose behalf. -/
structure Sweep where
  num : Nat
  /-- 1 binding removal, 2 flip, 3 keeper reset, 4 log barrier, 5 access change, 6 expander departure -/
  why : Nat
  arg : Nat
deriving DecidableEq, Repr

/-- A line of an atomic or remote line cache (R107, R113). -/
structure CLine where
  line : Nat
  data : Line
  dirty : Bool
deriving DecidableEq, Repr

/-- A home's snoop that this module's proxy is answering (R109): line, kind, ND, the dirty data gathered
from local holders, and whether a local holder kept the line. -/
structure PSnoop where
  line : Nat
  kind : SnpKind
  nd : Bool
  data : Option Line
  kept : Bool
  psn : Bool
  /-- A WbData of this module that leaves it in S was on its way when the snoop came (R103) -/
  wb : Bool := false
deriving DecidableEq, Repr

/-- State of the keeper slices. -/
structure Keeper where
  /-- Directory: the used ways of a set, most recently used first, at 28,672 ks + set [R44; 32 x 28,672 x 16 x 64; all free] -/
  dir : Tbl (List DEnt) := []
  /-- Open transactions, oldest first [R90; 32 x 2,048; none] -/
  txns : List Txn := []
  /-- Conflict queues, in arrival order [R91; 32 x 1,024; empty] -/
  cq : List QReq := []
  /-- Victim buffers: slice and evicted entry with its sector number FPA / 256 [R96; 32 x 64; none] -/
  victims : List (Nat × Nat × DEnt) := []
  /-- Coherent writes of the module that have not completed [R430; list; none] -/
  modWr : List ModWr := []
  /-- Snoops sent and not answered [R82; list; none] -/
  waits : List Wait := []
  /-- Home snoops being answered by the proxy side [R109; list; none] -/
  psnoops : List PSnoop := []
  /-- Directory sweeps under way [R239; list; none] -/
  sweeps : List Sweep := []
  /-- Next sweep number [R239; 32; DESIGN CHOICE 1 (log 2)] -/
  nextSweep : Nat := 1
  /-- Write-backs taken whose expander write is open: sender and line [R99; list; none] -/
  wbs : List (Agent × Nat) := []
  /-- Memory writes of the keepers' own whose completion is open, by line [R93; list; none] -/
  side : List Nat := []
  /-- Atomic line caches, most recently used first [R113; 32 x 256 lines; empty] -/
  alc : List CLine := []
  /-- Remote line caches, most recently used first; their states are in the proxy entries [R107; 32 x 16,384 lines; empty] -/
  rlc : List CLine := []
  /-- Next PHASE of each written completion slot, at 256 slice + slot [R120; 512 x 256; DESIGN CHOICE 1 (log 4)] -/
  slotPhase : Tbl Nat := []
deriving DecidableEq, Repr

/-- What the upstream and device ports keep for coherence (R86, R88). -/
structure HostSide where
  /-- Lines with a host write-back received and not completed, by port [R86; list; none] -/
  wbOpen : List (Nat × Nat) := []
  /-- Back-invalidates open to a host, by port and line [R86; list; none] -/
  biOpen : List (Nat × Nat) := []
  /-- Host offset line of each back-invalidate sent: port, offset / 64, line (the address its answer carries) [R86; list; none] -/
  biAddr : List (Nat × Nat × Nat) := []
  /-- Completions owed to a host, by port and line [R88; list; none] -/
  owed : List (Nat × Nat) := []
  /-- BIConflicts whose BIConflictAck waits for owed completions [R88; list; none] -/
  conflicts : List (Nat × Nat) := []
  /-- Write-backs a port delivers as the DAT of an open back-invalidate, by port and line [R86; list; none] -/
  asDat : List (Nat × Nat) := []
  /-- Requests waiting in a port's shaping queue or receive buffer, oldest first: port, entered the queue, request [R385; 256 per port; none] -/
  shapeQ : List (Nat × Bool × QReq) := []
  /-- Requests whose result is to be discarded after a completion timeout, by port and line [R203; list; none] -/
  dead : List (Nat × Nat) := []
deriving DecidableEq, Repr

/-! ### Switch core (chapter 3) -/

/-- What an access at a port arbiter is for: a transaction's, a keeper's own write, a write-back, the second copy of a write in
an evacuation, a cell into or out of a spill queue, or a patrol read. -/
inductive AccKind where
  | txn | side | wb | copy | spill | unspill | patrol
deriving DecidableEq, Repr

/-- An access a requester presents to a port arbiter: address, port and place at its expander, a read or a write with its data
(R163). -/
structure Access where
  fpa : Nat
  port : Nat
  dpa : Nat
  off : Nat
  write : Bool
  en : BitVec 64
  data : Line
  psn : Bool
  kind : AccKind
deriving DecidableEq, Repr

/-- A request to an arbiter (R166): requester, direction, data units, AON tick it came, and the access where it is one of the
module's own. -/
structure Pend where
  req : Nat
  write : Bool
  units : Nat
  since : Nat
  /-- Consecutive tier A grants a tier B request has waited through (R164) -/
  passed : Nat := 0
  acc : Option Access := none
deriving DecidableEq, Repr

/-- The payload of a BLK cell: the DMA channel or module it comes from, its burst tag, line, byte mask and data; whether every
cell of its burst has arrived, whether its burst is incomplete (Table 3.5), and whether its write is at the port's arbiter. -/
structure Blk where
  src : Agent
  tag : Nat
  line : Nat
  mask : BitVec 64
  data : Line
  psn : Bool := false
  ready : Bool := false
  void : Bool := false
  asked : Bool := false
deriving DecidableEq, Repr

/-- What a message does at its egress point: a request for a keeper slice, the end of a request at its requester, a snoop at its
agent, a Falgen message or a management message for a trunk port, an access for a port arbiter, a completion of an expander, a
host's write-back or the response to its snoop, bulk data, a spilled cell read back, or what a trunk port has received. -/
inductive Load where
  | head
  | req (q : QReq)
  | ans (a : Agent) (g : Grant) (fpa : Nat) (d : Line)
  | snp (a : Agent) (opc fpa : Nat) (nd : Bool) (mask : Nat)
  | out (o : Out) (bulk : Bool)
  | tx (t : Nat) (m : TrunkMsg)
  | acc (x : Access)
  | drs (fpa : Nat) (psn : Bool) (d : Line)
  | ndr (fpa : Nat)
  | wb (a : Agent) (fpa : Nat) (k : Bool) (d : Line) (psn : Bool)
  | rsp (m : MsgOp) (r : RspKind)
  | blk (b : Blk)
  | back (die slot : Nat)
  | rx (m : TrunkMsg)
deriving DecidableEq, Repr

/-- A cell: the fields of its header (Table 3.2), the tick it entered its slot (R135), the point where its HCRC check fails
(R132), the ticks it stays on its plane, and the message it carries, which takes effect when the last cell of it is released. -/
structure Cell where
  cls : Nat
  opc : Nat
  src : Nat
  dst : Nat
  seq : Nat := 0
  tag : Nat := 0
  addr : Nat
  len : Nat := 0
  poison : Bool := false
  nt : Bool := false
  nd : Bool := false
  k : Bool := false
  first : Bool := true
  last : Bool := true
  dp : Bool := false
  since : Nat := 0
  bad : Option Nat := none
  slow : Nat := 0
  load : Load
deriving DecidableEq, Repr

/-- A request of an ingress point to an egress point for a class (R141). -/
structure VCell where
  src : Nat
  dst : Nat
  cls : Nat
deriving DecidableEq, Repr

/-- A write of a DMA burst that its home keeper has released and that waits for its BLK cell (R50, R154): the requester at the
arbiter, where the BLK cell comes from, and the access. -/
structure Rel where
  req : Nat
  src : Agent
  acc : Access
  /-- Dirty data taken from a holder, to be written where the burst is incomplete -/
  old : Option Line
deriving DecidableEq, Repr

/-- The crossbar: planes, virtual output queues, flows, resequencers, Tumbler pointers, spill. -/
structure Xbar where
  /-- XBAR_STATUS.PLANE_GATED [R176; 4; 0xF] -/
  gated : BitVec 4 := 0xF
  /-- XBAR_STATUS.PLANE_UP [R176; 4; 0xF] -/
  up : BitVec 4 := 0xF
  /-- XBAR_CTL.BLK_MIN of D0 [R176; 4; 7] -/
  blkMin0 : Nat := 7
  /-- XBAR_CTL.BLK_MIN of D1 [R176; 4; 7] -/
  blkMin1 : Nat := 7
  /-- Virtual output queues, in enqueue order [R134; 8 x 16,384 slots; empty] -/
  voq : List Cell := []
  /-- Cells in flight on a plane: plane, AON tick of arrival, cell [R140; list; none] -/
  flying : List (Nat × Nat × Cell) := []
  /-- Cells held by egress resequencers [R147; 8 x 12,288 slots; empty] -/
  held : List Cell := []
  /-- Flows whose last released cell was not the last of its message, by flow number [R129; list; none] -/
  part : List Nat := []
  /-- Next flow sequence number, by flow number [R145; 12; 0] -/
  nextSeq : Tbl Nat := []
  /-- Next sequence number to release, by flow number [R147; 12; 0] -/
  expSeq : Tbl Nat := []
  /-- Late-cell counters by egress point [R149; DESIGN CHOICE 32; 0] -/
  late : Tbl Nat := []
  /-- Grant pointers gptr, at (plane x 128 + point) x 3 + group [R143; 7; 0] -/
  gptr : Tbl Nat := []
  /-- Accept pointers aptr, at (plane x 128 + point) x 3 + group [R143; 7; 0] -/
  aptr : Tbl Nat := []
  /-- Slot after that of the last bulk grant of an egress point, at plane x 128 + point, 0 before any [R142; 64; 0] -/
  bulkAt : Tbl Nat := []
  /-- Consecutive slots in which a REQ has been passed over, at (plane x 128 + ingress) x 128 + egress [R142; 7; 0] -/
  reqPass : Tbl Nat := []
  /-- Cell slots counted so far, 32 in an AON tick at least [R140; 64; 0] -/
  slot : Nat := 0
  /-- Plane the next spray starts at [R145; 2; DESIGN CHOICE 0 (log 2)] -/
  spray : Nat := 0
  /-- SPILL_CTL, the same in both spill engines [R159; 64; 0x0000_0000_004B_3200] -/
  spillCtl : Reg64 := 0x00000000004B3200
  /-- BLK cells in the egress slots of their points, oldest first [R152; 512 per point; none] -/
  bulk : List Cell := []
  /-- Released writes of DMA bursts waiting for their BLK cells, oldest first [R50; list; none] -/
  rel : List Rel := []
  /-- Lines of bulk writes whose BLK cell was lost: its source and line [R150; list; none] -/
  gone : List (Agent × Nat) := []
  /-- Lines of bulk writes that ended before their BLK cell came, which is discarded: its source and line [R150; list; none] -/
  spare : List (Agent × Nat) := []
  /-- Bursts of other modules known to be incomplete whose last cell is still to come: source and tag [R150; list; none] -/
  cut : List (Agent × Nat) := []
  /-- Spilled BLK cells in the carve-out, oldest first: slot of its engine's half, 0 stored, 1 being read back, 2 read back, cell [R153; queues; empty] -/
  spillQ : List (Nat × Nat × Cell) := []
  /-- Next carve-out slot of each spill engine [R156; DESIGN CHOICE 32; DESIGN CHOICE 0 (log 2)] -/
  spillAt : Tbl Nat := []
  /-- Switch dies whose die-level points keep their queues in Q1 [R136; 2; none] -/
  inQ1 : List Nat := []
  /-- The carve-out is given up once every spill queue is empty [R160; 1; false] -/
  giveUp : Bool := false
  /-- Requesters of port arbiters that are in reset or without power [R168; 52; 0] -/
  down : BitVec 52 := 0
  /-- Scrub engine position per die [R162; 52; DESIGN CHOICE 0 (log 2)] -/
  scrubPos : Tbl Nat := []
  /-- Scrub engines stopped until their die is reset [R553; 2; none] -/
  scrubOff : List Nat := []
deriving DecidableEq, Repr

/-- One port arbiter (R162 to R175). -/
structure Arb where
  /-- ARB_CTL [R175; 32; 0x6000_7100] -/
  ctl : Reg32 := 0x60007100
  /-- ARB_STATUS.STATE: 0 IDLE, 1 GRANTED, 2 FREEZING, 3 FROZEN, 4 RESET [R173; 3; 0] -/
  state : Nat := 0
  /-- The grant held: requester, write, units, clock of the grant; none when GRANT_REQ is 63 [R175; 6; 63] -/
  grant : Option Pend := none
  /-- Parked requests, in arrival order [R166; 52 x 64; empty] -/
  pend : List Pend := []
  /-- Requests that requesters without a credit have not sent, in order [R166; list; none] -/
  unsent : List Pend := []
  /-- ARB_MASK.MASKED [R175; 52; 0] -/
  masked : BitVec 52 := 0
  /-- Requesters whose sideband shows reset or power-off [R168; 52; 0] -/
  side : BitVec 52 := 0
  /-- ARB_EVENT [R175; 32; 0] -/
  event : Sqc := {}
  /-- Rotating pointer of tier A [R164; 6; DESIGN CHOICE 0 (log 2)] -/
  ptrA : Nat := 0
  /-- Rotating pointer of tier B [R164; 6; DESIGN CHOICE 32 (log 2)] -/
  ptrB : Nat := 32
  /-- Rotating pointer of tier C [R164; 6; DESIGN CHOICE 50 (log 2)] -/
  ptrC : Nat := 50
  /-- Accesses handed to the port and not completed by the expander, oldest first [R170; list; none] -/
  handed : List Access := []
  /-- Port fenced: the arbiter stays FROZEN until the port is bound [R172; 1; false] -/
  fenced : Bool := false
  /-- Arbiter isolated: it stays FROZEN until RESET_TARGET [R549; 1; false] -/
  isolated : Bool := false
deriving DecidableEq, Repr

/-! ### Trunk ports and the hierarchy (chapter 6) -/

/-- Trunk link states of Table 6.11. -/
inductive TState where
  | off | train | align | init | auth | active | hold | authFail
deriving DecidableEq, Repr

/-- Power state of one direction of a trunk link (Table 6.2). -/
inductive TL where
  | tl0 | tl1 | tl3
deriving DecidableEq, Repr

/-- One trunk port. -/
structure Trunk where
  /-- TRUNK_CTL [R315; 32; 0x8010_1388] -/
  ctl : Reg32 := 0x80101388
  /-- TRUNK_ERR_CTL [R315; 32; 0x0404_0064] -/
  errCtl : Reg32 := 0x04040064
  /-- TRUNK_STATUS.STATE [R288; 4; 0] -/
  state : TState := .off
  /-- TRUNK_STATUS.PEER_IDX [R315; 4; 0xF] -/
  peerIdx : Nat := 15
  /-- TRUNK_STATUS.LANE_LOCK [R315; 4; 0] -/
  lock : BitVec 4 := 0
  /-- TRUNK_STATUS.DOWN_CAUSE [R315; 4; 0] -/
  cause : Nat := 0
  /-- TRUNK_PEER_SER [R315; 64; 0] -/
  peerSer : Nat := 0
  /-- Role the peer gave in INIT_CREDIT [R287; 8; none] -/
  peerRole : Nat := 0
  /-- TRUNK_EVENT [R315; 32; 0] -/
  event : Sqc := {}
  /-- Power state of the transmitter's lanes [R273; 2; TL3] -/
  tx : TL := .tl3
  /-- Power state of the receiver's lanes [R274; 2; TL3] -/
  rx : TL := .tl3
  /-- Precoding agreed in training [R270; 1; DESIGN CHOICE false (log 2)] -/
  precode : Bool := false
  /-- Lane markers missed in a row, by lane [R279; 2 per lane; 0] -/
  missed : Tbl Nat := []
  /-- Logical lane learned, by physical lane [R279; 2 per lane; none] -/
  lanePos : Tbl Nat := []
  /-- Last marker count received, by lane [R279; 16 per lane; none] -/
  mcount : Tbl Nat := []
  /-- The lanes retrain from the coefficients they last used, and that has not failed [R290; 1; false] -/
  fast : Bool := false
  /-- MCOUNT of the next lane marker block sent [R278; 16; DESIGN CHOICE 0 (log 2)] -/
  mark : Nat := 0
  /-- Codeword periods since the last lane marker block sent [R278; 16; 0] -/
  cwMark : Nat := 0
  /-- Codewords sent since the last IDLE codeword [R277; 12; 0] -/
  cwIdle : Nat := 0
  /-- Quarters of a codeword period left over from the ticks so far [none; 2; 0] -/
  cwPart : Nat := 0
  /-- Next SEQ to assign [R295; 12; DESIGN CHOICE 0 (log 2)] -/
  seq : Nat := 0
  /-- Replay buffer: SEQ, message and AON tick last sent, oldest first [R295; 4,096 flits; empty] -/
  replay : List (Nat × TrunkMsg × Nat) := []
  /-- E, next expected SEQ [R296; 12; DESIGN CHOICE 0 (log 2)] -/
  exp : Nat := 0
  /-- AON tick of the last REPLAY_REQ sent for the current E [R296; 64; none] -/
  reqAt : Option Nat := none
  /-- used counts of the sender, at 2 class + kind [R292; 16 or 20; 0] -/
  used : Tbl Nat := []
  /-- last_ret counts of the sender, at 2 class + kind [R292; 16 or 20; 0 before INIT_CREDIT] -/
  lastRet : Tbl Nat := []
  /-- ret counts of the receiver, at 2 class + kind [R292; 16 or 20; Table 6.13] -/
  ret : Tbl Nat := [(0, 512), (1, 512), (2, 512), (4, 1024), (6, 512), (7, 512), (8, 256), (9, 1024), (10, 32), (11, 32)]
  /-- Counts of credits taken by accepted messages, at 2 class + kind [R293; 16 or 20; 0] -/
  taken : Tbl Nat := []
  /-- Counts last sent in a credit update, at 2 class + kind [R283; 16 or 20; 0] -/
  crdSent : Tbl Nat := []
  /-- Counter the rotation of credit updates goes on from, at 2 class + kind [R283; 4; DESIGN CHOICE 0 (log 2)] -/
  crdNext : Nat := 0
  /-- Messages accepted whose cells wait in the ingress queue, oldest first: class, header and data credits [R293; VOQ; empty] -/
  buffered : List (Nat × Nat × Nat) := []
  /-- Index and role of the INIT_CREDIT sent last [R307; 4 and 8; 0xF and 0] -/
  ownInit : Nat × Nat := (15, 0)
  /-- Index and role of the INIT_CREDIT received last [R307; 4 and 8; 0xF and 0] -/
  peerInit : Nat × Nat := (15, 0)
  /-- The peer is P0 [R306; 1; 0] -/
  p0 : Bool := false
  /-- Messages waiting for a credit, a gate or the link, in arrival order [R286; VOQ; empty] -/
  queue : List TrunkMsg := []
  /-- Other messages started while a BLK message waits [R286; 8; 0] -/
  blkWait : Nat := 0
  /-- LINK_ID [R307; 64; none] -/
  linkId : Option (BitVec 64) := none
  /-- Nonce this module sent in AUTH_CHAL [R307; 256; none] -/
  nonceOwn : Option (BitVec 256) := none
  /-- Nonce received in AUTH_CHAL [R307; 256; none] -/
  noncePeer : Option (BitVec 256) := none
  /-- The peer's AUTH_RESP has been verified [R288; 1; false] -/
  verified : Bool := false
  /-- Consecutive authentication failures [R288; 2; 0] -/
  authFails : Nat := 0
  /-- Cause of the last authentication failure: NO_KEY [R307; 1; false] -/
  noKey : Bool := false
  /-- AON tick at which LINK_HOLD ends [R300; 64; none] -/
  holdEnd : Option Nat := none
  /-- Error-window counts: AON ticks of uncorrectable codewords and CRC failures [R298; 10; none] -/
  uncorr : List Nat := []
  /-- Error-window counts: AON ticks of replays [R298; 12; none] -/
  replays : List Nat := []
  /-- AON tick of the last PAYLOAD flit in either direction [R273; 64; 0] -/
  lastPay : Nat := 0
  /-- The link is a second link of a pair, joins two managers, or was lost between two workers: it stops in INIT until it is enabled again [R267; 1; false] -/
  stopped : Bool := false
  /-- Trunk lanes isolated by a reaction [R549; 4; none] -/
  noRetrain : Bool := false
deriving DecidableEq, Repr

/-- A member of the hierarchy: index and serial number (R308). -/
structure Member where
  idx : Nat
  serial : Nat
deriving DecidableEq, Repr

/-- A worker join that P0 runs (Table 6.16). -/
structure Join where
  tp : Nat
  serial : Nat
  idx : Nat
  admitted : Bool
  since : Nat
deriving DecidableEq, Repr

/-- The hierarchy. -/
structure Hier where
  /-- Hierarchy key, in flash [R307; 256; DESIGN CHOICE none (log 2)] -/
  key : Option (BitVec 256) := none
  /-- HIER_SET.ROLE_PREF in flash, true for MANAGER [R306; 1; DESIGN CHOICE true (log 2)] -/
  prefMgr : Bool := true
  /-- HIER_SET.AUTO_ADMIT [R308; 1; DESIGN CHOICE 0 (log 2)] -/
  autoAdmit : Bool := false
  /-- HIER_SET.MESH_TIMEOUT in milliseconds [R309; 14; 1000] -/
  meshMs : Nat := 1000
  /-- HIER_SET.TR_CPL_TIMEOUT in milliseconds [R303; 8; 24] -/
  trCplMs : Nat := 24
  /-- Members, this module included [R308; 9 records; none] -/
  members : List Member := []
  /-- Reserved indices: serial, index and AON tick of the end [R310; 8 records; none] -/
  reserved : List (Nat × Nat × Nat) := []
  /-- Join in progress [R309; record; none] -/
  join : Option Join := none
  /-- Workers waiting at step 2: trunk port and serial [R309; list; none] -/
  joinWait : List (Nat × Nat) := []
  /-- HIER_REMOVE in progress: worker index and steps finished [R313; record; none] -/
  remove : Option (Nat × Nat) := none
  /-- AON tick at which the module entered ACTIVE [R306; 64; none] -/
  activeAt : Option Nat := none
  /-- AON tick of the last join failure, at a worker [R309; 64; none] -/
  joinFailed : Option Nat := none
  /-- The module has been a worker since its last MODULE reset: its manager functions stay idle [R4; 1; false] -/
  wasWorker : Bool := false
  /-- P0 has admitted this worker [R308; 1; false] -/
  admitted : Bool := false
  /-- This worker's join has completed its mesh [R308; 1; false] -/
  joined : Bool := false
  /-- Modules declared lost [R302; 9; none] -/
  lost : List Nat := []
  /-- AON tick of the last HOME_LOST report, by port [R302; 64; none] -/
  lostAt : Tbl Nat := []
deriving DecidableEq, Repr

/-! ### DMA engine (chapter 7) -/

/-- A descriptor taken from a ring (R329), whether its PHASE was the one expected (R349), and whether it was read poisoned. -/
structure Fetched where
  ring : Nat
  idx : Nat
  desc : Line
  phaseOk : Bool
  psn : Bool := false
deriving DecidableEq, Repr

/-- A burst of a descriptor that has been issued: its destination lines still open (R325, R333). -/
structure Burst where
  num : Nat
  elems : Nat
  openLines : List Nat
deriving DecidableEq, Repr

/-- The burst formed next and not issued (R333): elements, bytes, source pieces as FPA and bytes, and
destination FPA; for ATOMIC a group of records. -/
structure Form where
  elems : Nat
  bytes : Nat
  srcs : List (Nat × Nat)
  dst : Nat
deriving DecidableEq, Repr

/-- A descriptor begun and not completed (R325, R330 to R355). -/
structure Begun where
  ring : Nat
  idx : Nat
  desc : Line
  /-- Order of beginning, over all channels -/
  num : Nat
  /-- AON tick of the beginning -/
  at_ : Nat
  /-- Elements already formed into bursts -/
  pos : Nat
  /-- Elements fully written before any failing element -/
  done : Nat
  status : Nat
  /-- Every burst issued, or the descriptor stopped -/
  issued : Bool
  bursts : List Burst
  nburst : Nat
  crc : Nat
  applied : Nat
  refused : Nat
  /-- Releases taken by middle-loop iterations -/
  taken : Nat
  /-- Releases counted and not taken -/
  releases : Nat
  /-- Records of an ATOMIC posted to their homes -/
  recs : List (BitVec 128)
  /-- The burst formed and not issued -/
  form : Option Form
  /-- A FLIP has committed -/
  committed : Bool
deriving DecidableEq, Repr

/-- One DMA channel. -/
structure Chan where
  /-- Owner slice, DMA_CH_STATUS.SLICE [R375; 9; 0x1FF none] -/
  slice : Option Nat := none
  /-- DMA_CH_CFG.PRIO [R376; 3; 7] -/
  prio : Nat := 7
  /-- DMA_CH_CFG.SHARE [R376; 8; 0] -/
  share : Nat := 0
  /-- DMA_CH_CFG.WDOG in milliseconds [R376; 16; 100] -/
  wdog : Nat := 100
  /-- Watchdog in force for the descriptor begun [R364; 16; 100] -/
  wdogNow : Nat := 100
  /-- DMA_CH_CTL.CH_STOP [R375; 1; 0] -/
  stop : Bool := false
  /-- Channel held in reset or isolated [R549; 1; false] -/
  out : Bool := false
  /-- PREEMPTED [R375; 1; 0] -/
  preempted : Bool := false
  /-- NEXT of the rate limiter, in 1/16 clocks [R328; 64; DESIGN CHOICE 0 (log 2)] -/
  next : Nat := 0
  /-- Ring and index of the descriptor most recently begun [R375; 24; none] -/
  last : Option (Nat × Nat) := none
  /-- Ring and line of the descriptors whose reads are on their way [R345; list; none] -/
  fetching : List (Nat × Nat) := []
  /-- Prefetched descriptors [R350; 1,920 x 512; empty] -/
  pre : List Fetched := []
  /-- Descriptors begun and not completed, oldest first [R321; list; none] -/
  begun : List Begun := []
  /-- Staging buffer: source lines by FPA line number, and whether poisoned [R326; 8 KiB; empty] -/
  staging : List (Nat × Line × Bool) := []
  /-- A descriptor that serves Zorne firmware (scrub or evacuation) [R319; 1; none] -/
  fwJob : Bool := false
deriving DecidableEq, Repr

/-- Ring states of Table 7.8. -/
inductive RState where
  | unassigned | off | run | drain | error
deriving DecidableEq, Repr

/-- One submission ring. -/
structure Ring where
  /-- STATE [R375; 3; 0 UNASSIGNED] -/
  state : RState := .unassigned
  /-- Channel that serves the ring [R320; 6; none] -/
  ch : Nat := 0
  /-- Slot of the slice page the ring appears in [R424; 3; none] -/
  slot : Nat := 0
  /-- Slice address of the ring [R345; 48; none] -/
  base : Nat := 0
  /-- log2 of the number of descriptors [R345; 5; none] -/
  log2 : Nat := 0
  /-- FETCH [R375; 16; 0] -/
  fetch : Nat := 0
  /-- HEAD [R375; 16; 0] -/
  head : Nat := 0
  /-- TAIL [R375; 16; 0] -/
  tail : Nat := 0
  /-- SQ_PHASE [R375; 1; 1] -/
  phase : Bool := true
  /-- A full lap is posted (R348), as the channel's read of the entry at FETCH shows [R348; 1; false] -/
  lap : Bool := false
  /-- STOP_ON_ERR [R375; 1; 1] -/
  stopOnErr : Bool := true
  /-- LAST_ERR [R375; 7; 0] -/
  lastErr : Nat := 0
  /-- Completion ring [R346; 8; none] -/
  cq : Nat := 0
  /-- TAIL at the moment DRAIN began [R359; 16; none] -/
  drainTail : Nat := 0
deriving DecidableEq, Repr

/-- One completion ring. -/
structure CRing where
  /-- ASSIGNED, and the slice [R375; 1; 0] -/
  slice : Option Nat := none
  /-- Slice address of the ring [R345; 48; none] -/
  base : Nat := 0
  /-- log2 of the number of entries [R345; 5; none] -/
  log2 : Nat := 0
  /-- CQ_TAIL [R375; 16; 0] -/
  tail : Nat := 0
  /-- CQ_HEAD [R375; 16; 0] -/
  head : Nat := 0
  /-- OUTSTANDING [R375; 17; 0] -/
  outst : Nat := 0
  /-- CQ_PHASE [R375; 1; 1] -/
  phase : Bool := true
  /-- Entries reserved for descriptors begun [R351; 17; 0] -/
  reserved : Nat := 0
  /-- MSI-X vector [R347; 11; none] -/
  vec : Nat := 0
deriving DecidableEq, Repr

/-- An alias window (R365), and the flip in progress on it. -/
structure Window16 where
  /-- Definition; none when undefined [R365; record; none] -/
  dfn : Option WinDef := none
  /-- Active set, true for B [R365; 1; A] -/
  activeB : Bool := false
  /-- EPOCH [R365; 63; 0] -/
  epoch : Nat := 0
  /-- Flip in progress: step of Table 7.9 last finished [R369; 3; none] -/
  step : Option Nat := none
  /-- Channel, ring, index and epoch word address of the FLIP, and its target [R369; record; none] -/
  flip : Option (Nat × Nat × Nat × Nat × Bool) := none
  /-- The sweep of the flip, by number [R369; 32; none] -/
  sweep : Option Nat := none
  /-- Transactions on the old set open at COMMIT: line and requester [R369; list; none] -/
  olds : List (Nat × Agent) := []
  /-- The FLIP's completion entry has been written before the sweep ended [R374; 1; false] -/
  told : Bool := false
deriving DecidableEq, Repr

/-- The DMA engine. -/
structure Dma where
  /-- Channels [R318; 64 records; as the fields say] -/
  ch : Tbl Chan := []
  /-- Submission rings [R375; 256 records; as the fields say] -/
  ring : Tbl Ring := []
  /-- Completion rings [R375; 256 records; as the fields say] -/
  cring : Tbl CRing := []
  /-- Alias windows [R365; 16 records; undefined] -/
  win : Tbl Window16 := []
  /-- DMA_EVENT [R375; 32; 0] -/
  event : Sqc := {}
  /-- DMA_DREQ_STATUS.LEVEL [R375; 16; 0] -/
  dreq : BitVec 16 := 0
  /-- Order number of the next descriptor to begin [R337; 64; 0] -/
  nextNum : Nat := 0
  /-- Channels parked by a brownout [R363; 1; false] -/
  parked : Bool := false
  /-- Channel whose burst last began, by cluster, for the rotation of R324 [R324; 3 per cluster; DESIGN CHOICE 0 (log 2)] -/
  rot : Tbl Nat := []
deriving DecidableEq, Repr

/-! ### Shapers and time gates (chapter 8) -/

/-- A token bucket (Table 8.2). -/
structure Bucket where
  /-- BKT_CFG [R389; 64; 0x1FE0_0000_0000_0100] -/
  cfg : Reg64 := 0x1FE0000000000100
  /-- BKT_TOK.TOK [R389; 64; 0] -/
  tok : Int := 0
deriving DecidableEq, Repr

/-- What a charge lets go when it proceeds: the next burst of a channel, a host request of a port, a request of a bound
passthrough function, or the epoch word of a FLIP. -/
inductive Work where
  | burst (ch : Nat)
  | host (port : Nat) (q : QReq) (way : Passage)
  | pass (port : Nat) (qs : List QReq)
  | epoch (ch fpa val : Nat)
deriving DecidableEq, Repr

/-- A charge waiting on its buckets (R382): slice bucket and aggregate bucket keys, bytes, work. -/
structure Charge where
  slice : Option Nat
  bkts : List (Bool × Nat)
  bytes : Nat
  work : Work
deriving DecidableEq, Repr

/-- A gate set: GATE_CTL, GATE_BASE and the list (R394). -/
structure GateSet where
  /-- GATE_CTL [R394; 64; 0x0000_0000_7D00_0000] -/
  ctl : Reg64 := 0x7D000000
  /-- GATE_BASE [R394; 64; 0] -/
  base : Reg64 := 0
  /-- Gate control list [R393; 128 x 32; DESIGN CHOICE empty (log 2)] -/
  list : List Reg32 := []
deriving DecidableEq, Repr

/-- A gated point: 0 to 63 or 0x40 to 0x47. -/
structure Gate where
  /-- Set in force [R394; record; reset values] -/
  now : GateSet := {}
  /-- Shadow set [R394; record; reset values] -/
  shadow : GateSet := {}
  /-- Pending set and the earliest MTIME of its swap [R406; record; none] -/
  pending : Option (GateSet × Nat) := none
  /-- GATE_STATUS.ENTRY [R408; 8; 0] -/
  entry : Nat := 0
  /-- MTIME of the last cycle start, and time elapsed within the entry in force [R408; 64; 0] -/
  start : Nat := 0
  /-- MTIME at which the entry in force began [R393; 64; 0] -/
  entryAt : Nat := 0
  /-- GATE_STATUS.OVERRUN [R408; 16; 0] -/
  overrun : Nat := 0
  /-- The gates stay closed until their next cycle start (R410) [R410; 1; false] -/
  shut : Bool := false
deriving DecidableEq, Repr

/-- Shapers, gates and their time. -/
structure Shape where
  /-- Slice buckets, at 16 slice + b [R379; 8,192 records; reset values] -/
  bkt : Tbl Bucket := []
  /-- Aggregate buckets by point [R379; 72 records; reset values] -/
  agg : Tbl Bucket := []
  /-- Charges waiting, in arrival order [R384; list; none] -/
  waiting : List Charge := []
  /-- Gated points [R391; 72 records; reset values] -/
  gate : Tbl Gate := []
  /-- MTIME, ns [R401; 64; 0] -/
  mtime : Nat := 0
  /-- MTIME runs [R401; 1; stopped] -/
  running : Bool := false
  /-- TSYNC_STAMP [R408; 64; 0] -/
  stamp : Nat := 0
  /-- GATE_EVENT [R408; 32; 0] -/
  event : Sqc := {}
  /-- SHAPE_EVENT [R408; 32; 0] -/
  shEvent : Sqc := {}
  /-- TSYNC_CTL.LOSS in 100 microsecond steps [R404; 16; 11000] -/
  loss : Nat := 11000
  /-- AON tick of the last accepted TSYNC edge [R403; 64; none] -/
  edgeAt : Option Nat := none
  /-- Slices with a wait in progress within the microsecond under way [R426; 512; none] -/
  waitUs : List Nat := []
deriving DecidableEq, Repr

/-! ### Slices and wards (chapter 9) -/

/-- Slice states of Table 9.3. -/
inductive SState where
  | active | freezing | frozen
deriving DecidableEq, Repr

/-- The slice channel (R447). -/
structure SChan where
  reqBase : Nat
  reqLog : Nat
  repBase : Nat
  repLog : Nat
  vec : Nat
  reqTail : Nat
  reqHead : Nat
  reqPhase : Bool
  repTail : Nat
  repHead : Nat
  repPhase : Bool
  /-- Reply entries reserved or written and not freed -/
  repUsed : Nat
  /-- PEER requests waiting: tag, opcode, payload -/
  peers : List (Nat × Nat × List Byte)
  /-- ZORNE requests consumed and not answered, oldest first: tag, opcode -/
  zornes : List (Nat × Nat)
deriving DecidableEq, Repr

/-- A dirty log (R451). -/
structure DLog where
  owner : Nat
  buf0 : Nat
  buf1 : Nat
  second : Bool
  /-- Extents logged, as HOME and EXT packed at FPA[51:28], in ascending host offset -/
  exts : List Nat
  /-- Bits set in the active buffer -/
  bits : List Nat
deriving DecidableEq, Repr

/-- A slice. -/
structure Slice where
  /-- Host index of the key [R412; 6; none] -/
  host : Nat
  /-- PASID of the key [R412; 20; none] -/
  pasid : Nat
  /-- SLICE_CTL.STATE [R420; 2; 0 ACTIVE] -/
  state : SState
  /-- BINDMASK, as the entries it names [R414; 512; none] -/
  mask : List Nat
  /-- SLICE_CTL.USER_COUNTERS [R424; 1; 0] -/
  userCnt : Bool
  /-- CUT in force [R416; 12; 0xFFF] -/
  cut : BitVec 12
  /-- Counter posting window, host offset [R418; 46; none] -/
  window : Option Nat
  /-- Completion area, slice address [R418; 48; none] -/
  area : Option Nat
  /-- Slice channel [R447; record; disabled] -/
  chan : Option SChan
  /-- Slice counters 0 to 7 [R426; 8 x 49; 0] -/
  cnt : Tbl Cnt
  /-- Dirty log [R451; record; none] -/
  log : Option DLog
  /-- Frames of SLICE_FREEZE to be answered when the slice is FROZEN [R423; list; none] -/
  freezers : List (Frame × Nat)
deriving DecidableEq, Repr

/-- The ward table, its banks, cuts, epochs and commits. -/
structure Ward where
  /-- Regions in force, the active bank of both replicas [R438; 4,096 x 128; cleared] -/
  now : Tbl Region := []
  /-- Shadow master [R438; 4,096 x 128; cleared] -/
  shadow : Tbl Region := []
  /-- Inactive bank of the D0 replica [R438; 4,096 x 128; cleared] -/
  bank0 : Tbl Region := []
  /-- Inactive bank of the D1 replica [R438; 4,096 x 128; cleared] -/
  bank1 : Tbl Region := []
  /-- Roots of the replica banks, at 2 die + bank [R518; 4 x 3 x 64; DESIGN CHOICE 0 (log 2)] -/
  roots : Tbl Tri := []
  /-- WARD_CTL, copies of D0 [R445; 3 x 64; 1] -/
  ctl0 : Tri := { c0 := 1, c1 := 1, c2 := 1 }
  /-- WARD_CTL, copies of D1 [R445; 3 x 64; 1] -/
  ctl1 : Tri := { c0 := 1, c1 := 1, c2 := 1 }
  /-- WARD_CTL in force since the last commit [R445; 64; 1] -/
  ctlNow : Reg64 := 1
  /-- WARD_COMMIT.TARGET, copies of D0 [R445; 3 x 64; 1] -/
  tgt0 : Tri := { c0 := 1, c1 := 1, c2 := 1 }
  /-- WARD_COMMIT.TARGET, copies of D1 [R445; 3 x 64; 1] -/
  tgt1 : Tri := { c0 := 1, c1 := 1, c2 := 1 }
  /-- WARD_EPOCH [R445; 32; 0] -/
  epoch : Nat := 0
  /-- Accesses in flight with their epochs: requester, line, epoch [R441; list; none] -/
  flight : List (Agent × Nat × Nat) := []
  /-- TARGETs of commits accepted at step 1 and neither switched nor refused, oldest first [R439; list; none] -/
  accepted : List Nat := []
  /-- The oldest accepted commit has passed step 2 [R440; 1; false] -/
  checked : Bool := false
  /-- WARD_STATUS.COPYING [R445; 1; 0] -/
  copying : Bool := false
  /-- WARD_STATUS.DENY_COUNT [R445; 32; 0] -/
  denies : Nat := 0
  /-- AON tick of the last WARD_DENY report, by crossbar point of ingress [R437; 64 per point; none] -/
  denyAt : Tbl Nat := []
  /-- Flagged regions of WARD_AUDIT, ascending [R445; 4,096; none] -/
  flagged : List Nat := []
  /-- WARD_AUDIT.EPOCH [R445; 32; 0] -/
  auditEpoch : Nat := 0
  /-- WARD_EVENT [R445; 32; 0] -/
  event : Sqc := {}
  /-- Cuts of device caching agents in force [R416; 16 x 12; DESIGN CHOICE 0xFFF (log 5)] -/
  devCut : Tbl (BitVec 12) := []
  /-- Staged cuts of slices [R416; 512 x 12; none] -/
  stSlice : Tbl (BitVec 12) := []
  /-- Staged cuts of device caching agents [R416; 16 x 12; none] -/
  stDev : Tbl (BitVec 12) := []
deriving DecidableEq, Repr

/-! ### Power entry, thermal, test access (chapters 13 and 14) -/

/-- Sill states of Table 13.2. -/
inductive SillState where
  | disabled | wait | qual | ramp | on | cool | latched | ovOff
deriving DecidableEq, Repr

/-- The Sill controller, power registers, brownout and start-up. -/
structure Sill where
  /-- SILL_STATUS.SSTATE [R608; 4; 1 WAIT] -/
  state : SillState := .wait
  /-- SILL_CTL [R608; 3 x 64; 0x8010_6500_57B2_0000] -/
  ctl : Tri := { c0 := 0x8010650057B20000, c1 := 0x8010650057B20000, c2 := 0x8010650057B20000 }
  /-- SILL_LIMITS [R608; 3 x 64; 0x8200_1400_1E00_0000] -/
  limits : Tri := { c0 := 0x820014001E000000, c1 := 0x820014001E000000, c2 := 0x820014001E000000 }
  /-- SILL_STATUS.RETRY_LEFT [R608; 3; 3] -/
  retry : Nat := 3
  /-- SILL_STATUS.FEED_A [R608; 3; DESIGN CHOICE 0 ABSENT (log 2)] -/
  feedA : Nat := 0
  /-- SILL_STATUS.FEED_B [R608; 3; DESIGN CHOICE 0 ABSENT (log 2)] -/
  feedB : Nat := 0
  /-- PFW_N asserted, SILL_STATUS.PFW [R608; 1; 0] -/
  pfw : Bool := false
  /-- SILL_STATUS.PFW_CAUSE [R608; 4; 0] -/
  pfwCause : Nat := 0
  /-- SILL_STATUS.LAST_TRIP [R608; 4; 0] -/
  lastTrip : Nat := 0
  /-- AON tick at which the cool-down ends, for COOL_LEFT [R608; 16; none] -/
  coolEnd : Option Nat := none
  /-- SILL_EVENT [R608; 32; 0] -/
  event : Sqc := {}
  /-- RAMP_MS of the ramp in progress [R609; 8; 16] -/
  rampMs : Nat := 16
  /-- A recharge in ON is in progress: slow breaker masked, SOA timer running [R582; 1; false] -/
  recharge : Bool := false
  /-- EN = 0 has been written in READY or ACTIVE and the transistor turns off after step 5 [R606; 1; false] -/
  offAfter : Bool := false
  /-- The transistor has turned off in ON [R599; 1; false] -/
  turnedOff : Bool := false
  /-- PWR_VOLT [R608; 64; 0] -/
  volt : Reg64 := 0
  /-- PWR_CURR [R608; 64; 0] -/
  curr : Reg64 := 0
  /-- PWR_POWER.UPDATES [R608; 32; 0] -/
  updates : Nat := 0
  /-- PWR_POWER.P, mW [R608; 32; 0] -/
  power : Nat := 0
  /-- PWR_ENERGY, microjoules [R608; 64; 0] -/
  energy : Nat := 0
  /-- Sub-microjoule remainder of the accumulator, in units of 0.1 microjoule [R601; 4; 0] -/
  energyRem : Nat := 0
  /-- State start-up is heading to: START_STATE, or the target of POWER_STATE_SET [R605; 2; ACTIVE] -/
  goal : PState := .active
  /-- START_STATE in flash [R605; 2; ACTIVE of a blank flash] -/
  start : PState := .active
  /-- Last step of Table 13.6 finished, 0 outside brownout [R595; 3; 0] -/
  brownStep : Nat := 0
  /-- Module state before the brownout [R598; 3; none] -/
  brownFrom : PState := .active
  /-- A MODULE reset triggered in a brownout waits for its write-back, with whether it reloads the retry count [R54; 2; none] -/
  resetWaits : Option Bool := none
  /-- A SILL_CTRL fault holds the pass transistor in its present state until a COLD reset [Table 13.12; 1; false] -/
  stuck : Bool := false
  /-- Hosts whose Global Persistent Flush has not been answered, by port [R597; list; none] -/
  gpfHosts : List Nat := []
  /-- Expanders whose Global Persistent Flush has not completed, by port [R597; list; none] -/
  gpfExps : List Nat := []
  /-- D6 self-test has passed [R607; 1; DESIGN CHOICE false (log 2)] -/
  selfTest : Bool := false
  /-- Point-of-load converters on [R577; 1; false] -/
  pol : Bool := false
deriving DecidableEq, Repr

/-- Temperature sensors, alarms, shutdown comparators, and the test access port. -/
structure Thermal where
  /-- Sensor readings in 0.25 degree units, 0x8000 when unpowered [R638; 16 x 16; DESIGN CHOICE 0x8000 (log 2)] -/
  reading : Tbl Nat := []
  /-- WARN in degrees by sensor group 0 to 2 [R640; 3 x 8; 115] -/
  warn : Tbl Nat := []
  /-- CRIT in degrees by sensor group 0 to 2 [R640; 3 x 8; 120] -/
  crit : Tbl Nat := []
  /-- Alarms raised and not re-armed, as 2 sensor + (1 for CRIT) [R641; 30; none] -/
  raised : List Nat := []
  /-- Sensors whose reading is held at 0x8000 after THERM_SENSOR [R641; 16; none] -/
  bad : List Nat := []
  /-- Dies stopped by their shutdown comparator [R642; 7; none] -/
  tripped : List Nat := []
  /-- Test access port instruction in force [R632; 4; DESIGN CHOICE 0 BYPASS (log 2)] -/
  tap : Nat := 0
  /-- A test instruction has taken effect and has not been replaced [R633; 1; false] -/
  tapLive : Bool := false
deriving DecidableEq, Repr

/-! ### The state -/

/-- No step of this model faults: every command has an effect, or is answered with a return code, or
leaves the state as it was. Safe: nothing is hidden behind a fault. -/
inductive Fault where
deriving DecidableEq, Repr

/-- Why a command has no meaning in the model. -/
inductive Refusal where
  /-- Raised by an arm of exec for a command that is not modelled; safe, since nothing is claimed of it. -/
  | notModelled (mnemonic : String)
deriving DecidableEq, Repr

/-- The state of the block: everything the spec gives the module, what it has sent, and the commands that wait. -/
structure State where
  glob : Glob := {}
  svc : Svc := {}
  mbx : Mbx := {}
  fw : Fw := {}
  perf : Perf := {}
  faults : Faults := {}
  ports : Ports := {}
  pool : Pool := {}
  keeper : Keeper := {}
  hs : HostSide := {}
  xbar : Xbar := {}
  arb : Tbl Arb := []
  trunk : Tbl Trunk := []
  hier : Hier := {}
  dma : Dma := {}
  shape : Shape := {}
  slices : Tbl Slice := []
  ward : Ward := {}
  sill : Sill := {}
  therm : Thermal := {}
  /-- Everything sent so far, oldest first (the model's own record) -/
  out : List Out := []
  /-- Commands waiting, first in, first out -/
  pending : List Instr := []
deriving DecidableEq, Repr

/-- The module right after a COLD reset is released: STANDBY, every register at its reset value. -/
def State.reset : State := {}

end Sys2Proof.Machine
end

