-- ==== Sys2Proof/Machine/Ops.lean ====
section
/-! DEFINITION. The named operations over the state: outputs, draws, voted and sequence-clear registers, location codes, and the geometry of ports, slices and addresses. -/
namespace Sys2Proof.Machine

/-- The outcome type of every meaning. -/
abbrev Res := Host.Outcome State Fault Refusal

/-- A number as bytes, the least significant first (R9). -/
def leBytes (n v : Nat) : List Byte := (List.range n).map (fun i => BitVec.ofNat 8 (v / 2 ^ (8 * i)))

/-- Key under which a frame's sender is bound to its session: MCTP endpoint ID, or 0 for the one CXL mailbox. -/
def endpointOf (f : Frame) : Nat := match f.xport with | .smbus | .i3c => f.ep | _ => 0

/-- The header of a frame with its MAC field zero (Table 10.2). -/
def zorneHead (f : Frame) (op flags rc plen : Nat) : List Byte :=
  leBytes 2 op ++ leBytes 1 flags ++ leBytes 1 f.version ++ leBytes 4 f.tag ++ leBytes 4 f.sid ++ leBytes 4 f.seq ++ leBytes 2 rc
    ++ leBytes 1 (f.dest % 16) ++ leBytes 1 f.fwdRole ++ leBytes 4 plen ++ leBytes 2 f.slice ++ leBytes 6 0 ++ leBytes 16 0 ++ leBytes 16 0

/-- The first 16 bytes of the HMAC of a header and payload under a session key (R482). -/
def zorneMac (sk : BitVec 256) (b : List Byte) : BitVec 128 := (Config.hmac sk b).truncate 128

/-- The MAC a command must carry under a session key (R482). -/
def commandMac (f : Frame) (op : Nat) (sk : BitVec 256) : BitVec 128 := zorneMac sk (zorneHead f op (2 * b2n f.fwd) 0 f.plen ++ f.body)

/-- The module is up: its switch dies run and commands that need them are taken (R464). -/
def State.running (s : State) : Bool := s.glob.pstate == .ready || s.glob.pstate == .active || s.glob.pstate == .brownout

/-! ### Outputs and draws -/

/-- A trunk port's record. -/
def State.tp (s : State) (t : Nat) : Trunk := Tbl.get ({} : Trunk) s.trunk t
/-- A trunk port's record changed. -/
def State.modTp (s : State) (t : Nat) (f : Trunk → Trunk) : State :=
  { s with trunk := Tbl.set {} s.trunk t (f (s.tp t)) }

/-- Trunk port of the link to a module, which is up or holds (R267, R300). -/
def State.trunkTo (s : State) (m : Nat) : Option Nat :=
  (List.range 8).find? (fun t => (s.tp t).peerIdx == m && ((s.tp t).state == .active || (s.tp t).state == .hold))

/-- A message of class MGT: a frame fragment or hierarchy control (Table 6.8). -/
def mgtMsg (src dst op : Nat) : TrunkMsg :=
  { cls := 5, op := op, addr := 0, tag := 0, len := 63, dp := false, lmask := 0, first := true, last := true, k := false, nd := false, nt := false, poison := false, srcm := src, dstm := dst, data := 0, mask := 0 }

/-- The trunk message that something sent becomes, and its trunk port: Falgen messages to a module, firmware's
requests to another module, forwarded frames and their replies, and hierarchy control (Table 6.8). -/
def State.trunkMsg (s : State) (o : Out) : Option (Nat × TrunkMsg) :=
  let mgt := fun (m op : Nat) => (s.trunkTo m).map (fun t => (t, mgtMsg s.glob.midx m op))
  match o with
  | .send (.mod m) opc fpa dp nd k nt lmask psn d => (s.trunkTo m).map (fun t => (t,
      { cls := opc / 8, op := opc, addr := fpa, tag := 0, len := 63, dp := dp, lmask := if opc = 0xB then lmask else 0, first := true, last := true, k := k, nd := nd, nt := nt, poison := psn, srcm := s.glob.midx, dstm := m, data := d, mask := if opc = 4 then BitVec.ofNat 64 lmask else 0 }))
  | .homeReq m _ _ _ => mgt m 0
  | .forward m _ _ _ => mgt m 0
  | .reply f _ _ _ _ => if f.xport = .trunk then mgt 0 0 else none
  | .hierMsg t _ => some (t, mgtMsg s.glob.midx (s.tp t).peerIdx 1)
  | _ => none

/-- The next value of the random source. -/
def State.fresh (s : State) : BitVec 256 := Config.random s.glob.draws

/-- A free number (log 1). -/
def State.freeNat (s : State) : Nat := Config.free s.glob.draws

/-- One draw taken. -/
def State.drawn (s : State) : State := { s with glob := { s.glob with draws := s.glob.draws + 1 } }

/-- A wake event for the control cores: while they are halted it waits for them (R39). -/
def State.woken (s : State) : State := { s with svc := { s.svc with wake := s.svc.wake || ! s.svc.coresRun } }

/-! ### Voted fields (R15, R518) -/

/-- Bitwise majority of the three copies. -/
def Tri.maj (t : Tri) : Reg64 := (t.c0 &&& t.c1) ||| (t.c0 &&& t.c2) ||| (t.c1 &&& t.c2)

/-- All three copies written at once. -/
def Tri.all (v : Reg64) : Tri := { c0 := v, c1 := v, c2 := v }

/-- The three copies agree. -/
def Tri.agree (t : Tri) : Bool := t.c0 == t.c1 && t.c1 == t.c2

/-! ### Sequence-clear registers (R515) -/

/-- A new event: SEQ advances, the bit is set with age 0, the value fields under `mask` are loaded. -/
def Sqc.raise (q : Sqc) (b : Nat) (v mask : Reg32) : Sqc :=
  { seq := q.seq + 1
    ages := Tbl.put (q.ages.map (fun e => (e.1, min 255 (e.2 + 1)))) b 0
    val := (q.val &&& ~~~mask) ||| (v &&& mask) }

/-- A write carrying `w` in bits 31 to 24: events set at or before it clear (R515). -/
def Sqc.clear (q : Sqc) (w : BitVec 8) : Sqc :=
  let d := (q.seq - w).toNat
  let left := q.ages.filter (fun e => decide (e.2 < d))
  { q with ages := left, val := if left = [] then 0 else q.val }

/-- The register as it reads: SEQ, event bits, value fields. -/
def Sqc.read (q : Sqc) : Reg32 :=
  (q.ages.foldl (fun r e => r ||| ((1 : Reg32) <<< e.1)) q.val) ||| (q.seq.zeroExtend 32 <<< 24)

/-- An event bit is set. -/
def Sqc.has (q : Sqc) (b : Nat) : Bool := (Tbl.find q.ages b).isSome

/-! ### Location codes (R17, R18, Table 0.5) -/

/-- A packed code from its fields; 15 and 255 stand for "-". -/
def mkLoc (p d q c u : Nat) : Loc :=
  BitVec.ofNat 32 (p % 16 * 2 ^ 24 + d % 16 * 2 ^ 20 + q % 16 * 2 ^ 16 + c % 16 * 2 ^ 12 + u % 256 * 2 ^ 4)

end Sys2Proof.Machine

namespace Sys2Proof

/-- Package, die, region, cluster and unit fields of a code. -/
def Loc.pkg (l : Loc) : Nat := bits l.toNat 27 24
/-- Die field. -/
def Loc.die (l : Loc) : Nat := bits l.toNat 23 20
/-- Region field. -/
def Loc.quad (l : Loc) : Nat := bits l.toNat 19 16
/-- Cluster field. -/
def Loc.clu (l : Loc) : Nat := bits l.toNat 15 12
/-- Unit field. -/
def Loc.unit (l : Loc) : Nat := bits l.toNat 11 4
/-- System field. -/
def Loc.sys (l : Loc) : Nat := bits l.toNat 31 28
/-- Quadrant index k of a code (Table 0.6). -/
def Loc.k (l : Loc) : Nat := 4 * l.die + l.quad

/-- Level of a code: 0 system, 1 package, 2 die, 3 region, 4 cluster, 5 unit. -/
def Loc.level (l : Loc) : Nat :=
  if l.unit ≠ 255 then 5 else if l.clu ≠ 15 then 4 else if l.quad ≠ 15 then 3
  else if l.die ≠ 15 then 2 else if l.pkg ≠ 15 then 1 else 0

/-- The outer code covers the inner one: each field equal, or "-" and everything below it "-". -/
def Loc.covers (o i : Loc) : Bool :=
  let ok := fun (a b w : Nat) => a == w || a == b
  ok o.pkg i.pkg 15 && ok o.die i.die 15 && ok o.quad i.quad 15 && ok o.clu i.clu 15 && ok o.unit i.unit 255

/-- Number of "-" fields of a code. -/
def Loc.dashes (l : Loc) : Nat :=
  b2n (l.pkg == 15) + b2n (l.die == 15) + b2n (l.quad == 15) + b2n (l.clu == 15) + b2n (l.unit == 255)

/-- A code with its reserved bits 3 to 0 discarded (R13, Table 0.5). -/
def Loc.clean (l : Loc) : Loc := l &&& 0xFFFFFFF0

/-- Lane number a C0 to C3 unit code names. -/
def Loc.lane (l : Loc) : Nat := 32 * l.k + 8 * l.clu + l.unit

end Sys2Proof

namespace Sys2Proof.Machine

/-- This module's package field; 0xF before an index is held. -/
def State.pk (s : State) : Nat := s.glob.midx

/-- Code of a die. -/
def State.dieLoc (s : State) (d : Nat) : Loc := mkLoc s.pk d 15 15 255
/-- Code of a quadrant by k. -/
def State.quadLoc (s : State) (k : Nat) : Loc := mkLoc s.pk (k / 4) (k % 4) 15 255
/-- Code of a cluster of quadrant k. -/
def State.cluLoc (s : State) (k c : Nat) : Loc := mkLoc s.pk (k / 4) (k % 4) c 255
/-- Code of a unit of quadrant k. -/
def State.unitLoc (s : State) (k c u : Nat) : Loc := mkLoc s.pk (k / 4) (k % 4) c u
/-- Code of a CXL lane (Table 0.6). -/
def State.laneLoc (s : State) (n : Nat) : Loc := s.unitLoc (n / 32) (n % 32 / 8) (n % 8)
/-- A port is located by its lowest lane (R553). -/
def State.portLoc (s : State) (p : Nat) : Loc := s.laneLoc (4 * p)
/-- Code of a keeper slice. -/
def State.ksLoc (s : State) (ks : Nat) : Loc := s.unitLoc (ks / 4) 4 (ks % 4)
/-- Code of a DMA channel. -/
def State.chLoc (s : State) (c : Nat) : Loc := s.unitLoc (c / 8) 5 (c % 8)
/-- Code of the trunk cluster of a trunk port. -/
def State.tpLoc (s : State) (t : Nat) : Loc := s.cluLoc t 6
/-- Code of the supervisor die. -/
def State.supLoc (s : State) : Loc := s.dieLoc 6
/-- Code of an arbiter (R20). -/
def State.arbLoc (s : State) (p : Nat) : Loc := s.unitLoc (p / 8) 7 (p % 8)

/-! ### Ports and the port map (chapter 4) -/

/-- Group of a port (R178). -/
def grpOf (p : Nat) : Nat := p / 4

/-- Entry of a group in a port map; an unlisted group is UNUSED. -/
def mapEntry (m : Tbl Reg32) (g : Nat) : Nat := (Tbl.get (0 : Reg32) m g).toNat

/-- ROLE of a map entry: 0 UNUSED, 1 UP, 2 DOWN (Table 4.2). -/
def roleOf (e : Nat) : Nat := bits e 31 30
/-- Subgroup code `i` of a map entry (Table 4.1). -/
def subOf (e i : Nat) : Nat := e / 2 ^ (3 * i) % 8

/-- Configured width of a port under a map, 0 when no port starts there (Table 4.1). -/
def cfgWidth (m : Tbl Reg32) (p : Nat) : Nat :=
  match subOf (mapEntry m (grpOf p)) (p % 4) with
  | 1 => 2 | 2 => 4 | 3 => 8 | 4 => 16 | _ => 0

/-- The port is configured. -/
def State.isPort (s : State) (p : Nat) : Bool := p < 64 && cfgWidth s.ports.map p ≠ 0
/-- The port is configured upstream. -/
def State.isUp (s : State) (p : Nat) : Bool := s.isPort p && roleOf (mapEntry s.ports.map (grpOf p)) == 1
/-- The port is configured downstream. -/
def State.isDown (s : State) (p : Nat) : Bool := s.isPort p && roleOf (mapEntry s.ports.map (grpOf p)) == 2
/-- The PRIMARY port of a map (Table 4.2). -/
def primaryOf (m : Tbl Reg32) : Option Nat :=
  (List.range 16).findSome? (fun g =>
    let e := mapEntry m g
    if roleOf e = 1 ∧ bit e 26 then some (4 * g + bits e 25 24) else none)
/-- The PRIMARY port of the manager; on a worker, which an SV8650-WA always is, PRIMARY has no effect (R185, R306). -/
def State.primary (s : State) : Option Nat :=
  if s.glob.hrole = 2 ∨ s.glob.hrole = 3 ∨ ¬ s.glob.isMA then none else primaryOf s.ports.map
/-- IDE_REQ of the port's group. -/
def State.ideReq (s : State) (p : Nat) : Bool := bit (mapEntry s.ports.map (grpOf p)) 21

/-- A port's record. -/
def State.port (s : State) (p : Nat) : Port := Tbl.get ({} : Port) s.ports.port p
/-- A port's record changed. -/
def State.modPort (s : State) (p : Nat) (f : Port → Port) : State :=
  { s with ports := { s.ports with port := Tbl.set {} s.ports.port p (f (s.port p)) } }
/-- A group's record. -/
def State.group (s : State) (g : Nat) : Group := Tbl.get ({} : Group) s.ports.group g
/-- A group's record changed. -/
def State.modGroup (s : State) (g : Nat) (f : Group → Group) : State :=
  { s with ports := { s.ports with group := Tbl.set {} s.ports.group g (f (s.group g)) } }
/-- The link of a port is up: L0, L0p or L1. -/
def Port.up (p : Port) : Bool := p.lanes == .l0 || p.lanes == .l0p || p.lanes == .l1
/-- W of a port in 1/256 byte per clock: lanes x rate / 12.8 (R399). -/
def Port.w (p : Port) : Nat :=
  let r10 := match p.rate with | 1 => 25 | 2 => 50 | 3 => 80 | 4 => 160 | 5 => 320 | 6 => 640 | _ => 0
  p.width * r10 * 2

/-! ### Small state parts -/

/-- Channel record. -/
def State.chan (s : State) (c : Nat) : Chan := Tbl.get ({} : Chan) s.dma.ch c
/-- Channel record changed. -/
def State.modCh (s : State) (c : Nat) (f : Chan → Chan) : State :=
  { s with dma := { s.dma with ch := Tbl.set {} s.dma.ch c (f (s.chan c)) } }
/-- Submission ring record. -/
def State.ring (s : State) (n : Nat) : Ring := Tbl.get ({} : Ring) s.dma.ring n
/-- Submission ring record changed. -/
def State.modRing (s : State) (n : Nat) (f : Ring → Ring) : State :=
  { s with dma := { s.dma with ring := Tbl.set {} s.dma.ring n (f (s.ring n)) } }
/-- Completion ring record. -/
def State.cring (s : State) (n : Nat) : CRing := Tbl.get ({} : CRing) s.dma.cring n
/-- Completion ring record changed. -/
def State.modCring (s : State) (n : Nat) (f : CRing → CRing) : State :=
  { s with dma := { s.dma with cring := Tbl.set {} s.dma.cring n (f (s.cring n)) } }
/-- Alias window record. -/
def State.win (s : State) (w : Nat) : Window16 := Tbl.get ({} : Window16) s.dma.win w
/-- Alias window record changed. -/
def State.modWin (s : State) (w : Nat) (f : Window16 → Window16) : State :=
  { s with dma := { s.dma with win := Tbl.set {} s.dma.win w (f (s.win w)) } }
/-- Arbiter record of a downstream port. -/
def State.arbOf (s : State) (p : Nat) : Arb := Tbl.get ({} : Arb) s.arb p
/-- Arbiter record changed. -/
def State.modArb (s : State) (p : Nat) (f : Arb → Arb) : State :=
  { s with arb := Tbl.set {} s.arb p (f (s.arbOf p)) }
/-- Gated point record. -/
def State.gate (s : State) (p : Nat) : Gate := Tbl.get ({} : Gate) s.shape.gate p
/-- Gated point record changed. -/
def State.modGate (s : State) (p : Nat) (f : Gate → Gate) : State :=
  { s with shape := { s.shape with gate := Tbl.set {} s.shape.gate p (f (s.gate p)) } }
/-- Extent entry of this module's pool. -/
def State.ext (s : State) (e : Nat) : Ext := Tbl.get ({} : Ext) s.pool.ext e
/-- Extent entry changed. -/
def State.modExt (s : State) (e : Nat) (f : Ext → Ext) : State :=
  { s with pool := { s.pool with ext := Tbl.set {} s.pool.ext e (f (s.ext e)) } }
/-- A slice, if its number is in use. -/
def State.slice (s : State) (n : Nat) : Option Slice := Tbl.find s.slices n
/-- A slice in use changed. -/
def State.modSlice (s : State) (n : Nat) (f : Slice → Slice) : State :=
  match s.slice n with
  | none => s
  | some x => { s with slices := Tbl.put s.slices n (f x) }
/-- Partner of a port. -/
def State.partner (s : State) (p : Nat) : Option Partner := Tbl.find s.pool.partner p
/-- Partner of a port changed. -/
def State.modPartner (s : State) (p : Nat) (f : Partner → Partner) : State :=
  match s.partner p with
  | none => s
  | some x => { s with pool := { s.pool with partner := Tbl.put s.pool.partner p (f x) } }
/-- The port at which a host index is held. -/
def State.hostPort (s : State) (h : Nat) : Option Nat :=
  (s.pool.partner.find? (fun e => (e.2.kind == 1 || e.2.kind == 2) && e.2.index == h)).map (·.1)
/-- The host index held at a port. -/
def State.hostAt (s : State) (p : Nat) : Option Nat :=
  match s.partner p with
  | some x => if (x.kind = 1 ∨ x.kind = 2) ∧ x.timerEnd = none then some x.index else none
  | none => none
/-- Voted value of GLOBAL_LOCK bit `g` (Table 11.4). -/
def State.locked (s : State) (g : Nat) : Bool := bit s.glob.lock.maj.toNat g
/-- The module decodes pool and binds hosts: it is an SV8650-MA, or an SV8650-WA whose hierarchy has a manager (R5). -/
def State.decodes (s : State) : Bool := s.glob.isMA || s.glob.hrole != 0
/-- AON ticks of 40 ns now. -/
def State.now (s : State) : Nat := s.glob.ticks
/-- Ticks of 40 ns in a number of microseconds. -/
def usTicks (n : Nat) : Nat := 25 * n
/-- Ticks of 40 ns in a number of milliseconds. -/
def msTicks (n : Nat) : Nat := 25000 * n

/-! ### Addresses (R63, R64, R231) -/

/-- Home module index FPA[51:48]. -/
def homeOf (fpa : Nat) : Nat := bits fpa 51 48
/-- Module extent index FPA[43:28]. -/
def extOf (fpa : Nat) : Nat := bits fpa 43 28
/-- Line number. -/
def lineOf (fpa : Nat) : Nat := fpa / 64
/-- Sector number of a line number. -/
def sectorOf (line : Nat) : Nat := line / 4
/-- The line is homed on this module. -/
def State.homed (s : State) (fpa : Nat) : Bool := homeOf fpa == s.glob.midx

/-- Home keeper slice of an address: the folded exclusive or of R64. -/
def sliceHash (fpa : Nat) : Nat :=
  bits fpa 12 8 ^^^ bits fpa 17 13 ^^^ bits fpa 22 18 ^^^ bits fpa 27 23 ^^^ bits fpa 32 28
    ^^^ bits fpa 37 33 ^^^ bits fpa 42 38 ^^^ bits fpa 47 43 ^^^ bits fpa 51 48
/-- Directory set of an address (R64). -/
def setOf (fpa : Nat) : Nat := bits fpa 51 13 % 28672
/-- Directory tag of an address (R64). -/
def tagOf (fpa : Nat) : Nat := bits fpa 51 13 / 28672

/-! ### Cells in the crossbar, and what the module sends -/

/-- Crossbar point an agent's messages enter at (Table 3.1). -/
def State.pointOf (s : State) (a : Agent) : Nat :=
  match a with
  | .host h => (s.hostPort h).getD 0x7F
  | .dev d => ((s.pool.partner.find? (fun e => e.2.kind == 4 && e.2.index == d)).map (fun e => e.1)).getD 0x7F
  | .mod m => ((s.trunkTo m).map (fun t => 0x68 + t)).getD 0x7F
  | .dma c => 0x60 + c / 8
  | .io p => p
  | .post sl => ((s.slice sl).bind (fun x => s.hostPort x.host)).getD 0x7F
  | .fw => 0x74

/-- The data of a line comes straight from the downstream port where its expander is being read (R48). -/
def State.fromMem (s : State) (fpa : Nat) : Bool :=
  s.homed fpa && s.keeper.txns.any (fun t => t.line == lineOf fpa && (t.stage == .memRd || t.early.isSome))

/-- Number of a flow: SRC, DST and CLASS (R145). -/
def flowNo (src dst cls : Nat) : Nat := (src * 128 + dst) * 6 + cls
/-- Flow of a cell. -/
def Cell.flow (c : Cell) : Nat := flowNo c.src c.dst c.cls

/-- TAG of a coherence message: its keeper slice and the index of the line's transaction among those the slice has open (Table 3.2). -/
def State.cellTag (s : State) (addr : Nat) : Nat :=
  let ks := sliceHash addr
  ks * 2048 + ((s.keeper.txns.filter (fun t => sliceHash (t.line * 64) == ks)).findIdx? (fun t => t.line == lineOf addr)).getD 0 % 2048

/-- A cell enters the virtual output queue of its class, numbered in its flow (R134, R135, R145). -/
def State.putCell (s : State) (c : Cell) : State :=
  let n := Tbl.get 0 s.xbar.nextSeq c.flow
  let tag := if c.cls < 4 then s.cellTag c.addr else c.tag
  { s with xbar := { s.xbar with
    nextSeq := Tbl.set 0 s.xbar.nextSeq c.flow ((n + 1) % 4096)
    voq := s.xbar.voq ++ [{ c with seq := n, tag := tag, since := s.now }] } }

/-- Quadrants a die holds or serves (Table 1.1). -/
def dieQuads (d : Nat) : List Nat :=
  match d with
  | 0 => [0, 1, 2, 3] | 1 => [4, 5, 6, 7] | 2 => [0, 1] | 3 => [2, 3] | 4 => [4, 5] | 5 => [6, 7] | _ => []

/-- Quadrants inside an element (R36). -/
def locQuads (l : Loc) : List Nat :=
  if l.die = 15 then List.range 8 else if l.quad = 15 then dieQuads l.die else [l.k]

/-- A quadrant is in service: not gated, no die that holds or serves it stopped, and no reset of a region or more
under way in it (R36, R136). -/
def State.quadServes (s : State) (k : Nat) : Bool :=
  ! s.svc.gatedQuads.contains k && ! s.svc.stoppedDies.any (fun d => (dieQuads d).contains k)
  && ! s.svc.resets.any (fun r => decide (r.loc.level ≤ 3) && (locQuads r.loc).contains k)

/-- The die-level points of a switch die are in service: Q0 or Q1 of it serves (R136). -/
def State.diePoints (s : State) (d : Nat) : Bool := s.quadServes (4 * d) || s.quadServes (4 * d + 1)

/-- The management endpoint that serves a switch die: its own, or without its points that of the other die (R136). -/
def State.mgtPoint (s : State) (d : Nat) : Nat := if s.diePoints d then 0x74 + d else 0x74 + (1 - d)

/-- Something sent to the outside world is recorded. What goes over a trunk also enters the egress queue of its trunk port
(R286); a message of the firmware reaches it as an MGT cell from the management endpoint (Table 3.1). -/
def State.emit (s : State) (o : Out) : State :=
  let s1 : State := { s with out := s.out ++ [o] }
  match s.trunkMsg o with
  | none => s1
  | some x =>
    if x.2.cls = 5 then s1.putCell { cls := 5, opc := x.2.op, src := s.mgtPoint (x.1 / 4), dst := 0x68 + x.1, addr := 0, len := 63, load := .tx x.1 x.2 }
    else s1.modTp x.1 (fun p => { p with queue := p.queue ++ [x.2] })

/-- Several things sent, in order. -/
def State.emits (s : State) (os : List Out) : State := os.foldl (fun s o => s.emit o) s

/-! ### Counters and samplers (chapter 11) -/

/-- A counter advanced; a wrap keeps the remainder and sets OVF (R527). -/
def Cnt.add (c : Cnt) (n : Nat) : Cnt :=
  { count := c.count + BitVec.ofNat 48 n, ovf := c.ovf || decide (2 ^ 48 ≤ c.count.toNat + n) }

/-- A counter register as it reads (Table 11.8). -/
def Cnt.read (c : Cnt) : Nat := b2n c.ovf * 2 ^ 63 + c.count.toNat

/-- A selector at reset: UNIT 0xFF, everything else 0 (Table 11.8). -/
def selReset : Reg32 := 0x00FF0000

/-- Selector of a programmable counter. -/
def State.sel (s : State) (key : Nat) : Nat := (Tbl.get selReset s.perf.sel key).toNat

/-- The counter's event counts transactions at one point, so that PERF_SNAP can show one (R531): events of
a port or a keeper slice that is named, other than sums over clocks, bytes, times and link replays. -/
def State.snaps (s : State) (key : Nat) : Bool :=
  let v := s.sel key
  let ev := bits v 7 0
  decide (ev < 0x50) && ! [0x03, 0x04, 0x07, 0x08, 0x0B, 0x12, 0x13].contains ev && (decide (key < 512) || bits v 23 16 != 0xFF)

/-- The overflow message: PERF_SNAP captured, and the vector on the PRIMARY port. Which transaction PERF_SNAP
shows is open within 128 of the one that wrapped the counter: a free value (R530, R531, log 1). -/
def State.ovfSend (s : State) (key : Nat) : State :=
  let snap : Reg64 := if s.snaps key then BitVec.ofNat 64 s.freeNat &&& 0xFFFFFFFFFFFFFE7F else 0x7F
  let s1 : State := { s with perf := { s.perf with snap := snap, ovfLast := some s.now, ovfPend := false } }
  let s2 := if s.snaps key then s1.drawn else s1
  match s2.primary with
  | some p => s2.emit (.msix p s2.perf.ovfVec)
  | none => s2

/-- A wrap of a counter with IRQ, while the overflow interrupt is enabled: at most one message in a microsecond (R530). -/
def State.ovfRaise (s : State) (key : Nat) : State :=
  let s1 : State := { s with perf := { s.perf with event := s.perf.event.raise 23 (BitVec.ofNat 32 (key % 1024 * 2 ^ 12)) 0x003FF000 } }
  if s.perf.ovfLast.any (fun t => decide (s.now < t + usTicks 1)) then { s1 with perf := { s1.perf with ovfPend := true } }
  else s1.ovfSend key

/-- A counter advanced, with its overflow interrupt. -/
def State.bump (s : State) (key n : Nat) : State :=
  let c := Tbl.get ({} : Cnt) s.perf.cnt key
  let s1 : State := { s with perf := { s.perf with cnt := Tbl.set {} s.perf.cnt key (c.add n) } }
  if 2 ^ 48 ≤ c.count.toNat + n ∧ bit (s.sel key) 30 ∧ s.perf.ovfEn then s1.ovfRaise key else s1

/-- A selector counts an event of a unit: enabled, its CLASS mask 0 or met, a port counter its own port's
events of scope P, a global counter the unit it names or any (R525, Table 11.8, Table 11.10). -/
def selCounts (key : Nat) (sel : Reg32) (ev unit cls : Nat) : Bool :=
  let v := sel.toNat
  bit v 31 && bits v 7 0 == ev && (bits v 29 24 == 0 || cls == 0 || (bits v 29 24 &&& cls) != 0)
    && (if key < 512 then decide (ev < 0x40) && key / 8 == unit else bits v 23 16 == 0xFF || bits v 23 16 == unit || ev == 0x7F)

/-- Something countable happened `n` times: every counter that selects it advances, unless frozen (R525,
R529). `cls` is the mask of its classes or tiers, 0 where CLASS does not qualify it. -/
def State.count (s : State) (ev unit cls n : Nat) : State :=
  if s.perf.freeze ∨ n = 0 then s
  else s.perf.sel.foldl (fun s e => if selCounts e.1 e.2 ev unit cls then s.bump e.1 n else s) s

/-- A cell enters the crossbar: CELLS_IN and BYTES_IN of a port, and a slot of its link (R522). -/
def State.cellIn (s0 : State) (c : Cell) : State :=
  let s := s0.putCell c
  if c.src < 64 then
    let s1 : State := { s with perf := { s.perf with slotRet := Tbl.set 0 s.perf.slotRet c.src (Tbl.get 0 s.perf.slotRet c.src + 1) } }
    (s1.count 0x01 c.src (2 ^ c.cls) 1).count 0x03 c.src (2 ^ c.cls) (c.len + 1)
  else s

/-- Cells are released toward the link of a port: CELLS_OUT and BYTES_OUT. -/
def State.cellsOut (s : State) (point cls n bytes : Nat) : State :=
  if point < 64 then (s.count 0x02 point (2 ^ cls) n).count 0x04 point (2 ^ cls) bytes else s

/-- A slot of a port's link carried a cell that is discarded or repeated (Table 11.9). -/
def State.slotLost (s : State) (point : Nat) : State :=
  if point < 64 then { s with perf := { s.perf with slotWaste := Tbl.set 0 s.perf.slotWaste point (Tbl.get 0 s.perf.slotWaste point + 1) } } else s

/-- A sampler matches a transaction of a point (R532). -/
def Sampler.hits (x : Sampler) (point cls op fpa sl : Nat) : Bool :=
  x.en && x.point == point && bit x.classes cls && (x.opcode == 0x1F || x.opcode == op)
    && decide (x.lo ≤ fpa) && decide (fpa ≤ x.hi) && (x.slice == 0x1FF || x.slice == sl)

/-- Opcode of a request (Table 2.7). -/
def ReqKind.opc (k : ReqKind) : Nat :=
  match k with | .rds => 0 | .rdx => 1 | .upg => 2 | .wrInvFull => 3 | .wrInvPart => 4 | .atomOp => 5 | .evict => 6

/-- A transaction to be selected at a point (R533). -/
structure Sampled where
  point : Nat
  cls : Nat
  op : Nat
  fpa : Nat
  slice : Option Nat
  src : Nat
  agent : Agent
  key : Nat × Nat
  server : Nat
  queued : Bool := false

/-- A transaction at a point: every sampler that matches it counts it, and selects every Nth (R533). -/
def State.sample (s : State) (y : Sampled) : State :=
  let n := y.slice.getD 0x1FF
  let f := fun (_ : Nat) (x : Sampler) =>
    if x.hits y.point y.cls y.op y.fpa n then
      if x.seen + 1 < 2 ^ x.log2n then { x with seen := x.seen + 1 }
      else { x with seen := 0, sel := x.sel ++ [{ src := y.src, cls := y.cls, op := y.op, slice := n, addr := y.fpa, remote := y.fpa / 2 ^ 48 % 16 != s.glob.midx, time := s.shape.mtime, agent := y.agent, key := y.key, server := y.server, queued := y.queued }] }
    else x
  { s with perf := { s.perf with smp := Tbl.mapv {} f s.perf.smp } }

/-- A request at a point as the samplers see it (R533). -/
def QReq.sampled (q : QReq) (point src : Nat) (sl : Option Nat) : Sampled :=
  { point := point, cls := 0, op := q.kind.opc, fpa := q.r.fpa, slice := sl, src := src, agent := q.r.src, key := (0, lineOf q.r.fpa), server := 0x40 + sliceHash q.r.fpa, queued := q.queued }

/-- The selected transaction of an agent, class and key. -/
def SampSel.isOf (x : SampSel) (a : Agent) (cls : Nat) (key : Nat × Nat) : Bool := x.agent == a && x.cls == cls && x.key == key

/-- Something a record shows happens to a selected transaction (Table 11.11). -/
def State.smpNote (s : State) (a : Agent) (cls : Nat) (key : Nat × Nat) (f : SampSel → SampSel) : State :=
  let note := fun (_ : Nat) (x : Sampler) => match x.sel.findIdx? (fun y => y.isOf a cls key) with
    | some i => { x with sel := x.sel.modify i f }
    | none => x
  { s with perf := { s.perf with smp := Tbl.mapv {} note s.perf.smp } }

/-- A transaction ends: of the selected ones that match, the oldest of each sampler waits for its record (R533, R534). -/
def State.smpEnd (s : State) (a : Agent) (cls : Nat) (key : Nat × Nat) (outcome : Nat) : State :=
  let close := fun (_ : Nat) (x : Sampler) => match x.sel.find? (fun y => y.isOf a cls key) with
    | some y => { x with sel := x.sel.erase y, ended := x.ended ++ [{ y with outcome := outcome }] }
    | none => x
  { s with perf := { s.perf with smp := Tbl.mapv {} close s.perf.smp } }

/-- The transaction open for a line ends with an outcome. -/
def State.txnEnd (s : State) (line outcome : Nat) : State :=
  match s.keeper.txns.find? (fun t => t.line == line) with
  | some t => s.smpEnd t.q.r.src 0 (0, line) outcome
  | none => s

/-- The transaction open for a line is noted by the samplers. -/
def State.txnNote (s : State) (line : Nat) (f : SampSel → SampSel) : State :=
  match s.keeper.txns.find? (fun t => t.line == line) with
  | some t => s.smpNote t.q.r.src 0 (0, line) f
  | none => s

/-- Cells of a request (R129, R130): a byte mask takes 8 bytes, a record 16, and a partial write a second cell for its data; the
write of a DMA burst is header-only. -/
def reqCells (src : Nat) (q : QReq) : List Cell :=
  let dst := 0x40 + sliceHash q.r.fpa
  let c : Cell := { cls := 0, opc := q.kind.opc, src := src, dst := dst, addr := q.r.fpa, nt := q.r.nt, poison := q.psn, load := .req q }
  match q.kind with
  | .wrInvFull => [{ c with len := if q.bulk then 0 else 63 }]
  | .wrInvPart => if ¬ q.bulk then [{ c with len := 7, last := false, load := .head }, { c with len := 63, first := false }] else [{ c with len := 7 }]
  | .atomOp => [{ c with len := 15 }]
  | _ => [c]

/-! ### Submission rings (R348) -/

/-- Descriptors or entries of a ring. -/
def Ring.size (r : Ring) : Nat := 2 ^ r.log2

/-- Posted descriptors not yet fetched (R348). -/
def Ring.posted (r : Ring) : Nat :=
  let n := (r.tail + r.size - r.fetch) % r.size
  if n = 0 ∧ r.lap then r.size else n

/-- The index after `i` in a ring. -/
def Ring.succ (r : Ring) (i : Nat) : Nat := (i + 1) % r.size

/-- A CXL.mem request of a port has been admitted or issued: MEM_REQ, and its time for MEM_LAT_NS. -/
def State.latOpen (s : State) (port fpa : Nat) : State :=
  ({ s with perf := { s.perf with lat := s.perf.lat ++ [(port, lineOf fpa, s.now)] } } : State).count 0x05 port 0 1

/-- A request of MEM_REQ has ended without a completion. -/
def State.latDrop (s : State) (port fpa : Nat) : State :=
  match s.perf.lat.find? (fun x => x.1 == port && x.2.1 == lineOf fpa) with
  | some x => { s with perf := { s.perf with lat := s.perf.lat.erase x } }
  | none => s

/-- A request of MEM_REQ is complete: MEM_CPL, and MEM_LAT_NS by the AON ticks of 40 ns since its admission. -/
def State.latDone (s : State) (port fpa : Nat) : State :=
  let n := match s.perf.lat.find? (fun x => x.1 == port && x.2.1 == lineOf fpa) with
    | some x => 40 * (s.now - x.2.2)
    | none => 0
  ((s.latDrop port fpa).count 0x06 port 0 1).count 0x07 port 0 n

/-- An access of the keeper slice of a line leaves for the port of an expander, as a REQ cell to its arbiter (Table 3.8). -/
def State.memAcc (s : State) (x : Access) : State :=
  (if x.kind = .txn then s.txnNote (lineOf x.fpa) (fun y => { y with server := x.port }) else s).cellIn { cls := 0, opc := b2n x.write, src := 0x40 + sliceHash x.fpa, dst := x.port, addr := x.fpa, len := if x.write then 63 else 0, poison := x.psn, load := .acc x }

/-- A read of a line of this module's pool at the expander that backs it. -/
def State.memRd (s : State) (fpa : Nat) : State :=
  let x := s.ext (extOf fpa)
  s.memAcc { fpa := fpa, port := x.port, dpa := x.dpa, off := fpa % 2 ^ 28, write := false, en := 0, data := 0, psn := false, kind := .txn }

/-- A write of a line with byte enables and poison, as an access of its expander. -/
def State.wrAcc (s : State) (fpa : Nat) (en : BitVec 64) (d : Line) (poison : Bool) (k : AccKind) : Access :=
  let x := s.ext (extOf fpa)
  { fpa := fpa, port := x.port, dpa := x.dpa, off := fpa % 2 ^ 28, write := true, en := en, data := d, psn := poison, kind := k }

/-- What an evacuation does beside a memory write: while the extent is in the write stall the write also goes to its new
backing (Table 5.11 step 4), and while it is logged its page is marked (Table 5.11 step 1). -/
def State.evacWr (s : State) (x : Access) : State :=
  let e := extOf x.fpa
  match s.pool.evac with
  | none => s
  | some v =>
    if v.e = e then
      let s2 := { s with pool := { s.pool with dirty := addOnce (e * 65536 + x.off / 4096) s.pool.dirty } }
      if v.step ≥ 4 then s2.memAcc { x with port := (s.ext v.f).port, dpa := (s.ext v.f).dpa, kind := .copy } else s2
    else s

/-- A write of a line at the expander that backs it. -/
def State.memWr (s : State) (fpa : Nat) (en : BitVec 64) (d : Line) (poison : Bool) (k : AccKind) : State :=
  let x := s.wrAcc fpa en d poison k
  (s.memAcc x).evacWr x

/-- All 64 byte enables. -/
def allBytes : BitVec 64 := 0xFFFFFFFFFFFFFFFF

/-- Bytes of `b` where the mask is set, of `a` elsewhere. -/
def mergeLine (a b : Line) (mask : BitVec 64) : Line :=
  (List.range 64).foldl (fun r i =>
    if mask.getLsbD i then
      let sh := 8 * i
      (r &&& ~~~((0xFF : Line) <<< sh)) ||| (b &&& ((0xFF : Line) <<< sh))
    else r) a

/-! ### Slices, journal, operations -/

/-- A slice counter advanced (Table 9.6). -/
def State.sliceCnt (s : State) (sl : Option Nat) (i n : Nat) : State :=
  match sl with
  | none => s
  | some x => s.modSlice x (fun y => { y with cnt := Tbl.set {} y.cnt i ((Tbl.get {} y.cnt i).add n) })

/-- A journal record written (R497): the log is circular. -/
def State.journal (s : State) (r : JRec) : State :=
  let j := s.mbx.journal ++ [{ r with time := s.now }]
  if j.length ≤ 262144 then { s with mbx := { s.mbx with journal := j } }
  else { s with mbx := { s.mbx with journal := j.drop 1, journalBase := s.mbx.journalBase + 1 } }

/-- A bit of the mailbox event summary set, with its notification (R491, R492). -/
def State.summary (s : State) (b : Nat) (groups : Nat) : State :=
  let q := s.mbx.summary.raise b 0 0
  let q := { q with val := q.val ||| BitVec.ofNat 32 (groups * 2 ^ 16) }
  let s1 := { s with mbx := { s.mbx with summary := q } }
  if s.mbx.notify then
    let s2 := match s.primary with | some p => s1.emit (.msix p s.mbx.vec) | none => s1
    if s.mbx.alertEn ∧ ¬ s.mbx.alert then
      { s2 with mbx := { s2.mbx with alert := true } }.emit (.pin .alertN false)
    else s2
  else s1

/-- A background operation ended (Table 10.13): its result stays readable, OP_END is journalled and
OP_ENDED is notified. -/
def State.endOp (s : State) (grp status : Nat) (result : Option Nat) : State :=
  match Tbl.find s.mbx.ops grp with
  | none => s
  | some o =>
    if o.running then
      let o' := { o with running := false, status := status, endAt := s.now, result := result.getD o.result }
      let s1 := { s with mbx := { s.mbx with ops := Tbl.put s.mbx.ops grp o' } }
      (s1.journal { type := 4, status := status, code := o.opcode, opid := o.opid, position := o.pos, arg := o'.result, time := 0 }).summary 1 (2 ^ grp)
    else s

/-- POSITION of a running operation set (R494: it never decreases). -/
def State.posOp (s : State) (grp pos : Nat) : State :=
  match Tbl.find s.mbx.ops grp with
  | none => s
  | some o => if o.running then { s with mbx := { s.mbx with ops := Tbl.put s.mbx.ops grp { o with pos := max o.pos pos } } } else s

/-- The running operation of a group. -/
def State.opRunning (s : State) (grp : Nat) : Bool :=
  match Tbl.find s.mbx.ops grp with | none => false | some o => o.running

/-- A background operation started: OPID taken, OP_START journalled (R493, R497). -/
def State.startOp (s : State) (grp opcode total : Nat) : State × Nat :=
  let id := s.mbx.nextOp
  let o : BgOp := { opid := id, opcode := opcode, running := true, status := 0xFF, pos := 0, total := total, result := 0, startAt := s.now, endAt := 0 }
  let s1 := { s with mbx := { s.mbx with ops := Tbl.put s.mbx.ops grp o, nextOp := id + 1 } }
  (s1.journal { type := 1, status := 0, code := opcode, opid := id, position := 0, arg := 0, time := 0 }, id)

/-- A partner event raised (R227 to R229): logged, or counted when the log is full. Before an arrival it names the class and serial
number that the link partner reported (log 99). -/
def State.pevent (s : State) (code port detail : Nat) (ext : Option (Nat × Nat)) : State :=
  let (k, i, sn) : Nat × Nat × Nat := match s.partner port with
    | some x => (x.kind, x.index, x.serial.getD 0)
    | none => ((s.port port).cls, 0xFF, ((s.port port).pid.bind (fun i => i.serial)).getD 0)
  let r : PRec :=
    { ident := sn, time := s.now
      loc := if port = 0xFF then 0 else if 64 ≤ port then s.unitLoc (port - 64) 6 0 else s.portLoc port
      ext := (ext.map (·.1)).getD 0, next := (ext.map (fun e => e.2 - 1)).getD 0
      detail := detail, kind := k, extV := ext.isSome, index := if k = 1 ∨ k = 2 ∨ k = 4 then i else 0xFF
      port := port, seq := s.pool.evSeq, code := code }
  let p := { s.pool with evSeq := (s.pool.evSeq + 1) % 256 }
  let p := if s.pool.events.length < 1024 then { p with events := p.events ++ [r] }
    else match p.evLost with
      | none => { p with evLost := some (1, r.seq, r.time) }
      | some (n, q, t) => { p with evLost := some (n + 1, q, t) }
  ({ s with pool := p } : State).woken.summary 0 0

/-- Bit mask of a list of numbers. -/
def maskOf (l : List Nat) : Nat := l.foldl (fun m i => if bit m i then m else m + 2 ^ i) 0

/-- Runs of consecutive numbers of an ascending list: first and length. -/
def runsOf (l : List Nat) : List (Nat × Nat) :=
  l.foldl (fun r e => match r.getLast? with
    | some (a, n) => if a + n = e then r.dropLast ++ [(a, n + 1)] else r ++ [(e, 1)]
    | none => [(e, 1)]) []

/-- BIND_ROOT.GEN advanced: firmware has committed a change of binding or extent tables (R510). -/
def State.bindGen (s : State) : State :=
  let v := s.glob.bindRoot.maj
  { s with glob := { s.glob with bindRoot := Tri.all ((v &&& ~~~(0xFF : Reg64)) ||| ((v + 1) &&& 0xFF)) } }

/-- SQC update shorthands for the registers other files raise. -/
def State.dmaEvent (s : State) (b ring ch : Nat) : State :=
  { s with dma := { s.dma with event := s.dma.event.raise b (BitVec.ofNat 32 (ring % 256 * 2 ^ 16 + ch % 64 * 2 ^ 6)) 0x00FF0FC0 } }
/-- GATE_EVENT raised, with its POINT. -/
def State.gateEvent (s : State) (b point : Nat) : State :=
  { s with shape := { s.shape with event := s.shape.event.raise b (BitVec.ofNat 32 (point % 128 * 2 ^ 17)) 0x00FE0000 } }
/-- GLOBAL_EVENT raised. -/
def State.globEvent (s : State) (b : Nat) : State :=
  { s with glob := { s.glob with event := s.glob.event.raise b 0 0 } }
/-- SILL_EVENT raised. -/
def State.sillEvent (s : State) (b : Nat) : State :=
  { s with sill := { s.sill with event := s.sill.event.raise b 0 0 } }
/-- WARD_EVENT raised, with REGION and MISS where the event is a denial. -/
def State.wardEvent (s : State) (b : Nat) (v mask : Reg32) : State :=
  { s with ward := { s.ward with event := s.ward.event.raise b v mask } }
/-- TRUNK_EVENT raised. -/
def State.trunkEvent (s : State) (t b cause : Nat) (load : Bool) : State :=
  s.modTp t (fun x => { x with event := x.event.raise b (BitVec.ofNat 32 (cause % 16 * 2 ^ 20)) (if load then 0x00F00000 else 0) })
/-- ARB_EVENT raised, with LAST_REQ. -/
def State.arbEvent (s : State) (p b req : Nat) : State :=
  s.modArb p (fun x => { x with event := x.event.raise b (BitVec.ofNat 32 (req % 64 * 2 ^ 18)) 0x00FC0000 })

end Sys2Proof.Machine
end

