-- ==== Sys2Proof/Machine/Operands.lean ====
section
/-! DEFINITION. The operand forms: translation of host offsets and slice addresses, attribution to slices, descriptor fields. -/
namespace Sys2Proof.Machine

/-- A binding entry admits accesses: valid, its release asked but not begun, or its stored removal not yet applied (R239, R240). -/
def Ent.admits (e : Ent) : Bool := e.state == .valid || e.state == .releasePending || e.state == .storedRelease

/-- The binding entries of a host, by entry number. -/
def State.entsOf (s : State) (h : Nat) : List (Nat × Ent) :=
  (s.pool.ent.filter (fun e => e.1 / 512 == h)).map (fun e => (e.1 % 512, e.2))

/-- The valid entry of a host that covers an offset in 256 MiB units (R236). -/
def State.entryAt (s : State) (h hext : Nat) : Option (Nat × Ent) :=
  (s.entsOf h).find? (fun e => e.2.admits && decide (e.2.hoffExt ≤ hext) && decide (hext ≤ e.2.hoffExt + e.2.nm1))

/-- HOME and module extent of one extent that an entry covers; an alias binding takes the active set
of its window (R236, R367). -/
def State.entExt (s : State) (e : Ent) (hext : Nat) : Nat × Nat :=
  if e.home = 15 then
    let w := s.win (e.fext / 4096)
    let idx := e.fext % 4096 + (hext - e.hoffExt)
    match w.dfn with
    | none => (15, idx)
    | some d => if w.activeB then (d.homeB, d.fextB + idx) else (d.homeA, d.fextA + idx)
  else (e.home, e.fext + (hext - e.hoffExt))

/-- An FPA from its fields (Table 5.4). -/
def mkFpa (home ext off : Nat) : Nat := home * 2 ^ 48 + ext * 2 ^ 28 + off % 2 ^ 28

/-- Translation of a host offset: entry number, entry and FPA (R236, R367). -/
def State.translate (s : State) (h hoff : Nat) : Option (Nat × Ent × Nat) :=
  (s.entryAt h (hoff / 2 ^ 28)).map (fun e =>
    let x := s.entExt e.2 (hoff / 2 ^ 28)
    (e.1, e.2, mkFpa x.1 x.2 hoff))

/-- Translation of a slice address, within the entries the slice reaches (R414). -/
def State.sliceFpa (s : State) (sl addr : Nat) : Option (Ent × Nat) :=
  match s.slice sl with
  | none => none
  | some x => match s.translate x.host addr with
    | none => none
    | some (n, e, fpa) => if x.pasid = 0 ∨ n ∈ x.mask then some (e, fpa) else none

/-- The slice keyed by (host, PASID) (R412). -/
def State.sliceKey (s : State) (h pasid : Nat) : Option Nat :=
  (s.slices.find? (fun e => e.2.host == h && e.2.pasid == pasid)).map (·.1)

/-- The slice a host access is attributed to: the slice whose BINDMASK names the entry hit, otherwise
the host's PASID 0 slice (Table 9.1). -/
def State.hostSlice (s : State) (h entry : Nat) : Option Nat :=
  match s.slices.find? (fun e => e.2.host == h && e.2.pasid != 0 && e.2.mask.contains entry) with
  | some e => some e.1
  | none => s.sliceKey h 0

/-- The posting window a host offset lies in, and the slice that owns it (R115, R418). -/
def State.windowAt (s : State) (h hoff : Nat) : Option Nat :=
  (s.slices.find? (fun e => e.2.host == h && e.2.window == some (hoff / 4096 * 4096))).map (·.1)

/-- An entry put in its place in a list in ascending host offset. -/
def putByOffset (e : Nat × Ent) (l : List (Nat × Ent)) : List (Nat × Ent) :=
  match l with
  | [] => [e]
  | x :: r => if e.2.hoffExt ≤ x.2.hoffExt then e :: x :: r else x :: putByOffset e r

/-- Extents a slice reaches, as HOME and EXT packed, in ascending host offset (R414, R452). -/
def State.sliceExts (s : State) (sl : Nat) : List Nat :=
  match s.slice sl with
  | none => []
  | some x =>
    let es := (s.entsOf x.host).filter (fun e => e.2.admits && (x.pasid == 0 || x.mask.contains e.1))
    let es := es.foldr (fun e l => putByOffset e l) []
    es.flatMap (fun e => (List.range (e.2.nm1 + 1)).map (fun i =>
      let y := s.entExt e.2 (e.2.hoffExt + i)
      y.1 * 2 ^ 20 + y.2))

/-! ### Descriptor fields (Table 7.1) -/

/-- A field of a descriptor. -/
def dfld (d : Line) (hi lo : Nat) : Nat := bits d.toNat hi lo
/-- A signed 32-bit step of a descriptor. -/
def dstep (d : Line) (lo : Nat) : Int := (d.extractLsb' lo 32).toInt
/-- OPCODE. -/
def dOpcode (d : Line) : Nat := dfld d 3 0
/-- Element size in bytes. -/
def dEs (d : Line) : Nat := 2 ^ dfld d 6 4
/-- PACE. -/
def dPace (d : Line) : Bool := bit d.toNat 7
/-- Iterations of the three loops: inner, middle, outer. -/
def dN0 (d : Line) : Nat := dfld d 215 192 + 1
/-- Middle-loop iterations. -/
def dN1 (d : Line) : Nat := dfld d 127 112 + 1
/-- Outer-loop iterations. -/
def dN2 (d : Line) : Nat := dfld d 191 176 + 1
/-- Elements of a descriptor. -/
def dCount (d : Line) : Nat := dN0 d * dN1 d * dN2 d
/-- Source slice address of element `n` in visiting order (R331). -/
def dSrc (d : Line) (n : Nat) : Int :=
  dfld d 111 64 + (n / (dN0 d * dN1 d) : Nat) * dstep d 288 + (n / dN0 d % dN1 d : Nat) * dstep d 256 + (n % dN0 d : Nat) * dstep d 224
/-- Destination slice address of element `n` in visiting order (R331). -/
def dDst (d : Line) (n : Nat) : Int :=
  dfld d 175 128 + (n / (dN0 d * dN1 d) : Nat) * dstep d 384 + (n / dN0 d % dN1 d : Nat) * dstep d 352 + (n % dN0 d : Nat) * dstep d 320

end Sys2Proof.Machine
end

