-- ==== Sys2Proof/Machine/Tumbler.lean ====
section
/-! DEFINITION. The crossbar's Tumbler schedulers: queue memory, egress slots, and the matches of one plane in one cell slot (R134 to R146, R152 to R155). Machine/Arrive.lean delivers the cells. -/
namespace Sys2Proof.Machine

/-! ### Points and their queue memory (R127, R135, R136) -/

/-- Switch die of a crossbar point (Table 3.1). -/
def pointDie (point : Nat) : Nat :=
  if point < 0x40 then point / 32 else if point < 0x60 then (point - 0x40) / 16 else if point < 0x70 then point % 8 / 4 else point % 2

/-- Quadrant whose queue memory a crossbar point uses; the die-level points use Q0 of their die, or Q1 once Q0 has left service (R135, R136). -/
def State.pointQuad (s : State) (point : Nat) : Nat :=
  if point < 0x40 then point / 8 else if point < 0x60 then (point - 0x40) / 4 else if point < 0x70 then point % 8
  else 4 * (point % 2) + b2n (s.xbar.inQ1.contains (point % 2))

/-- Location of a crossbar point (Table 3.1). -/
def State.pointLoc (s : State) (n : Nat) : Loc :=
  if n < 0x40 then s.portLoc n
  else if n < 0x60 then s.ksLoc (n - 0x40)
  else if n < 0x68 then s.cluLoc (n - 0x60) 5
  else if n < 0x70 then s.cluLoc (n - 0x68) 6
  else s.dieLoc (n % 2)

/-- A point can send and take cells: a die-level point only while Q0 or Q1 of its die serves (R136). -/
def State.pointServes (s : State) (point : Nat) : Bool := decide (point < 0x70) || s.diePoints (point % 2)

/-- Distance of a sequence number ahead of another, modulo 4,096. -/
def seqAhead (a b : Nat) : Nat := (a + 4096 - b) % 4096

/-! ### Cell header (Table 3.2) -/

/-- CRC-8 of the bits of a header, the most significant first: polynomial 0x07, initial value 0xFF. -/
def crc8 (w : Nat) (bits : BitVec w) : BitVec 8 :=
  (List.range w).foldl (fun (r : BitVec 8) i => if r.getLsbD 7 != bits.getLsbD (w - 1 - i) then (r <<< 1) ^^^ 0x07 else r <<< 1) 0xFF

/-- Header bits [127:8] of a cell. -/
def Cell.fields (c : Cell) : BitVec 120 :=
  BitVec.ofNat 120 (c.cls * 2 ^ 117 + c.opc % 32 * 2 ^ 112 + c.src * 2 ^ 105 + c.dst * 2 ^ 98 + c.seq * 2 ^ 86 + c.tag % 65536 * 2 ^ 70 + c.addr % 2 ^ 52 * 2 ^ 18
    + c.len * 2 ^ 12 + b2n c.poison * 2 ^ 11 + b2n c.nt * 2 ^ 10 + b2n c.nd * 2 ^ 9 + b2n c.k * 2 ^ 8 + b2n c.first * 2 ^ 7 + b2n c.last * 2 ^ 6 + b2n c.dp * 2 ^ 5)

/-- The 16-byte header of a cell, with its HCRC; one that fails its check somewhere carries another. -/
def Cell.header (c : Cell) : BitVec 128 := c.fields ++ (if c.bad.isNone then crc8 120 c.fields else ~~~ (crc8 120 c.fields))

/-! ### Egress slots (R137 to R139) -/

/-- Egress slots a point reserves for a class (Table 3.4). -/
def reserved (point cls : Nat) : Nat :=
  match cls with
  | 4 => if (0x40 ≤ point ∧ point < 0x60) ∨ 0x72 ≤ point then 0 else 512
  | 5 => 16
  | _ => 64

/-- BLK cells in the egress slots of a point. -/
def State.bulkAt (s : State) (point : Nat) : Nat := (s.xbar.bulk.filter (fun c => c.dst == point)).length

/-- Egress slots of a class in use at a point: cells on their way, held, or waiting to leave it in order (R138, R147). -/
def State.slotsTaken (s : State) (point cls : Nat) : Nat :=
  let mine := fun (c : Cell) => c.dst == point && c.cls == cls
  (s.xbar.flying.filter (fun x => mine x.2.2)).length + (s.xbar.held.filter mine).length + (if cls = 4 then s.bulkAt point else 0)

/-- Points that share the egress slots of a quadrant. -/
def State.quadPoints (s : State) (k : Nat) : List Nat := (List.range 118).filter (fun p => s.pointQuad p == k)

/-- Slots of a quadrant's shared pool that are free: 12,288 less those reserved and those that latency classes use beyond their own (R137). -/
def State.sharedFree (s : State) (k : Nat) : Nat :=
  let sum := fun (f : Nat → Nat) => ((s.quadPoints k).map f).foldl (· + ·) 0
  12288 - sum (fun p => 272 + reserved p 4) - sum (fun p => ([0, 1, 2, 3].map (fun c => s.slotsTaken p c - 64)).foldl (· + ·) 0)

/-- RSP and DAT cells that wait for a slot of a quadrant's shared pool, which takes them before SNP and REQ (R139). -/
def State.sinkers (s : State) (k : Nat) : Nat :=
  (s.xbar.voq.filter (fun c => (c.cls == 2 || c.cls == 3) && s.pointQuad c.dst == k && decide (64 ≤ s.slotsTaken c.dst c.cls))).length

/-! ### Spill at an egress point (R152 to R157) -/

/-- BLK occupancy above HIGH percent of the 512 reserved slots (R152). -/
def State.overHigh (s : State) (point : Nat) : Bool := decide (bits s.xbar.spillCtl.toNat 23 16 * 512 < 100 * s.bulkAt point)
/-- An occupancy below LOW percent (R153). -/
def State.underLow (s : State) (occ : Nat) : Bool := decide (100 * occ < bits s.xbar.spillCtl.toNat 15 8 * 512)

/-- First extent of the carve-out. -/
def State.carveExt (s : State) : Nat := bits s.xbar.spillCtl.toNat 63 48
/-- Port of the carve-out's expander. -/
def State.carvePort (s : State) : Nat := (s.ext s.carveExt).port

/-- A point may spill: enabled, a port, a DMA cluster or a trunk port, and not the downstream port that holds the carve-out (R155). -/
def State.spills (s : State) (point : Nat) : Bool :=
  s.xbar.spillCtl.getLsbD 0 && reserved point 4 != 0 && decide (point < 0x70) && s.carvePort != point

/-- A spill queue holds cells. -/
def State.spilled (s : State) (point : Nat) : Bool := s.xbar.spillQ.any (fun e => e.2.2.dst == point)

/-- Cells that one engine's half of the carve-out holds, in slots of 128 bytes (R135, R156; log 87). -/
def State.spillCap (s : State) : Nat := bits s.xbar.spillCtl.toNat 39 32 * 2 ^ 20

/-- A spill engine can take another cell (R157). -/
def State.spillRoom (s : State) (d : Nat) : Bool := decide ((s.xbar.spillQ.filter (fun e => pointDie e.2.2.dst == d)).length < s.spillCap)

/-- A cell has a free egress slot of its class (R137 to R139). A BLK cell behind a spill queue needs room in it, and waits where spilling has been
stopped (R157, R160); a request for a keeper slice whose conflict queue is full waits for its credit (R92). -/
def State.slotFree (s : State) (c : Cell) : Bool :=
  let n := s.slotsTaken c.dst c.cls
  match c.cls with
  | 4 => decide (n < reserved c.dst 4) && (if s.spilled c.dst then s.spills c.dst && s.spillRoom (pointDie c.dst) else ! (s.spills c.dst && s.overHigh c.dst) || s.spillRoom (pointDie c.dst))
  | 5 => decide (n < 16)
  | _ =>
    (c.cls != 0 || decide (c.dst < 0x40) || decide (0x60 ≤ c.dst) || decide ((s.keeper.cq.filter (fun q => sliceHash q.r.fpa == c.dst - 0x40)).length < 1024))
    && (decide (n < 64) || (let f := s.sharedFree (s.pointQuad c.dst); if c.cls = 2 ∨ c.cls = 3 then decide (0 < f) else decide (s.sinkers (s.pointQuad c.dst) < f)))

/-! ### Requests (R134, R135, R141, R146) -/

/-- The cells in the queue memories: of each quadrant's the first 16,384; later ones wait at their sources (R135). -/
def State.queued (s : State) : List Cell :=
  if s.xbar.voq.length ≤ 16384 then s.xbar.voq
  else (List.range 8).flatMap (fun k => (s.xbar.voq.filter (fun c => s.pointQuad c.src == k)).take 16384)

/-- The first cell of each virtual output queue. -/
def State.heads (s : State) : List Cell :=
  s.queued.foldl (fun l c => if l.any (fun x => x.src == c.src && x.dst == c.dst && x.cls == c.cls) then l else l ++ [c]) []

/-- A cell is requested: at most 512 cells of its flow are between enqueue and release, its points serve, and it has a free
egress slot (R136, R141, R146). -/
def State.asks (s : State) (c : Cell) : Bool :=
  decide (seqAhead c.seq (Tbl.get 0 s.xbar.expSeq c.flow) < 512) && s.pointServes c.src && s.pointServes c.dst && s.slotFree c

/-- The cells requested in a slot. -/
def State.asking (s : State) : List Cell := s.heads.filter s.asks

/-- The requests on their way to keeper slices. -/
def Xbar.reqs (x : Xbar) : List QReq :=
  (x.voq ++ x.flying.map (fun e => e.2.2) ++ x.held).filterMap (fun c => match c.load with | .req q => some q | _ => none)

/-! ### One match (R140 to R143) -/

/-- Class group of a class: 0 latency, 1 management, 2 bulk (R134). -/
def classGroup (c : Nat) : Nat := if c = 4 then 2 else if c = 5 then 1 else 0

/-- The first of some point IDs at or after a pointer on the ring of 118 (R143). -/
def ringFirst (ptr : Nat) (l : List Nat) : Option Nat :=
  l.foldl (fun b x => match b with
    | none => some x
    | some y => if (x + 118 - ptr % 118) % 118 < (y + 118 - ptr % 118) % 118 then some x else b) none

/-- Key of a rotating pointer: plane, point, class group. -/
def ptrKey (plane point grp : Nat) : Nat := (plane * 128 + point) * 3 + grp

/-- XBAR_CTL.BLK_MIN of the die of an egress point. -/
def Xbar.blkMin (x : Xbar) (point : Nat) : Nat := if pointDie point = 0 then x.blkMin0 else x.blkMin1

/-- Bulk goes first at an egress point: it has had no grant on this plane in the last BLK_MIN slots; BLK_MIN 0 disables it (R142, Table 3.12). -/
def Xbar.bulkDue (x : Xbar) (plane point : Nat) : Bool :=
  let at_ := Tbl.get 0 x.bulkAt (plane * 128 + point)
  x.blkMin point != 0 && (at_ == 0 || decide (at_ + x.blkMin point < x.slot + 1))

/-- The class group an egress point picks among those that request it (R142). -/
def Xbar.pickGroup (x : Xbar) (plane point : Nat) (classes : List Nat) : Nat :=
  if classes.contains 4 ∧ x.bulkDue plane point then 2
  else if classes.any (fun c => classGroup c == 0) then 0
  else if classes.contains 5 then 1 else 2

/-- Key of the count of a REQ queue: plane, ingress point, egress point. -/
def passKey (plane src dst : Nat) : Nat := (plane * 128 + src) * 128 + dst

/-- The class granted of an ingress point's requests in a group: in the latency group RSP, DAT, SNP, REQ, and a REQ
passed over for 64 slots ahead once (R142). -/
def Xbar.pickClass (x : Xbar) (plane src point grp : Nat) (classes : List Nat) : Option Nat :=
  match grp with
  | 0 => if classes.contains 0 ∧ 64 ≤ Tbl.get 0 x.reqPass (passKey plane src point) then some 0 else [2, 3, 1, 0].find? (fun c => classes.contains c)
  | 1 => some 5
  | _ => some 4

/-- The grant of an egress point among the cells that request it (R142, R143). -/
def Xbar.grantOf (x : Xbar) (plane point : Nat) (cells : List VCell) : Option VCell :=
  let mine := cells.filter (fun c => c.dst == point)
  let g := x.pickGroup plane point (mine.map (fun c => c.cls))
  match ringFirst (Tbl.get 0 x.gptr (ptrKey plane point g)) ((mine.filter (fun c => classGroup c.cls == g)).map (fun c => c.src)) with
  | none => none
  | some i => (x.pickClass plane i point g ((mine.filter (fun c => c.src == i)).map (fun c => c.cls))).map (fun k => { src := i, dst := point, cls := k })

/-- The grant an ingress point accepts: the best group, then the accept pointer (R143). -/
def Xbar.acceptOf (x : Xbar) (plane point : Nat) (grants : List VCell) : Option VCell :=
  let mine := grants.filter (fun c => c.src == point)
  let g := (mine.map (fun c => classGroup c.cls)).foldl min 2
  let best := mine.filter (fun c => classGroup c.cls == g)
  (ringFirst (Tbl.get 0 x.aptr (ptrKey plane point g)) (best.map (fun c => c.dst))).bind (fun o => best.find? (fun c => c.dst == o))

/-- One request, grant and accept iteration among the points not matched yet (R140, R141). -/
def Xbar.iterate (x : Xbar) (plane : Nat) (cells done : List VCell) : List VCell :=
  let free := cells.filter (fun c => ! done.any (fun m => m.src == c.src || m.dst == c.dst))
  let grants := (addAll (free.map (fun c => c.dst)) []).filterMap (fun o => x.grantOf plane o free)
  (addAll (grants.map (fun c => c.src)) []).filterMap (fun i => x.acceptOf plane i grants)

/-- A match of the first iteration moves its two pointers (R143). -/
def Xbar.turn (x : Xbar) (plane : Nat) (c : VCell) : Xbar :=
  let g := classGroup c.cls
  { x with gptr := Tbl.set 0 x.gptr (ptrKey plane c.dst g) ((c.src + 1) % 118), aptr := Tbl.set 0 x.aptr (ptrKey plane c.src g) ((c.dst + 1) % 118) }

/-- What a slot leaves behind on a plane: the slot of each bulk grant at its egress point, and for each REQ that requested how many slots in
a row it has been passed over (R142). -/
def Xbar.note (x : Xbar) (plane : Nat) (cells ms : List VCell) : Xbar :=
  let bulk := (ms.filter (fun c => c.cls == 4)).foldl (fun t c => Tbl.set 0 t (plane * 128 + c.dst) (x.slot + 1)) x.bulkAt
  let reqs := cells.filter (fun c => c.cls == 0 && ! ms.contains c)
  { x with
    bulkAt := bulk
    reqPass := reqs.foldl (fun t c => Tbl.set 0 t (passKey plane c.src c.dst) (min 64 (Tbl.get 0 x.reqPass (passKey plane c.src c.dst) + 1)))
      (Tbl.keep (fun k _ => k / 16384 != plane) x.reqPass) }

/-- The matches of one plane in one cell slot, those of the first iteration apart (R140). -/
def Xbar.matches (x : Xbar) (plane : Nat) (cells : List VCell) : List VCell × List VCell :=
  let m1 := x.iterate plane cells []
  let m2 := x.iterate plane cells m1
  (m1, m2 ++ x.iterate plane cells (m1 ++ m2))

/-- Planes that carry cells, in the order of this slot: those in service, from the spray pointer on (R145, R151). -/
def Xbar.planes (x : Xbar) : List Nat := ([0, 1, 2, 3].map (fun i => (x.spray + i) % 4)).filter (fun p => x.up.getLsbD p)

end Sys2Proof.Machine
end

