-- ==== Sys2Proof/Machine/Report.lean ====
section
/-! DEFINITION. Fault reports: location codes that exist, classes, reactions, windows, the log (chapter 12). The action of a reaction is left in `acts` and carried out at the end of the command by Machine/Actions.lean. -/
namespace Sys2Proof.Machine

/-- A location code names an element of this module that exists (R19, R20, R31). -/
def State.locExists (s : State) (l : Loc) : Bool :=
  let shape := l.level
  l.sys == 0 && (l.pkg == s.pk || (l.pkg == 15 && shape == 0)) &&
  (match shape with
   | 0 => true
   | 1 => true
   | 2 => decide (l.die ≤ 6)
   | 3 => decide (l.die ≤ 1) && decide (l.quad ≤ 3)
   | 4 => decide (l.die ≤ 1) && decide (l.quad ≤ 3) && decide (l.clu ≤ 7)
   | _ => decide (l.die ≤ 1) && decide (l.quad ≤ 3) && decide (l.clu ≤ 7) &&
      (if l.clu = 4 ∨ l.clu = 6 then decide (l.unit ≤ 3)
       else if l.clu = 7 then decide (l.unit ≤ 7) && s.isDown (8 * l.k + l.unit)
       else decide (l.unit ≤ 7)))

/-- An element holds another: it covers it, or it is a die that holds or serves the quadrant the other lies in (R36, R61). -/
def holds (o i : Loc) : Bool := o.covers i || (o.level == 2 && decide (3 ≤ i.level) && decide (i.die ≤ 1) && (locQuads o).contains i.k)

/-- Keeper slices inside an element. -/
def locSlices (l : Loc) : List Nat :=
  if l.clu = 15 then (locQuads l).flatMap (fun k => [4 * k, 4 * k + 1, 4 * k + 2, 4 * k + 3])
  else if l.clu = 4 then (if l.unit = 255 then [4 * l.k, 4 * l.k + 1, 4 * l.k + 2, 4 * l.k + 3] else [4 * l.k + l.unit])
  else []

/-- DMA channels inside an element. -/
def locChans (l : Loc) : List Nat :=
  if l.clu = 15 then (locQuads l).flatMap (fun k => (List.range 8).map (8 * k + ·))
  else if l.clu = 5 then (if l.unit = 255 then (List.range 8).map (8 * l.k + ·) else [8 * l.k + l.unit])
  else []

/-- Trunk ports inside an element. -/
def locTrunks (l : Loc) : List Nat :=
  if l.clu = 15 then locQuads l else if l.clu = 6 then [l.k] else []

/-- Port `p` occupies lane `n`. -/
def State.portHasLane (s : State) (p n : Nat) : Bool :=
  s.isPort p && decide (4 * p ≤ n) && decide (n < 4 * p + cfgWidth s.ports.map p)

/-- Configured ports that have a lane inside an element; an arbiter unit names its port. -/
def State.locPorts (s : State) (l : Loc) : List Nat :=
  let ps := (List.range 64).filter s.isPort
  if l.clu = 15 then ps.filter (fun p => (locQuads l).contains (p / 8))
  else if l.clu ≤ 3 then
    ps.filter (fun p => if l.unit = 255 then
        (List.range 8).any (fun u => s.portHasLane p (32 * l.k + 8 * l.clu + u))
      else s.portHasLane p l.lane)
  else if l.clu = 7 ∧ l.unit ≠ 255 then ps.filter (fun p => p == 8 * l.k + l.unit)
  else []

/-- An element is in reset: inside the scope of a targeted reset, and past the drain of its keeper slices, which serve
until they have drained (R55, R544; log 85). -/
def State.inReset (s : State) (l : Loc) : Bool :=
  s.svc.resets.any (fun r => holds r.loc l && (r.draining.isEmpty || (decide (4 ≤ l.level) && l.clu != 4)))

/-- A collector node that failed hears none of its sources: a cluster node its cluster, a region node the clusters below
it (Table 12.6). -/
def State.unheard (s : State) (code : Nat) (l : Loc) : Bool :=
  s.faults.deaf.any (fun n => n.covers l && (if n.level = 4 then code != 0x0207 else decide (4 ≤ l.level) && decide (l.clu ≤ 6)))

/-- The element is out of service, or inside one that is (R544). -/
def State.masked (s : State) (l : Loc) : Bool :=
  s.inReset l || (l.clu == 6 && (s.tp l.k).cause == 11 && ! bit (s.tp l.k).ctl.toNat 31) ||
  s.svc.stoppedDies.contains l.die || (s.svc.isolated.any (fun i => i.covers l))
  || (l.die < 2 && l.quad < 4 && s.svc.gatedQuads.contains l.k)
  || (l.die < 2 && l.quad < 4 && (s.svc.stoppedDies.any (fun d => (dieQuads d).contains l.k)))
  || (l.clu == 4 && l.unit < 4 && s.svc.stoppedSlices.contains (4 * l.k + l.unit))
  || (l.level == 5 && l.clu ≤ 3 && (let ps := s.locPorts l
                    ps ≠ [] && ps.all (fun p => (s.port p).fenced)))

/-- Class of a fault code (Tables 12.6, 13.12, 14.12); WIRE takes its class from its source. -/
def codeClass (code : Nat) : Option Nat :=
  if code ∈ [0x0001, 0x0002, 0x0003, 0x0004, 0x0005, 0x0606, 0x0608] then some 0
  else if 0x0101 ≤ code ∧ code ≤ 0x0117 then some 1
  else if 0x0201 ≤ code ∧ code ≤ 0x0207 then some 2
  else if 0x0301 ≤ code ∧ code ≤ 0x0304 then some 3
  else if 0x0401 ≤ code ∧ code ≤ 0x0408 then some 4
  else if 0x0501 ≤ code ∧ code ≤ 0x0503 then some 5
  else if code ∈ [0x0601, 0x0602, 0x0603, 0x0604, 0x0605, 0x0607, 0x0609, 0x0701, 0x0702, 0x0703] then some 1
  else if code = 0x060A then some 5
  else none

/-- WIRE class of a source (Table 12.15). Where the location alone does not fix it, `source` does: 4 is a temperature
sensor; at a region 1 is the queue memory arrays; at a switch die 1 is the spill or scrub engine and 2 a plane half; at D6
0 is the Sill controller, AON clock or root, 1 the sideband ports or flash interface, 2 the control cores or comparator. -/
def wireClass (l : Loc) (source : Nat) : Nat :=
  if source = 4 then 1
  else match l.level with
  | 5 => 1
  | 4 => if l.clu = 7 then 3 else 2
  | 3 => if source = 1 then 1 else 3
  | 2 =>
    if l.die = 6 then (match source with | 0 => 5 | 1 => 1 | _ => 4)
    else if l.die ≤ 1 then (match source with | 0 => 4 | 1 => 2 | _ => 3)
    else 4
  | _ => 5

/-- Containment element of a class at a source (Table 12.4, R551). -/
def contain (c : Nat) (l : Loc) : Loc :=
  let dieOnly := mkLoc l.pkg l.die 15 15 255
  if l.level = 2 then dieOnly
  else match c with
    | 0 | 1 => l
    | 2 => mkLoc l.pkg l.die l.quad l.clu 255
    | 3 => mkLoc l.pkg l.die l.quad 15 255
    | 4 => dieOnly
    | _ => mkLoc l.pkg 15 15 15 255

/-- Allowed actions of each class, as bits of Table 12.5, left to right (Table 12.4). -/
def allowedActs (c : Nat) : List Nat :=
  match c with
  | 1 => [2, 3] | 2 => [3, 4, 5] | 3 => [5, 6] | 4 => [6, 7] | 5 => [7] | _ => []

/-- Default reaction of each class: action bit (0 none) and INTERRUPT (Table 12.4). -/
def defaultReact (c : Nat) : Nat × Bool :=
  match c with
  | 1 => (0, true) | 2 => (4, true) | 3 => (5, true) | 4 => (6, true) | 5 => (7, true) | _ => (0, false)

/-- An action applies to a source's element (R550, R551). -/
def actApplies (a : Nat) (l : Loc) : Bool :=
  match a with
  | 2 => l.level == 5
  | 3 => l.level ≥ 4 && (l.clu ≤ 3 || l.clu == 6 || (l.clu == 7 && l.level == 5))
  | 4 => l.level ≥ 4 && l.clu ≤ 6
  | 5 => l.level ≥ 3
  | 6 => l.level ≥ 2
  | _ => true

/-- The action taken: the one chosen, or the next allowed one that applies; 0 when none remains (R550). A C2 or C3
report of a die-level block has none (R551); STOP_DIE of D6 is STOP_MODULE (R33). -/
def actTaken (c a : Nat) (l : Loc) : Nat :=
  if a = 0 ∨ (l.level = 2 ∧ (c = 2 ∨ c = 3)) then 0
  else
    let from' := (allowedActs c).dropWhile (fun x => x != a)
    let t := (from'.find? (fun x => actApplies x l)).getD 0
    if t = 6 ∧ l.die = 6 then 7 else t

/-- Element an action acts on. -/
def actElem (a : Nat) (l : Loc) : Loc :=
  match a with
  | 4 => mkLoc l.pkg l.die l.quad l.clu 255 | 5 => mkLoc l.pkg l.die l.quad 15 255 | 6 => mkLoc l.pkg l.die 15 15 255
  | 7 => mkLoc l.pkg 15 15 15 255 | _ => l

/-- Reaction chosen for a report: the override with the fewest "-" fields, else the class's (R552). -/
def State.chosen (s : State) (code c : Nat) (l : Loc) : Nat × Bool :=
  if c = 5 then defaultReact 5
  else
    let ms := s.faults.overrides.filter (fun o => o.2.code == code && o.2.pat.covers l)
    let ms := ms.filter (fun o =>
      let a := o.2.action.getD 0
      code ≠ 0xFF ∨ ((a = 0 ∨ a ∈ allowedActs c) ∧ (c < 2 ∨ (a ≠ 0 ∧ o.2.irq))))
    match ms.foldl (fun (best : Option (Nat × Override)) o => match best with
        | none => some o
        | some b => if o.2.pat.dashes < b.2.pat.dashes then some o else best) none with
    | some o => (o.2.action.getD 0, o.2.irq)
    | none => Tbl.get (defaultReact c) s.faults.react c

/-- Reaction bits taken of a chosen reaction, and its action: LOG, INTERRUPT, action (Table 12.5). Where no action
applies the reaction is LOG and INTERRUPT (R548, R550). -/
def reactBits (ch : Nat × Bool) (c : Nat) (l : Loc) : Nat × Nat :=
  let a := actTaken c ch.1 l
  (1 + (if ch.2 ∨ 2 ≤ c ∨ (ch.1 ≠ 0 ∧ a = 0) then 2 else 0) + (if a = 0 then 0 else 2 ^ a), a)

/-- Reaction to a report. -/
def State.reaction (s : State) (code c : Nat) (l : Loc) : Nat × Nat := reactBits (s.chosen code c l) c l

/-- Longest window of a class in AON ticks (Table 12.7). -/
def windowTicks (c : Nat) : Nat :=
  match c with | 1 => usTicks 2 | 2 => usTicks 20 | 3 => usTicks 200 | _ => msTicks 2

/-- Reaction windows that are open, each at most as long as Table 12.7 allows (R554). -/
def State.openWins (s : State) : List Window := s.faults.windows.filter (fun w => decide (s.now ≤ w.closeBy))

/-- The report would be lost: an open window over its source with a reaction of its class or higher (R555). -/
def State.lostBy (s : State) (c : Nat) (l : Loc) : Bool :=
  s.openWins.any (fun w => w.elem.covers l && decide (c ≤ w.cls))

/-- A record written to the D6 log (R560). -/
def State.logRec (s : State) (r : FRec) : State :=
  let full := s.faults.log.length ≥ 4096
  let f := s.faults
  let f := { f with
    gapTo := (match f.log with | x :: _ => if full then x.seq else f.gapTo | [] => f.gapTo)
    log := if full then f.log.drop 1 ++ [r] else f.log ++ [r]
    prot := if 4 ≤ r.cls ∧ f.prot.length < 16 then f.prot ++ [r] else f.prot
    nextSeq := (f.nextSeq + 1) % 2 ^ 32
    cnt := Tbl.set ({} : Cnt) f.cnt r.cls ((Tbl.get ({} : Cnt) f.cnt r.cls).add 1)
    perDie := Tbl.set 0 f.perDie r.loc.die (Tbl.get 0 f.perDie r.loc.die + 1) }
  let ev := fun (q : Sqc) b => q.raise b (BitVec.ofNat 32 (r.code % 2 ^ 16)) 0xFFFF
  let q := if bit r.reaction 1 then ev f.event (18 + r.cls) else f.event
  let q := if r.wire then ev q 17 else q
  let q := if full then ev q 16 else q
  let s1 := { s with faults := { f with event := q } }
  if bit r.reaction 1 then s1.woken.summary 3 0 else s1

/-- A report accepted by its node (R543 to R561): lost in a window, merged, or logged with its reaction. -/
def State.reportC (s : State) (c code : Nat) (l : Loc) (detail : Reg32) (port : Nat) (wire : Bool) : State :=
  let supD6 := l.die == 6 || decide (l.level ≤ 1)
  if s.faults.c5 ∧ ¬ supD6 then s
  else if s.unheard code l ∨ (s.masked l ∧ ¬ s.openWins.any (fun w => w.elem.covers l)) then s
  else if s.lostBy c l then { s with faults := { s.faults with lost := s.faults.lost.add 1 } }
  else
    let old := s.faults.log.find? (fun r => r.cls == 0 && r.code == code && r.loc == l && decide (s.now < r.time + msTicks 1))
    if c = 0 ∧ old.isSome then
      let upd := s.faults.log.map (fun r => if some r = old then { r with repeats := min 65535 (r.repeats + 1) } else r)
      { s with faults := { s.faults with log := upd, cnt := Tbl.set ({} : Cnt) s.faults.cnt 0 ((Tbl.get ({} : Cnt) s.faults.cnt 0).add 1), perDie := Tbl.set 0 s.faults.perDie l.die (Tbl.get 0 s.faults.perDie l.die + 1) } }
    else
      let rx := s.reaction code c l
      let target := actElem rx.2 l
      let absorbed := s.svc.resets.any (fun r => holds r.loc l && decide (target.level ≥ r.loc.level)) || s.svc.mr ≠ .idle
      let act := if absorbed then 0 else rx.2
      let bitsTaken := if absorbed then rx.1 % 4 else rx.1
      let el := contain c l
      -- a higher class from inside the same element, or an action on all of it, supersedes the running action (R557, Table 12.14)
      let sup := s.openWins.filter (fun w => decide (w.cls < c) && (w.elem.covers l || target.covers w.elem))
      let ended := fun (rs : List FRec) => rs.map (fun r => if act ≠ 0 ∧ sup.any (fun w => w.recSeq == r.seq) then { r with superseded := true } else r)
      let ws := if act = 0 then s.faults.windows else s.faults.windows.filter (fun w => ¬ sup.contains w)
      let s1 := { s with faults := { s.faults with log := ended s.faults.log, prot := ended s.faults.prot, windows := ws } }
      let seq := s1.faults.nextSeq
      let s2 := s1.logRec { time := s.now, seq := seq, loc := l, detail := detail, code := code, reaction := bitsTaken, cls := c, wire := wire, absorbed := absorbed, superseded := false, repeats := 0, port := port }
      if act = 0 then s2
      else
        let w : Window := { elem := el, cls := c, action := act, recSeq := seq, closeBy := s.now + windowTicks c }
        { s2 with faults := { s2.faults with windows := if act = 7 then s2.faults.windows else s2.faults.windows ++ [w], acts := s2.faults.acts ++ [(act, l, c)], c5 := s2.faults.c5 || act == 7 } }

/-- A report of a fault code of Tables 12.6, 13.12 and 14.12. -/
def State.report (s : State) (code : Nat) (l : Loc) (detail : Reg32) (port : Nat) : State :=
  match codeClass code with
  | none => s
  | some c => s.reportC c code l detail port false

/-- A report without detail. -/
def State.fault (s : State) (code : Nat) (l : Loc) (port : Nat) : State := s.report code l 0 port

/-- A TV field at a location voted: a disagreement is corrected and reported (R15, R519). -/
def State.voted (s : State) (t : Tri) (off : Nat) (l : Loc) : State :=
  if t.agree then s
  else
    let s1 := s.fault 0x0002 l 0xFF
    let s2 := s1.globEvent 18
    { s2 with glob := { s2.glob with voteLoc := l, voteOff := off, voteCnt := min 4095 (s2.glob.voteCnt + 1) } }

/-! ### Voted fields (R15, R518, R519, Table 11.5) -/

/-- The voted fields, numbered: 0 GLOBAL_LOCK, 1 BIND_ROOT, 2 SILL_CTL, 3 SILL_LIMITS, 4 and 5 WARD_CTL of
D0 and D1, 6 and 7 WARD_COMMIT.TARGET of D0 and D1, 8 + 2 die + bank the roots of the replica banks. -/
def State.tvGet (s : State) (k : Nat) : Tri :=
  match k with
  | 0 => s.glob.lock
  | 1 => s.glob.bindRoot
  | 2 => s.sill.ctl
  | 3 => s.sill.limits
  | 4 => s.ward.ctl0
  | 5 => s.ward.ctl1
  | 6 => s.ward.tgt0
  | 7 => s.ward.tgt1
  | n => Tbl.get ({} : Tri) s.ward.roots (n - 8)

/-- A voted field written. -/
def State.tvPut (s : State) (k : Nat) (t : Tri) : State :=
  match k with
  | 0 => { s with glob := { s.glob with lock := t } }
  | 1 => { s with glob := { s.glob with bindRoot := t } }
  | 2 => { s with sill := { s.sill with ctl := t } }
  | 3 => { s with sill := { s.sill with limits := t } }
  | 4 => { s with ward := { s.ward with ctl0 := t } }
  | 5 => { s with ward := { s.ward with ctl1 := t } }
  | 6 => { s with ward := { s.ward with tgt0 := t } }
  | 7 => { s with ward := { s.ward with tgt1 := t } }
  | n => { s with ward := { s.ward with roots := Tbl.set {} s.ward.roots (n - 8) t } }

/-- BAR0 offset of a voted field; 0xF_FFFF outside BAR0. -/
def tvOff (k : Nat) : Nat :=
  match k with | 0 => 0x18 | 1 => 0x30 | 2 => 0x20000 | 3 => 0x20008 | 4 | 5 => 0x60000 | 6 | 7 => 0x60008 | _ => 0xFFFFF

/-- Location at which a correction of a voted field is reported. -/
def State.tvLoc (s : State) (k : Nat) : Loc :=
  if k < 4 then s.dieLoc 6 else if k < 8 then s.dieLoc (k % 2) else s.dieLoc ((k - 8) / 2)

/-- A voted field voted: a disagreement is corrected, reported and noted (R519). -/
def State.tvFix (s : State) (k : Nat) : State :=
  let t := s.tvGet k
  if t.agree then s else (s.voted t (tvOff k) (s.tvLoc k)).tvPut k (Tri.all t.maj)

/-- Several voted fields voted in one clock, named by rising offset: GLOBAL_VOTE is left with the first (Table 11.12). -/
def State.tvFixAll (s : State) (ks : List Nat) : State := ks.reverse.foldl (fun s k => s.tvFix k) s

/-- Every voted field, by rising offset. -/
def tvAll : List Nat := List.range 12

end Sys2Proof.Machine
end

