-- ==== Sys2Proof/Machine/Keeper.lean ====
section
/-! DEFINITION. The keeper slices: directory, snoops and their answers, home transactions, proxies, far atomics (chapter 2). -/
namespace Sys2Proof

/-! ### Agents and directory entries -/

/-- Agent ID of a directory pointer (Table 2.3); 0xFF for an agent never recorded. -/
def agentId (a : Agent) : Nat :=
  match a with | .host n => n | .dev n => 0x30 + n | .mod n => 0x40 + n | _ => 0xFF
/-- The agent an ID names. -/
def agentOf (i : Nat) : Option Agent :=
  if i < 0x30 then some (.host i) else if i < 0x40 then some (.dev (i - 0x30))
  else if i ≤ 0x48 then some (.mod (i - 0x40)) else none
/-- A caching requester: it is recorded as a holder (Table 2.1). -/
def Agent.caching (a : Agent) : Bool := agentId a != 0xFF
/-- A module. -/
def Agent.isMod (a : Agent) : Bool := match a with | .mod _ => true | _ => false

end Sys2Proof

namespace Sys2Proof.Machine

/-- Line state of line `i` of an entry. -/
def DEnt.ls (e : DEnt) (i : Nat) : Nat := match i with | 0 => e.ls0 | 1 => e.ls1 | 2 => e.ls2 | _ => e.ls3
/-- Line state set. -/
def DEnt.setLs (e : DEnt) (i v : Nat) : DEnt :=
  match i with | 0 => { e with ls0 := v } | 1 => { e with ls1 := v } | 2 => { e with ls2 := v } | _ => { e with ls3 := v }
/-- Pointer `n`. -/
def DEnt.ptr (e : DEnt) (n : Nat) : Nat := match n with | 0 => e.p0 | 1 => e.p1 | _ => e.p2
/-- Pointer set. -/
def DEnt.setPtr (e : DEnt) (n v : Nat) : DEnt :=
  match n with | 0 => { e with p0 := v } | 1 => { e with p1 := v } | _ => { e with p2 := v }
/-- An entry whose four line states are all I is free (R69). -/
def DEnt.isFree (e : DEnt) : Bool := e.ls0 == 0 && e.ls1 == 0 && e.ls2 == 0 && e.ls3 == 0
/-- Index of the pointer that names an ID. -/
def DEnt.ptrIdx (e : DEnt) (i : Nat) : Option Nat :=
  if e.p0 = i then some 0 else if e.p1 = i then some 1 else if e.p2 = i then some 2 else none
/-- A new entry for an address. -/
def DEnt.new (px : Bool) (tag : Nat) : DEnt :=
  { px := px, tag := tag, ls0 := 0, ls1 := 0, ls2 := 0, ls3 := 0, mode := 0, p0 := 0xFF, p1 := 0xFF, p2 := 0xFF, hosts := 0 }
/-- The entry packed as Table 2.2 lays it out. -/
def DEnt.pack (e : DEnt) : Reg64 :=
  BitVec.ofNat 64 (b2n e.px * 2 ^ 63 + e.tag % 2 ^ 25 * 2 ^ 38 + e.ls3 % 8 * 2 ^ 35 + e.ls2 % 8 * 2 ^ 32 + e.ls1 % 8 * 2 ^ 29
    + e.ls0 % 8 * 2 ^ 26 + e.mode % 4 * 2 ^ 24
    + (if e.mode = 1 then e.hosts.toNat else if e.mode = 0 then e.p2 % 256 * 2 ^ 16 + e.p1 % 256 * 2 ^ 8 + e.p0 % 256 else 0))

/-- The owner's pointer index of a home line state Xn or On (Table 2.4), or of a proxy's XHn (Table 2.21). -/
def ownerIdx (px : Bool) (v : Nat) : Option Nat :=
  if px then (if 5 ≤ v then some (v - 5) else none)
  else if 2 ≤ v ∧ v ≤ 4 then some (v - 2) else if 5 ≤ v then some (v - 5) else none
/-- A home state in which sharers may hold the line: S or On. -/
def sharesLine (px : Bool) (v : Nat) : Bool :=
  if px then 1 ≤ v && v ≤ 4 else v == 1 || 5 ≤ v

/-- Pointers that no line needs are emptied (R76); an empty entry in CHOST or BCAST mode is free. -/
def DEnt.tidy (e : DEnt) : DEnt :=
  if e.mode ≠ 0 then e
  else
    let lines := [e.ls0, e.ls1, e.ls2, e.ls3]
    let needed := fun n => lines.any (fun v => sharesLine e.px v || ownerIdx e.px v == some n)
    { e with p0 := if needed 0 then e.p0 else 0xFF, p1 := if needed 1 then e.p1 else 0xFF, p2 := if needed 2 then e.p2 else 0xFF }

/-- An agent can be named by the entry as it stands: named already, or a pointer or a mode bit is free for it. -/
def DEnt.hasRoom (e : DEnt) (a : Agent) : Bool :=
  match e.mode with
  | 0 => (e.ptrIdx (agentId a)).isSome || (e.ptrIdx 0xFF).isSome
  | 1 => match a with | .host _ => true | _ => false
  | _ => true

/-- The entry naming one more agent; in CHOST and BCAST mode as R74 says. -/
def DEnt.addAgent (e : DEnt) (a : Agent) : DEnt :=
  match e.mode with
  | 0 => match e.ptrIdx (agentId a) with
    | some _ => e
    | none => match e.ptrIdx 0xFF with
      | some n => e.setPtr n (agentId a)
      | none =>
        let ids := [e.p0, e.p1, e.p2, agentId a]
        if ids.all (fun i => i < 0x30) then
          { e with mode := 1, p0 := 0xFF, p1 := 0xFF, p2 := 0xFF, hosts := ids.foldl (fun h i => h ||| ((1 : BitVec 24) <<< (i / 2))) 0 }
        else { e with mode := 2, p0 := 0xFF, p1 := 0xFF, p2 := 0xFF, hosts := 0 }
  | 1 => match a with
    | .host h => { e with hosts := e.hosts ||| ((1 : BitVec 24) <<< (h / 2)) }
    | _ => { e with mode := 2, hosts := 0 }
  | _ => e

/-! ### Directory access -/

/-- Key of the set of an address. -/
def dirKey (fpa : Nat) : Nat := 28672 * sliceHash fpa + setOf fpa

/-- The entry of an address. -/
def State.dent (s : State) (fpa : Nat) : Option DEnt :=
  (Tbl.get [] s.keeper.dir (dirKey fpa)).find? (fun e => e.px != s.homed fpa && e.tag == tagOf fpa)

/-- Line state of an address, I without an entry. -/
def State.lineSt (s : State) (fpa : Nat) : Nat :=
  match s.dent fpa with | none => 0 | some e => e.ls (bits fpa 7 6)

/-- The entry of an address written back as the most recently used way, which is what counts as its use (log 90); a free
entry leaves the set. -/
def State.putDent (s : State) (fpa : Nat) (e : DEnt) : State :=
  let k := dirKey fpa
  let rest := (Tbl.get [] s.keeper.dir k).filter (fun x => ¬ (x.px == e.px && x.tag == e.tag))
  let e := e.tidy
  let s1 : State := { s with keeper := { s.keeper with dir := Tbl.set [] s.keeper.dir k (if e.isFree then rest else e :: rest) } }
  if e.mode ≠ 0 ∧ (s.dent fpa).any (fun o => o.mode == 0) then s1.count 0x4B (sliceHash fpa) 0 1 else s1

/-- First address of the sector an entry of a set stands for, from slice, set and tag (R64). -/
def sectorFpa (ks set tag : Nat) : Nat :=
  let r := tag * 28672 + set
  let hi := r * 2 ^ 13
  hi + ((ks ^^^ sliceHash hi) % 32) * 2 ^ 8

/-- A host is bound in HDM-DB mode to the extent of an address and has not departed (Table 2.5). -/
def State.hostMay (s : State) (h fpa : Nat) : Bool :=
  (s.pool.partner.any (fun e => e.2.kind == 1 && e.2.index == h && e.2.timerEnd == none && ! e.2.leaving))
  && (s.entsOf h).any (fun e => (List.range (e.2.nm1 + 1)).any (fun i =>
      s.entExt e.2 (e.2.hoffExt + i) == (homeOf fpa, extOf fpa)))

/-- The host has only read-only bindings to the extent of an address (R124). -/
def State.hostRO (s : State) (h fpa : Nat) : Bool :=
  (s.entsOf h).all (fun e => e.2.access == 1 || ! (List.range (e.2.nm1 + 1)).any (fun i =>
      s.entExt e.2 (e.2.hoffExt + i) == (homeOf fpa, extOf fpa)))

/-- An agent is present and can be snooped. -/
def State.present (s : State) (a : Agent) : Bool :=
  match a with
  | .host h => s.pool.partner.any (fun e => (e.2.kind == 1) && e.2.index == h && e.2.timerEnd == none && ! e.2.leaving)
  | .dev d => s.pool.partner.any (fun e => e.2.kind == 4 && e.2.index == d && e.2.timerEnd == none && ! e.2.leaving)
  | .mod m => s.hier.members.any (fun x => x.idx == m) && ! s.hier.lost.contains m
  | _ => false

/-- A requester is attached: a host in either mode, or a present caching agent (R67). -/
def State.attached (s : State) (a : Agent) : Bool :=
  match a with
  | .host h => s.pool.partner.any (fun e => (e.2.kind == 1 || e.2.kind == 2) && e.2.index == h && e.2.timerEnd == none && ! e.2.leaving)
  | a => s.present a

/-- Agents an entry names, owner or sharers alike, as its mode covers them (R71, R73). Every present device caching agent is
taken as granted access (log 102). -/
def State.covered (s : State) (e : DEnt) (fpa : Nat) : List Agent :=
  match e.mode with
  | 0 => [e.p0, e.p1, e.p2].filterMap agentOf
  | 1 => ((List.range 48).filter (fun h => e.hosts.getLsbD (h / 2))).map Agent.host
  | _ =>
    ((List.range 48).filter (fun h => s.hostMay h fpa)).map Agent.host
    ++ ((List.range 16).map Agent.dev).filter s.present
    ++ (if e.px then [] else ((s.hier.members.map (fun m => m.idx)).filter (fun i => i != s.glob.midx)).map Agent.mod)

/-- Agents that may hold line `i` of an entry, with true for the one recorded X or O (Table 2.4). -/
def State.mayHold (s : State) (e : DEnt) (i fpa : Nat) : List (Agent × Bool) :=
  let v := e.ls i
  if v = 0 then []
  else match ownerIdx e.px v with
    | some n =>
      let own := (agentOf (e.ptr n)).toList.map (fun a => (a, true))
      if sharesLine e.px v then own ++ ((s.covered e fpa).filter (fun a => agentId a != e.ptr n)).map (fun a => (a, false)) else own
    | none => (s.covered e fpa).map (fun a => (a, false))

/-- Pointer `n` emptied where no line but `i` lists it as a holder (R76). -/
def DEnt.clearPtr (e : DEnt) (i n : Nat) : DEnt :=
  if [0, 1, 2, 3].all (fun j => j == i || ! (sharesLine e.px (e.ls j) || ownerIdx e.px (e.ls j) == some n)) then e.setPtr n 0xFF else e

/-- An agent taken out of a line's record (R76). The pointer of an agent that drops a shared line stays while another line of
the sector is held (log 91). -/
def DEnt.drop (e : DEnt) (i : Nat) (a : Agent) : DEnt :=
  let v := e.ls i
  match ownerIdx e.px v with
  | some n =>
    if e.ptr n = agentId a then
      if e.px then (e.setLs i 2).clearPtr i n
      else if 5 ≤ v then
        let others := [e.p0, e.p1, e.p2].filter (fun p => p != 0xFF && p != agentId a)
        (e.setLs i (if others = [] then 0 else 1)).clearPtr i n
      else e.setLs i 0
    else e
  | none =>
    if e.mode = 0 ∧ e.px ∧ 1 ≤ v ∧ v ≤ 4 then
      -- a local sharer of a proxy entry: the module's own holding stays (Table 2.21)
      let only := [0, 1, 2, 3].all (fun j => j == i || e.ls j == 0)
      if only then match e.ptrIdx (agentId a) with
        | some n => e.setPtr n 0xFF
        | none => e
      else e
    else if e.mode = 0 ∧ v = 1 ∧ ¬ e.px then
      let others := [e.p0, e.p1, e.p2].filter (fun p => p != 0xFF && p != agentId a)
      let only := [0, 1, 2, 3].all (fun j => j == i || e.ls j == 0)
      let e1 := if others = [] then e.setLs i 0 else e
      if only then match e1.ptrIdx (agentId a) with
        | some n => e1.setPtr n 0xFF
        | none => e1
      else e1
    else e

/-! ### Messages -/

/-- The host offset at which a host sees an address, by the entries it has (R236 read backwards). -/
def State.hostOff (s : State) (h fpa : Nat) : Option Nat :=
  (s.entsOf h).findSome? (fun e => ((List.range (e.2.nm1 + 1)).find? (fun i =>
    s.entExt e.2 (e.2.hoffExt + i) == (homeOf fpa, extOf fpa))).map (fun i => (e.2.hoffExt + i) * 2 ^ 28 + fpa % 2 ^ 28))

/-- Port of a caching device. -/
def State.devPort (s : State) (d : Nat) : Option Nat :=
  (s.pool.partner.find? (fun e => e.2.kind == 4 && e.2.index == d && e.2.timerEnd == none)).map (·.1)

/-- A back-invalidate of a line to a host is open at its port, with the offset its answer will carry (R86). -/
def State.biOpens (s : State) (h p line : Nat) : State :=
  { s with hs := { s.hs with
    biOpen := addOnce (p, line) s.hs.biOpen
    biAddr := match s.hostOff h (line * 64) with
      | some o => addOnce (p, o / 64, line) s.hs.biAddr
      | none => s.hs.biAddr } }

/-- A Falgen message of opcode `opc` (Table 2.7) to an agent. Toward a host a snoop is a back-invalidate of Table 2.9, BISnpInv,
BISnpData, or BISnpInvBlk for several lines of a sector, which the port records as open (R85, R86); toward a device it is an H2D snoop. -/
def State.toAgent (s : State) (a : Agent) (opc fpa : Nat) (nd nt : Bool) (mask : Nat) (psn : Bool) (d : Line) : State :=
  let s1 := s.emit (.send a opc fpa false nd false nt mask psn d)
  match a with
  | .host h => match s.hostPort h with
    | some p => if 8 ≤ opc ∧ opc ≤ 0xB then
        let ls := if opc = 0xB then ([0, 1, 2, 3].filter (fun j => bit mask j)).map (fun j => fpa / 256 * 4 + j) else [lineOf fpa]
        let s2 := ls.foldl (fun s l => s.biOpens h p l) s1
        (s2.emit (.bisnp p (if opc = 0xB then (if ls.length = 1 then 0 else 2) else if opc = 8 then 0 else 1) ((s.hostOff h (ls.headD (lineOf fpa) * 64)).getD 0))).count 0x0C p 0 1
      else s1
    | none => s1
  | .dev d => match s.devPort d with
    | some p => if 8 ≤ opc ∧ opc ≤ 0xB then s1.emit (.h2d p (if opc = 9 ∨ opc = 0xA then 1 else 0) fpa false 0) else s1
    | none => s1
  | _ => s1

/-- Opcode of a snoop. -/
def SnpKind.opc (k : SnpKind) : Nat := match k with | .inv => 0x08 | .shr => 0x09 | .data => 0x0A | .recall => 0x0B

/-- A completed access leaves its ward epoch (R441), and its selection by a sampler ends (R533). -/
def State.landed (s0 : State) (a : Agent) (line : Nat) : State :=
  let s := s0.smpEnd a 0 (0, line) 0
  { s with ward := { s.ward with flight := match s.ward.flight.find? (fun x => x.1 == a && x.2.1 == line) with
      | some x => s.ward.flight.erase x
      | none => s.ward.flight } }

/-- Completions owed to a host counted down; a waiting BIConflictAck goes out after the last (R88). -/
def State.paid (s : State) (p line : Nat) : State :=
  let owed := s.hs.owed.erase (p, line)
  let s1 := { s with hs := { s.hs with owed := owed, wbOpen := s.hs.wbOpen.erase (p, line) } }
  if s.hs.conflicts.contains (p, line) ∧ ¬ owed.contains (p, line) then
    { s1 with hs := { s1.hs with conflicts := dropOf (p, line) s1.hs.conflicts } }.emit (.s2m p 4 (line * 64) 0 false 0)
  else s1

/-- Lines of the source pieces of a formed burst. -/
def Form.lines (f : Form) : List Nat :=
  f.srcs.foldl (fun r p => addAll ((List.range ((p.1 + p.2 - 1) / 64 - p.1 / 64 + 1)).map (p.1 / 64 + ·)) r) []

/-- A channel waits for a source line of the burst it has formed. -/
def Chan.wants (x : Chan) (line : Nat) : Bool :=
  x.begun.any (fun b => match b.form with | some f => f.lines.contains line | none => false) && ! x.staging.any (fun y => y.1 == line)

/-- A begun descriptor without a line of the first of its bursts that has it open. -/
def Begun.lineDone (b : Begun) (line : Nat) : Begun :=
  match b.bursts.find? (fun u => u.openLines.contains line) with
  | none => b
  | some u => { b with bursts := b.bursts.map (fun v => if v.num = u.num then { v with openLines := v.openLines.erase line } else v) }

/-- A descriptor that a channel has read (R348, R349): it joins the prefetched ones and FETCH moves on. With FETCH at TAIL its
PHASE tells whether a full lap is posted. One read poisoned has contents that nothing gives (log 117). -/
def State.descRead (s : State) (c ring : Nat) (psn : Bool) (d : Line) : State :=
  let r := s.ring ring
  let desc : Line := if psn then BitVec.ofNat 512 s.freeNat else d
  let s1 := (if psn then s.drawn else s).modCh c (fun x => { x with fetching := x.fetching.filter (fun y => y.1 != ring) })
  let good := psn || bit desc.toNat 15 == r.phase
  if r.state ≠ .run then s1
  else if (r.tail + r.size - r.fetch) % r.size = 0 ∧ ¬ good then s1.modRing ring (fun r => { r with lap := false })
  else
    let f := r.succ r.fetch
    (s1.modRing ring (fun r => { r with fetch := f, phase := if f = 0 then ! r.phase else r.phase, lap := false })).modCh c
      (fun x => { x with pre := x.pre ++ [{ ring := ring, idx := r.fetch, desc := desc, phaseOk := good, psn := psn }] })

/-- A line of a module write has completed (R430). With its last line the write is done, and its MSI-X message follows (R352, R353). -/
def State.modWrDone (s : State) (a : Agent) (line : Nat) : State :=
  match s.keeper.modWr.find? (fun w => w.src == a && w.lines.contains line) with
  | none => s
  | some w =>
    let w1 := { w with lines := w.lines.erase line }
    if ¬ w1.lines.isEmpty then { s with keeper := { s.keeper with modWr := s.keeper.modWr.replace w w1 } }
    else
      let s1 : State := { s with keeper := { s.keeper with modWr := s.keeper.modWr.erase w } }
      match w.irq with
      | some i => s1.emit (.msix i.1 i.2)
      | none => s1

/-- OUTCOME of a burst from the status its descriptor stops with (Tables 7.5 and 11.11). -/
def burstOutcome (st : Nat) : Nat := match st with | 5 => 2 | 7 => 1 | 8 => 5 | 9 => 4 | _ => 0

/-- What a DMA channel takes from the end of a request: a descriptor or data for its staging buffer (R326, R345), or the
completion of a line that a burst (R354) or the module on the channel's behalf (R430) wrote. -/
def State.dmaTakes (s : State) (c line : Nat) (g : Grant) (d : Line) : State :=
  let own := s.keeper.modWr.any (fun w => w.src == Agent.dma c && w.lines.contains line)
  match g with
  | .dataS | .dataE | .dataM | .poison =>
    if let some y := (s.chan c).fetching.find? (fun y => y.2 == line) then s.descRead c y.1 (g == .poison) d
    else if (s.chan c).wants line then s.modCh c (fun x => { x with staging := x.staging ++ [(line, d, g == .poison)] })
    else s.modWrDone (.dma c) line
  | _ => if own then s.modWrDone (.dma c) line else match (s.chan c).begun.find? (fun b => b.bursts.any (fun u => u.openLines.contains line)) with
    | none => s
    | some b =>
      -- its burst has ended with the last write's completion (R533)
      let u := (b.bursts.find? (fun u => u.openLines.contains line)).filter (fun u => (u.openLines.erase line).isEmpty)
      let s1 := match u with | some u => s.smpEnd (.dma c) 4 (b.num, u.num) (burstOutcome b.status) | none => s
      s1.modCh c (fun x => { x with begun := x.begun.map (fun y => if y.num = b.num then y.lineDone line else y) })

/-- A descriptor stopped by the failure of one of its bursts: no further burst is issued, and what counts as written ends
before it (R355, Table 7.6). -/
def Begun.failsAt (b : Begun) (line status : Nat) : Begun :=
  let good := b.bursts.takeWhile (fun u => ! u.openLines.contains line)
  let sum := (good.map (fun u => u.elems)).foldl (· + ·) 0
  { b with status := if b.status = 0 then status else b.status, issued := true, form := none, done := min b.done sum }

/-- A write of a DMA burst fails; its line is still to be completed (R202, Table 3.5). -/
def State.dmaFails (s : State) (a : Agent) (line status : Nat) : State :=
  match a with
  | .dma c => (match (s.chan c).begun.find? (fun b => b.bursts.any (fun u => u.openLines.contains line)) with
      | some b => s.modCh c (fun x => { x with begun := x.begun.map (fun y => if y.num = b.num then y.failsAt line status else y), staging := if b.issued then x.staging else [] })
      | none => s)
  | _ => s

/-- The message that ends a request, toward its requester: Falgen on chip and on trunks, S2M toward a
host (Table 2.9). MetaValue 1 stands for S and 2 for A. -/
def State.answer (s : State) (a : Agent) (g : Grant) (fpa : Nat) (d : Line) : State :=
  let s0 := (if g = .poison then s.smpEnd a 0 (0, lineOf fpa) 1 else s).landed a (lineOf fpa)
  let s0d := match a with
    | .dma c => s0.dmaTakes c (lineOf fpa) g d
    | .fw => s0.modWrDone a (lineOf fpa)
    | _ => s0
  let h2d := fun (s : State) => match a with
    | .dev n => match s.devPort n with
      | some p => s.emit (.h2d p (match g with | .dataS => 4 | .dataE | .dataM => 5 | .poison => 6 | .cmpI => 3 | _ => 2) fpa (g == .poison) d)
      | none => s
    | _ => s
  let falgen := fun opc => h2d (s0d.emit (.send a opc fpa false false false false 0 (g == .poison) d))
  -- a module takes a Cmp as ownership, so one that is granted nothing receives CmpPoison
  let goI := if a.isMod then s0d.emit (.send a 0x15 fpa false false false false 0 true d) else h2d (s0d.emit (.send a 0x14 fpa false false false false 1 false d))
  match a with
  | .host h =>
    match s.hostPort h with
    | none => s0
    | some p =>
      if (s.port p).fenced then s0
      else if s.hs.dead.contains (p, lineOf fpa) then
        { s0 with hs := { s0.hs with dead := s0.hs.dead.erase (p, lineOf fpa) } }
      else
        let s1 := match g with
          | .dataS => s0.emit (.s2m p 0 fpa 1 false d)
          | .dataE | .dataM => s0.emit (.s2m p 0 fpa 2 false d)
          | .cmp => s0.emit (.s2m p 1 fpa 0 false 0)
          | .cmpE => s0.emit (.s2m p 3 fpa 2 false 0)
          | .cmpI => s0.emit (.s2m p 5 fpa 0 false 0)
          | .poison => s0.emit (.s2m p 0 fpa 0 true d)
          | .none => s0
        let drop1 := fun (l : List (Nat × Nat)) => match l.find? (fun x => lineOf x.1 == lineOf fpa) with
          | some x => l.erase x
          | none => l
        let done := (s.port p).open_.any (fun x => lineOf x.1 == lineOf fpa)
        let s2 := (s1.modPort p (fun x => { x with open_ := drop1 x.open_ })).paid p (lineOf fpa)
        if done then s2.latDone p fpa else s2
  | _ => match g with
    | .dataS => falgen 0x18
    | .dataE => falgen 0x19
    | .dataM => falgen 0x1A
    | .cmp | .cmpE => falgen 0x14
    | .cmpI => goI
    | .poison => falgen 0x15
    | .none => s0

/-- A keeper's answer to a requester crosses to its point as a cell of class RSP or DAT and takes effect there; data read from an
expander comes from its port (R48). Without a point to go to, or with nothing to say, the access just ends. -/
def State.grant (s : State) (a : Agent) (g : Grant) (fpa : Nat) (d : Line) : State :=
  let p := s.pointOf a
  if g = .none ∨ p = 0x7F then s.answer a g fpa d
  else
    let host := match a with | .host _ => true | _ => false
    let dat := g == .dataS || g == .dataE || g == .dataM || (host && g == .poison)
    let opc := match g with | .dataS => 0x18 | .dataE => 0x19 | .dataM => 0x1A | .poison => 0x15 | _ => 0x14
    s.cellIn { cls := if dat then 3 else 2, opc := opc, src := if dat && s.fromMem fpa then (s.ext (extOf fpa)).port else 0x40 + sliceHash fpa
               dst := p, addr := fpa, len := if dat then 63 else 0, poison := g == .poison, load := .ans a g fpa d }

/-- A Falgen message of a keeper slice to another module crosses to the trunk port toward it (Table 3.1). -/
def State.toMod (s : State) (o : Out) (bulk : Bool) : State :=
  match o with
  | .send (.mod m) opc fpa dp nd k nt _ psn _ => match s.trunkTo m with
    | some t => s.cellIn { cls := opc / 8, opc := opc, src := 0x40 + sliceHash fpa, dst := 0x68 + t, addr := fpa
                           len := if opc / 8 = 3 ∨ (opc = 3 ∧ ! bulk) then 63 else if opc = 4 then 7 else if opc = 5 then 15 else 0
                           poison := psn, nt := nt, nd := nd, k := k, dp := dp, load := .out o bulk }
    | none => s.emit o
  | _ => s.emit o

/-- Slice an agent's access is attributed to (Table 9.1). -/
def State.attrib (s : State) (a : Agent) (fpa : Nat) : Option Nat :=
  match a with
  | .host h => ((s.entsOf h).find? (fun e => (List.range (e.2.nm1 + 1)).any (fun i => s.entExt e.2 (e.2.hoffExt + i) == (homeOf fpa, extOf fpa)))).bind (fun e => s.hostSlice h e.1)
  | .dma c => (s.chan c).slice
  | .post sl => some sl
  | _ => none

/-! ### Writes of the module on a slice's behalf (R430) -/

/-- The bytes of line `l` that `n` bytes at `a` with value `v` cover, as a mask and data. -/
def linePart (a n v l : Nat) : BitVec 64 × Line :=
  let lo := max a (64 * l)
  let w := min (a + n) (64 * l + 64) - lo
  (BitVec.ofNat 64 ((2 ^ w - 1) * 2 ^ (lo % 64)), BitVec.ofNat 512 (v / 2 ^ (8 * (lo - a)) % 2 ^ (8 * w) * 2 ^ (8 * (lo % 64))))

/-- The request that writes one line's part. -/
def modReq (src : Agent) (a n v l : Nat) : QReq :=
  let p := linePart a n v l
  { kind := if p.1 == allBytes then .wrInvFull else .wrInvPart, r := { src := src, fpa := 64 * l, nt := false, mask := p.1, data := p.2 }, record := 0, nextRec := 0 }

/-- `n` bytes of value `v` are written at `a` with coherent writes, one a line, and an MSI-X message follows them. Which of the
module's units issues a write is the model's choice (log 117). -/
def State.modWrite (s : State) (src owner : Agent) (a n v : Nat) (irq : Option (Nat × Nat)) : State :=
  let ls := (List.range ((a % 64 + n + 63) / 64)).map (fun i => a / 64 + i)
  let s1 : State := { s with keeper := { s.keeper with modWr := s.keeper.modWr ++ [{ src := src, owner := owner, lines := ls, irq := irq }] } }
  ls.foldl (fun s l =>
    let q := modReq src a n v l
    (reqCells (s.pointOf src) q).foldl State.cellIn (s.sample (q.sampled (s.pointOf src) (s.pointOf src) (s.attrib (if src = .fw then owner else src) q.r.fpa)))) s1

/-- A keeper slice opens a transaction for a request: counted, and seen by the samplers (R525, R533). -/
def State.opened (s : State) (q : QReq) : State :=
  let ks := sliceHash q.r.fpa
  (s.count 0x40 ks 0 1).sample (q.sampled (0x40 + ks) (s.pointOf q.r.src) (s.attrib q.r.src q.r.fpa))

/-- A snoop recorded as not answered. -/
def State.addWait (s : State) (own : WOwner) (forLine : Nat) (kind : SnpKind) (nd : Bool) (a : Agent) (line : Nat) : State :=
  let w : Wait := { own := own, agent := a, line := line, forLine := forLine, kind := kind, nd := nd, rsp := none, dat := none, wb := false, since := s.now }
  let s1 := if own = .txn then s.txnNote forLine (fun y => { y with snooped := true }) else s
  { s1 with keeper := { s1.keeper with waits := s1.keeper.waits ++ [w] } }

/-- A snoop message crosses to the point of its agent; to one without a point it is only sent. -/
def State.snpCell (s : State) (a : Agent) (opc line : Nat) (nd : Bool) (mask : Nat) : State :=
  if s.pointOf a = 0x7F then s.toAgent a opc (line * 64) nd false mask false 0
  else s.cellIn { cls := 1, opc := opc, src := 0x40 + sliceHash (line * 64), dst := s.pointOf a, addr := line * 64, nd := nd, load := .snp a opc (line * 64) nd mask }

/-- One snoop message sent, counted and seen by the samplers. -/
def State.sendSnoop (s : State) (kind : SnpKind) (nd : Bool) (a : Agent) (line mask : Nat) : State :=
  let ks := sliceHash (line * 64)
  ((s.count 0x44 ks 0 1).sample { point := 0x40 + ks, cls := 1, op := kind.opc, fpa := line * 64, slice := none, src := 0x40 + ks, agent := a, key := (1, line / 4), server := 0x40 + ks }).snpCell a kind.opc line nd mask

/-- Snoops sent to agents for lines, recorded as waits; an absent agent is taken as answered (R124). The lines of a sector that
are recalled from one agent go in one BIRecall with their mask (Table 2.7). -/
def State.snoop (s : State) (own : WOwner) (forLine : Nat) (kind : SnpKind) (nd : Bool) (as : List (Agent × Nat)) : State :=
  let live := as.filter (fun x => s.present x.1)
  let s1 := live.foldl (fun s x => s.addWait own forLine kind nd x.1 x.2) s
  if kind = .recall then
    (addAll (live.map (fun x => (x.1, x.2 / 4))) []).foldl (fun s g =>
      s.sendSnoop kind nd g.1 (g.2 * 4) (maskOf ((live.filter (fun x => x.1 == g.1 && x.2 / 4 == g.2)).map (fun x => x.2 % 4)))) s1
  else live.foldl (fun s x => s.sendSnoop kind nd x.1 x.2 0) s1

/-! ### Dirty logs (R453, R455) -/

/-- A page bit set in a slice's active log buffer, by a coherent write of the module of the byte that holds it (R430, R452). -/
def State.logBit (s : State) (sl : Nat) (g : DLog) (bitNo : Nat) : State :=
  if g.bits.contains bitNo then s
  else
    let bs := g.bits ++ [bitNo]
    let s1 := s.modSlice sl (fun x => { x with log := some { g with bits := bs } })
    let v := maskOf ((bs.filter (fun b => b / 8 == bitNo / 8)).map (fun b => b % 8))
    match s.sliceFpa g.owner ((if g.second then g.buf1 else g.buf0) + bitNo / 8) with
    | some (_, fpa) => s1.modWrite .fw .fw fpa 1 v none
    | none => s1

/-- A page of an extent recorded in every slice log of this module that covers the extent. -/
def State.markPage (s : State) (home ext page : Nat) : State :=
  s.slices.foldl (fun s e => match (s.slice e.1).bind (fun x => x.log) with
    | none => s
    | some g => match g.exts.findIdx? (fun x => x == home * 2 ^ 20 + ext) with
      | some i => s.logBit e.1 g (i * 65536 + page)
      | none => s) s

/-- An event of R453 on a line: its page is recorded in the logs of this module, and members that log
the extent are told. -/
def State.mark (s : State) (fpa : Nat) : State :=
  let page := fpa % 2 ^ 28 / 4096
  let s1 := s.markPage (homeOf fpa) (extOf fpa) page
  (s.ext (extOf fpa)).remoteLog.foldl (fun s m => s.emit (.homeReq m 5 (extOf fpa) page)) s1

/-! ### Atomic line cache and far atomics (R112 to R121) -/

/-- A line of the atomic line cache. -/
def State.alc (s : State) (line : Nat) : Option CLine := s.keeper.alc.find? (fun c => c.line == line)

/-- The line out of the atomic line cache. -/
def State.alcDrop (s : State) (line : Nat) : State :=
  { s with keeper := { s.keeper with alc := s.keeper.alc.filter (fun c => c.line != line) } }

/-- A dirty line written to memory by a keeper, with its completion to come. -/
def State.sideWr (s : State) (fpa : Nat) (d : Line) (psn : Bool) : State :=
  let s1 := (s.memWr fpa allBytes d psn .side).mark fpa
  { s1 with keeper := { s1.keeper with side := s1.keeper.side ++ [lineOf fpa] } }

/-- The line written to memory and taken out of the atomic line cache. -/
def State.alcFlush (s : State) (line : Nat) : State :=
  match s.alc line with
  | none => s
  | some c => if c.dirty then (s.alcDrop line).sideWr (line * 64) c.data false else s.alcDrop line

/-- A line put into the atomic line cache as the most recently used; the least recently used of a full
slice's 256 lines is written back (R113). -/
def State.alcPut (s : State) (c : CLine) : State :=
  let s0 := s.alcDrop c.line
  let ks := sliceHash (c.line * 64)
  let mine := s0.keeper.alc.filter (fun x => sliceHash (x.line * 64) == ks)
  let s1 := if 256 ≤ mine.length then match mine.getLast? with
      | some l => s0.alcFlush l.line
      | none => s0
    else s0
  { s1 with keeper := { s1.keeper with alc := c :: s1.keeper.alc } }

/-- The 64-bit word of a line at a byte offset. -/
def lineWord (d : Line) (off : Nat) : BitVec 64 := d.extractLsb' (8 * off) 64
/-- The line with the 64-bit word at a byte offset replaced. -/
def lineSetWord (d : Line) (off : Nat) (w : BitVec 64) : Line :=
  mergeLine d (w.zeroExtend 512 <<< (8 * off)) (BitVec.ofNat 64 (0xFF * 2 ^ off))

/-- OP of a record (Table 2.24). -/
def recOp (r : BitVec 128) : Nat := bits r.toNat 115 112
/-- TARGET of a record. -/
def recTarget (r : BitVec 128) : Nat := bits r.toNat 111 64
/-- CSLOT of a record. -/
def recSlot (r : BitVec 128) : Nat := bits r.toNat 123 116
/-- OPERAND of a record. -/
def recOperand (r : BitVec 128) : BitVec 64 := r.extractLsb' 0 64

/-- A far-atomic operation on a line: the new line, whether it applied, and the old word (Table 2.25). -/
def atomApply (d : Line) (off : Nat) (r next : BitVec 128) : Line × Bool × BitVec 64 :=
  let w := lineWord d off
  let v := recOperand r
  match recOp r with
  | 1 => (lineSetWord d off (w + v), true, w)
  | 2 =>
    let lo := w.extractLsb' 0 32 + v.extractLsb' 0 32
    let hi := w.extractLsb' 32 32 + v.extractLsb' 32 32
    (lineSetWord d off (hi ++ lo), true, w)
  | 3 =>
    let d1 := lineSetWord d off (w + (v >>> 48))
    (lineSetWord d1 (off + 8) (lineWord d (off + 8) + (v &&& 0xFFFFFFFFFFFF)), true, w)
  | 4 => (lineSetWord d off v, true, w)
  | 5 => if w = v then (lineSetWord d off (recOperand next), true, w) else (d, false, w)
  | 6 => (lineSetWord d off (if v.toNat < w.toNat then v else w), true, w)
  | 7 => (lineSetWord d off (if w.toNat < v.toNat then v else w), true, w)
  | _ => (d, false, w)

/-- The slice behind a poster of records. -/
def State.posterSlice (s : State) (a : Agent) : Option Nat :=
  match a with
  | .dma c => (s.chan c).slice
  | .post sl => some sl
  | _ => none

/-- The completion area of a poster's slice. -/
def State.posterArea (s : State) (a : Agent) : Option Nat := ((s.posterSlice a).bind s.slice).bind (fun x => x.area)

/-- A poster's result slot in a completion area written: OLD, STATUS, and PHASE, which inverts on every write (R120). The area is
the one in force when the record was admitted (Table 9.2). -/
def State.resultSlot (s : State) (a : Agent) (area : Option Nat) (r : BitVec 128) (old : BitVec 64) (status : Nat) : State :=
  match s.posterSlice a, area with
  | some n, some base =>
    if recOp r ≠ 4 ∧ recOp r ≠ 5 then s
    else
      let i := 256 * n + recSlot r
      let ph := Tbl.get 1 s.keeper.slotPhase i
      let s1 := { s with keeper := { s.keeper with slotPhase := Tbl.set 1 s.keeper.slotPhase i (1 - ph) } }
      match s.sliceFpa n (base + 16 * recSlot r) with
      | some (_, fpa) => s1.modWrite .fw a fpa 16 (ph * 2 ^ 80 + status * 2 ^ 72 + old.toNat) none
      | none => s1
  | _, _ => s

/-- Location and port named by a fault of a record's poster (R121). -/
def State.posterLoc (s : State) (a : Agent) : Loc × Nat :=
  match a with
  | .dma c => (s.chLoc c, 0xFF)
  | .post sl => match (s.slice sl).bind (fun x => s.hostPort x.host) with
    | some p => (s.portLoc p, p)
    | none => (s.supLoc, 0xFF)
  | _ => (s.supLoc, 0xFF)

/-- An ATOMIC descriptor of a channel changed: the oldest one with a posted record not yet accounted for. -/
def State.modAtomic (s : State) (c : Nat) (f : Begun → Begun) : State :=
  s.modCh c (fun x => { x with begun := match x.begun.find? (fun b => decide (b.applied + b.refused < b.recs.length)) with
    | some b => x.begun.map (fun y => if y.num = b.num then f y else y)
    | none => x.begun })

/-- A record refused under R121: the reason goes to the result slot, whose old value is 0 (log 93), or a C1 fault ATOM_OP
(log 94) names the poster. -/
def State.refuseRec (s : State) (a : Agent) (area : Option Nat) (r : BitVec 128) (status : Nat) : State :=
  let s1 := match a with | .dma c => s.modAtomic c (fun b => { b with refused := b.refused + 1 }) | _ => s
  if recOp r = 4 ∨ recOp r = 5 then s1.resultSlot a area r 0 status
  else s1.fault 0x010C (s.posterLoc a).1 (s.posterLoc a).2

/-- The home's answer to a record that another module's proxy forwarded (R112, R120; log 103): DataS with the contents of the
result slot for SWAP64 and CAS64, else Cmp, or CmpPoison for one that was not applied. -/
def State.recAnswer (s : State) (m fpa : Nat) (r : BitVec 128) (old : BitVec 64) (status : Nat) : State :=
  if recOp r = 4 ∨ recOp r = 5 then s.toMod (.send (.mod m) 0x18 fpa false false false false 0 false (BitVec.ofNat 512 (status * 2 ^ 72 + old.toNat))) false
  else if status ≤ 1 then s.toMod (.send (.mod m) 0x14 fpa false false false false 0 false 0) false
  else s.toMod (.send (.mod m) 0x15 fpa false false false false 0 true 0) false

/-- A record refused at its home: another module is told, a local poster as R121 says. -/
def State.refuseAt (s : State) (q : QReq) (fpa status : Nat) : State :=
  let s1 := s.smpEnd q.r.src 0 (0, lineOf fpa) (if status = 4 then 5 else 1)
  match q.r.src with
  | .mod m => s1.recAnswer m fpa q.record 0 status
  | a => s1.refuseRec a q.area q.record status

/-- A record applied to a line that the atomic line cache holds (R112, R117). -/
def State.applyRec (s : State) (q : QReq) (c : CLine) : State :=
  let x := atomApply c.data (q.r.fpa % 64) q.record q.nextRec
  let s1 := (s.alcPut { c with data := x.1, dirty := true }).mark q.r.fpa
  let sl := s.posterSlice q.r.src
  let s1 := s1.count 0x47 (sliceHash q.r.fpa) 0 1
  let s2 := match q.r.src with | .dma ch => s1.modAtomic ch (fun b => { b with applied := b.applied + 1 }) | _ => s1
  let s3 := s2.sliceCnt sl 4 1
  let st := if x.2.1 then 0 else 1
  (match q.r.src with
    | .mod m => s3.recAnswer m q.r.fpa q.record x.2.2 st
    | _ => s3.resultSlot q.r.src q.area q.record x.2.2 st).landed q.r.src (lineOf q.r.fpa)

/-! ### Transactions -/

/-- The open transaction of a line. -/
def State.txn (s : State) (line : Nat) : Option Txn := s.keeper.txns.find? (fun t => t.line == line)
/-- A transaction has a memory read open. -/
def Txn.reads (t : Txn) : Bool := t.stage == .memRd || t.reading
/-- A transaction written back. -/
def State.setTxn (s : State) (t : Txn) : State :=
  { s with keeper := { s.keeper with txns := s.keeper.txns.map (fun x => if x.line = t.line then t else x) } }
/-- A transaction closed (R93). -/
def State.closeTxn (s : State) (line : Nat) : State :=
  { s with keeper := { s.keeper with txns := s.keeper.txns.filter (fun x => x.line != line) } }

/-- A request that reads for a shared copy, or is treated so. -/
def QReq.tracks (q : QReq) : Bool := q.kind == .rds && ! q.r.nt && q.r.src.caching

/-- The line's directory record after a transaction: exclusive at an agent, or its line state and an agent added. -/
def State.record (s : State) (fpa : Nat) (f : DEnt → DEnt) : State :=
  let e := (s.dent fpa).getD (DEnt.new (! s.homed fpa) (tagOf fpa))
  s.putDent fpa (f e)

/-- The entry with line `i` at I: a new one where no other line is held. -/
def DEnt.cleared (e : DEnt) (i : Nat) : DEnt :=
  let e0 := (e.setLs i 0).tidy
  if e0.isFree then DEnt.new e.px e.tag else e0

/-- Line `i` exclusive at an agent: Xn in a home entry (Table 2.4), XHn in a proxy entry (Table 2.21). -/
def DEnt.ownX (e : DEnt) (i : Nat) (a : Agent) : DEnt :=
  let e1 := (e.cleared i).addAgent a
  match e1.ptrIdx (agentId a) with
  | some n => e1.setLs i (n + (if e.px then 5 else 2))
  | none => e1.setLs i 1

/-- Line `i` shared, with an agent added. -/
def DEnt.share (e : DEnt) (i v : Nat) (a : Agent) : DEnt :=
  (if a.caching then e.addAgent a else e).setLs i v

/-- The entry as a transaction rewrites it: recalled whole, it is a new one (R75). -/
def Txn.base (t : Txn) (e : DEnt) : DEnt := if t.narrow then DEnt.new e.px e.tag else e

/-- The line as a poisoned grant of ownership leaves it: every other holder has answered, and the requester keeps at
most the copy it had (log 11). -/
def Txn.spoilt (t : Txn) (e : DEnt) (i : Nat) : DEnt :=
  let e0 := (t.base e).cleared i
  if t.held then e0.share i 1 t.q.r.src else e0

/-- The line as the owner's answer to a read leaves it (Table 2.11): an owner that kept O or S stays, one that is now I
leaves the record, and sharers of an O line stay. -/
def Txn.afterRead (t : Txn) (e : DEnt) (i : Nat) : DEnt :=
  match ownerIdx false t.st with
  | none => e
  | some n =>
    if t.ownerKept then e.setLs i (n + 5)
    else if t.kept ≠ [] then e.setLs i 1
    else match agentOf (e.ptr n) with
      | some a => e.drop i a
      | none => e.setLs i 0

/-- A cell of a DMA channel's or module's bulk write of a line. -/
def Cell.bulkOf (c : Cell) (a : Agent) (line : Nat) : Bool := match c.load with | .blk b => b.src == a && b.line == line | _ => false

/-- The first element of a list that meets a test, changed. -/
def modFirst {α : Type} (p : α → Bool) (f : α → α) (l : List α) : List α :=
  match l with
  | [] => []
  | x :: r => if p x then f x :: r else x :: modFirst p f r

/-- The BLK cell of a bulk write that ends without it is discarded where it waits, or when it arrives. -/
def State.blkUnused (s : State) (a : Agent) (line : Nat) : State :=
  let x := s.xbar
  let mine := fun (c : Cell) => c.bulkOf a line
  let dump := fun (c : Cell) => ({ c with load := .head } : Cell)
  match x.bulk.find? mine with
  | some c => { s with xbar := { x with bulk := x.bulk.erase c } }
  | none =>
    if x.gone.contains (a, line) then { s with xbar := { x with gone := x.gone.erase (a, line) } }
    else if x.spillQ.any (fun e => mine e.2.2) then { s with xbar := { x with spillQ := modFirst (fun e => mine e.2.2) (fun e => (e.1, e.2.1, dump e.2.2)) x.spillQ } }
    else if x.held.any mine then { s with xbar := { x with held := modFirst mine dump x.held } }
    else if x.flying.any (fun e => mine e.2.2) then { s with xbar := { x with flying := modFirst (fun e => mine e.2.2) (fun e => (e.1, e.2.1, dump e.2.2)) x.flying } }
    else if x.voq.any mine then { s with xbar := { x with voq := modFirst mine dump x.voq } }
    else if a.isMod then { s with xbar := { x with spare := x.spare ++ [(a, line)] } }
    else s

/-- A bulk write that ends without having been released drops its BLK cell. -/
def State.blkDrop (s : State) (q : QReq) : State := if q.bulk then s.blkUnused q.r.src (lineOf q.r.fpa) else s

/-- The final message of a transaction and its close; a module's grant waits for its Cmp (R93). -/
def State.finish (s : State) (t : Txn) (g : Grant) (d : Line) : State :=
  let fpa := t.line * 64
  if t.q.r.src.caching ∧ ¬ s.attached t.q.r.src then
    -- the requester has gone before its grant: the line is as if it held I, and a dirty grant leaves it poisoned (R126)
    let s1 := s.record fpa (fun e => e.drop (bits fpa 7 6) t.q.r.src)
    (if g = .dataM then s1.sideWr fpa 0 true else s1).closeTxn t.line
  else
  -- a grant of X, E or M is an event of the dirty logs (R453)
  let s := if t.stage = .memWr ∨ ¬ s.homed fpa then s else s.blkDrop t.q
  let excl := g == .dataE || g == .dataM || (t.q.kind == .upg && (g == .cmp || g == .cmpE))
  let s0 := if excl ∧ s.homed fpa then s.mark fpa else s
  let s1 := s0.grant t.q.r.src g fpa d
  let waitAck := t.q.r.src.isMod && ! t.q.r.nt && (t.q.kind == .rds || t.q.kind == .rdx || t.q.kind == .upg)
  if waitAck then s1.setTxn { t with stage := .ack, grant := g } else s1.closeTxn t.line

/-- A line marked poisoned in memory (R123). -/
def State.poisonMem (s : State) (fpa : Nat) : State := s.sideWr fpa 0 true

/-- The transaction goes on to a memory read whose data makes the grant; one already issued is waited for. -/
def State.thenRead (s : State) (t : Txn) (g : Grant) : State :=
  let s1 := s.setTxn { t with stage := .memRd, reading := false, grant := g }
  if t.reading then s1 else s1.memRd (t.line * 64)

/-- Requester of a write of a DMA burst at its port's arbiter: the cluster of its channel, or the trunk port it came by (Table 3.8). -/
def State.bulkReq (s : State) (a : Agent) : Nat :=
  match a with
  | .dma c => 32 + c / 8
  | .mod m => 40 + (s.trunkTo m).getD 0
  | _ => 32

/-- The transaction goes on to a memory write, then its grant. The write of a DMA burst is released instead: its BLK data waits at the
port (Table 1.8 step 8, R50, R154). -/
def State.thenWrite (s : State) (t : Txn) (g : Grant) (en : BitVec 64) (d : Line) (psn : Bool) : State :=
  let fpa := t.line * 64
  let s1 := s.setTxn { t with stage := .memWr, reading := false, grant := g, dirty := some d }
  if t.q.bulk then
    let r : Rel := { req := s.bulkReq t.q.r.src, src := t.q.r.src, acc := s.wrAcc fpa en d psn .txn, old := t.dirty }
    ({ s1 with xbar := { s1.xbar with rel := s1.xbar.rel ++ [r] } } : State).mark fpa
  else (s1.memWr fpa en d psn .txn).mark fpa

/-- Data read from memory makes the grant. A poisoned read marks the line (R193) and grants nothing: an exclusive record of the requester is taken
back (log 11). -/
def State.readDone (s : State) (t : Txn) (psn : Bool) (d : Line) : State :=
  if psn then
    let fpa := t.line * 64
    let i := bits fpa 7 6
    let s1 := match s.dent fpa with
      | some e => if (s.mayHold e i fpa).any (fun x => x.1 == t.q.r.src && x.2) then s.putDent fpa (t.spoilt e i) else s
      | none => s
    (s1.poisonMem fpa).finish t .poison 0
  else s.finish t t.grant d

/-- The transaction once every snoop it needs has answered: the rest of its row of Table 2.11. -/
def State.proceed (s : State) (t : Txn) : State :=
  let fpa := t.line * 64
  let i := bits fpa 7 6
  let r := t.q.r.src
  let mo := r.isMod
  match t.q.kind with
  | .rds =>
    if t.psn then ((s.poisonMem fpa).record fpa (fun e => t.afterRead e i)).finish t .poison 0
    else
      let s1 := s.record fpa (fun e =>
        let e := t.afterRead e i
        if t.q.tracks then e.share i (if e.ls i = 0 then 1 else e.ls i) r else e)
      -- RdS from a module on an untracked line: E where R98 allows, and only S of a SUSPECT extent (R238)
      let wantE := mo && t.st == 0 && ! t.q.r.nt && (s.ext (extOf fpa)).state != .suspect && (match s.dent fpa with
        | none => true
        | some e => e.mode == 0 && e.hasRoom r)
      match t.dirty with
      | some d =>
        if t.ownerKept then s1.finish t .dataS d
        else s1.thenWrite t .dataS allBytes d false
      | none =>
        if wantE then (s.record fpa (fun e => e.ownX i r)).thenRead t .dataE else s1.thenRead t .dataS
  | .rdx =>
    if t.psn then ((s.poisonMem fpa).record fpa (fun e => t.spoilt e i)).finish t .poison 0
    else
      let s1 := s.record fpa (fun e => (t.base e).ownX i r)
      match t.dirty with
      | some d => if mo then s1.finish t .dataM d else s1.thenWrite t .dataE allBytes d false
      | none => match t.early with
        | some x => s1.readDone { t with grant := .dataE } x.2 x.1
        | none => s1.thenRead t .dataE
  | .upg =>
    let s1 := s.record fpa (fun e => (t.base e).ownX i r)
    let g : Grant := match r with | .host _ => .cmpE | _ => .cmp
    -- a module sharer has the data itself and takes the dirty role
    if t.psn then
      if mo then (s1.poisonMem fpa).finish t g 0
      else ((s.poisonMem fpa).record fpa (fun e => (t.base e).cleared i)).finish t .cmpI 0
    else match t.dirty with
      | some d => if mo then s1.finish t g 0 else s1.thenWrite t g allBytes d false
      | none => s1.finish t g 0
  | .wrInvFull =>
    ((s.record fpa (fun e => e.setLs i 0)).alcDrop t.line).thenWrite t .cmp allBytes t.q.r.data t.q.psn
  | .wrInvPart =>
    let s1 := s.record fpa (fun e => e.setLs i 0)
    if t.q.psn then s1.thenWrite t .cmp allBytes 0 true else
    match s.alc t.line, t.dirty with
    | some c, _ => ((s1.alcPut { c with data := mergeLine c.data t.q.r.data t.q.r.mask, dirty := true }).mark fpa).finish t .cmp 0
    | none, some d => s1.thenWrite t .cmp allBytes (mergeLine d t.q.r.data t.q.r.mask) t.psn
    | none, none => s1.thenWrite t .cmp t.q.r.mask t.q.r.data t.psn
  | .atomOp =>
    let s1 := s.record fpa (fun e => e.setLs i 0)
    -- a record whose payload is poisoned is refused as one of a poisoned line (R121, R133)
    if t.q.psn then (s1.refuseAt t.q fpa 3).finish t .none 0
    else if t.psn then ((s1.poisonMem fpa).refuseAt t.q fpa 3).finish t .none 0
    else match s.alc t.line, t.dirty with
    | some c, _ => (s1.applyRec t.q c).closeTxn t.line
    | none, some d => (s1.applyRec t.q { line := t.line, data := d, dirty := true }).closeTxn t.line
    | none, none => (s1.setTxn { t with stage := .memRd }).memRd fpa
  | .evict =>
    (match s.dent fpa with | some e => s.putDent fpa (e.drop i r) | none => s).closeTxn t.line

/-- Every snoop of a transaction's line has answered. -/
def State.quiet (s : State) (own : WOwner) (line : Nat) : Bool :=
  ! s.keeper.waits.any (fun w => w.own == own && w.forLine == line)

/-- Snoops of a transaction sent; with none needed it proceeds at once. -/
def State.snoopThen (s : State) (t : Txn) (kind : SnpKind) (nd : Bool) (as : List Agent) : State :=
  let s1 := (s.setTxn { t with stage := .snoop }).snoop .txn t.line kind nd (as.map (fun a => (a, t.line)))
  if s1.quiet .txn t.line then s1.proceed { t with stage := .snoop } else s1

/-- The sector recalled from every agent the entry covers, but for the requester's own copy of the line; the entry is
rewritten once they have answered (R74, R75). -/
def State.narrowThen (s : State) (t : Txn) (e : DEnt) : State :=
  let sec := t.line / 4 * 4
  let as := [0, 1, 2, 3].flatMap (fun j => ((s.mayHold e j (sec * 64)).filterMap (fun x =>
    if x.1 == t.q.r.src && sec + j == t.line then none else some (x.1, sec + j))))
  let t1 : Txn := { t with stage := .snoop, narrow := true }
  let s1 := (s.setTxn t1).snoop .txn t.line .recall false as
  if s1.quiet .txn t.line then s1.proceed t1 else s1

/-- A request for ownership goes on: its snoops, with the memory read beside them where memory is current (Table 2.13).
A module that is itself recorded as owner is snooped for a RdX, as A is (log 84). -/
def State.beginX (s : State) (t : Txn) (e : DEnt) : State :=
  let fpa := t.line * 64
  let i := bits fpa 7 6
  let r := t.q.r.src
  let v := e.ls i
  let holders := s.mayHold e i fpa
  let owner := (holders.find? (fun x => x.2)).map (·.1)
  if e.mode ≠ 0 ∨ ¬ e.hasRoom r then s.narrowThen t e
  else if t.q.kind = .upg then
    s.snoopThen t .inv (r.isMod && decide (5 ≤ v) && owner != some r) ((holders.filter (fun x => x.1 != r)).map (·.1))
  else
    let as := (holders.filter (fun x => x.1 != r || (x.2 && r.isMod))).map (·.1)
    if v = 1 ∧ as ≠ [] then (s.memRd fpa).snoopThen { t with reading := true } .inv false as
    else s.snoopThen t .inv false as

/-- A home transaction begins: its row of Table 2.11 up to the snoops it sends. -/
def State.begin_ (s : State) (t : Txn) : State :=
  let fpa := t.line * 64
  let i := bits fpa 7 6
  let q := t.q
  let r := q.r.src
  let e := (s.dent fpa).getD (DEnt.new (! s.homed fpa) (tagOf fpa))
  let v := e.ls i
  let holders := s.mayHold e i fpa
  let owner := (holders.find? (fun x => x.2)).map (·.1)
  let absentX := match owner with
    | some a => ! s.present a && ! (match a with | .host h => s.hostRO h fpa | _ => false)
    | none => false
  let isHolder := holders.any (fun x => x.1 == r)
  let t : Txn := { t with st := v, psn := absentX && owner ≠ some r, held := isHolder && owner != some r }
  match q.kind with
  | .evict => s.proceed t
  | .rds =>
    match s.alc t.line, owner with
    | some c, _ =>
      -- served from the atomic line cache, which counts as a use (R113, Table 2.23)
      (if q.tracks then (s.alcPut c).record fpa (fun e => e.share i 1 r) else s.alcPut c).finish t .dataS c.data
    | none, some a =>
      -- a host or device that reads a line it owns has dropped it; a module may hold it through a local agent (log 84)
      if a = r ∧ ¬ a.isMod then s.snoopThen t .shr false []
      else s.snoopThen t (if a.isMod then .data else .shr) false [a]
    | none, none => s.snoopThen t .inv false []
  | .rdx => s.beginX t e
  | .upg =>
    if ¬ isHolder ∧ ¬ r.isMod then
      -- a host or device no longer recorded is granted I (R101)
      s.finish t .cmpI 0
    else if owner = some r ∧ v < 5 then s.finish t (match r with | .host _ => .cmpE | _ => .cmp) 0
    else s.beginX (if isHolder then t else { t with q := { q with kind := .rdx } }) e
  | .wrInvFull => s.snoopThen { t with psn := false } .inv (owner.isSome) (holders.map (·.1))
  | .wrInvPart | .atomOp => s.snoopThen t .inv false (holders.map (·.1))

/-- The request must add an agent to a PTR-mode entry that has no room for it (R74): a tracked RdS, a RdX, or an Upg of a
module. -/
def State.needsShare (s : State) (q : QReq) : Bool :=
  match s.dent q.r.fpa with
  | none => false
  | some e => e.mode == 0 && q.r.src.caching && ! e.hasRoom q.r.src
      && ((q.kind == .rds && ! q.r.nt) || q.kind == .rdx || (q.kind == .upg && q.r.src.isMod))

/-- The entry once the holders of every Xn or On line are in S: a request for ownership finds it in CHOST or BCAST mode, with
the requester added (R74, R75). -/
def DEnt.shared (e : DEnt) (q : QReq) : DEnt :=
  let e1 := [0, 1, 2, 3].foldl (fun e j => if (ownerIdx e.px (e.ls j)).isSome then e.setLs j 1 else e) e
  if q.kind = .rds then e1 else e1.addAgent q.r.src

/-- A transaction opens for a request (R90). -/
def State.open_ (s : State) (q : QReq) : State :=
  let line := lineOf q.r.fpa
  let t : Txn := { line := line, q := q, stage := .snoop, st := 0, dirty := none, kept := [], ownerKept := false, psn := false, grant := .none }
  let a := s.alc line
  let s := if q.kind = .atomOp ∧ a.isNone then (s.opened q).count 0x48 (sliceHash q.r.fpa) 0 1 else s.opened q
  let s := if a.isSome ∧ (q.kind = .rds ∨ q.kind = .atomOp) then s.smpNote q.r.src 0 (0, line) (fun y => { y with alc := true }) else s
  -- an Evict has no completion
  let s := if q.kind = .evict then s.smpEnd q.r.src 0 (0, line) 0 else s
  let s := if a.isSome ∧ (q.kind = .rdx ∨ q.kind = .upg) then s.alcFlush line else s
  -- an Upg of a line of the atomic line cache is served as in state I (Table 2.23)
  let t : Txn := if a.isSome ∧ q.kind = .upg ∧ q.r.src.isMod then { t with q := { q with kind := .rdx } } else t
  let s1 := { s with keeper := { s.keeper with txns := s.keeper.txns ++ [t] } }
  if a.isSome ∧ q.kind = .upg ∧ ¬ q.r.src.isMod then
    (match s1.dent q.r.fpa with
      | some e => s1.putDent q.r.fpa (e.drop (bits q.r.fpa 7 6) q.r.src)
      | none => s1).finish t .cmpI 0
  else
  if s1.needsShare q then
    match s1.dent q.r.fpa with
    | none => s1.begin_ t
    | some e =>
      let as := [0, 1, 2, 3].filterMap (fun j => match ownerIdx e.px (e.ls j) with
        | some n => (agentOf (e.ptr n)).map (fun a => (a, line / 4 * 4 + j))
        | none => none)
      let s2 := (s1.setTxn { t with stage := .share }).snoop .txn line .shr false as
      if s2.quiet .txn line then
        (s2.record q.r.fpa (fun e => e.shared q)).begin_ t
      else s2
  else s1.begin_ t

/-- Ways of a set pinned by open transactions (R94). -/
def State.pinned (s : State) (ks set : Nat) (e : DEnt) : Bool :=
  let sec := sectorFpa ks set e.tag
  s.keeper.txns.any (fun t => t.line / 4 == sec / 256)

/-- A request needs a directory entry (R95). -/
def QReq.needsEntry (q : QReq) : Bool :=
  match q.kind with
  | .rds => ! q.r.nt && q.r.src.caching
  | .rdx => q.r.src.caching
  -- a host or device that no entry names is granted I and needs none
  | .upg => q.r.src.isMod
  | _ => false

/-- The way of a full set that leaves: the least recently used one that is not pinned and whose sector is not being
snooped by its home (R96, log 84). -/
def State.victimWay (s : State) (fpa : Nat) : Option DEnt :=
  let ks := sliceHash fpa
  let set := setOf fpa
  ((Tbl.get [] s.keeper.dir (dirKey fpa)).filter (fun e => ! s.pinned ks set e
    && ! s.keeper.psnoops.any (fun p => p.line / 4 == sectorFpa ks set e.tag / 256))).getLast?

/-- A line of the remote line cache. -/
def State.rlc (s : State) (line : Nat) : Option CLine := s.keeper.rlc.find? (fun c => c.line == line)

/-- The line out of the remote line cache. -/
def State.rlcDrop (s : State) (line : Nat) : State :=
  { s with keeper := { s.keeper with rlc := s.keeper.rlc.filter (fun c => c.line != line) } }

/-- A write-back to the home module: WbData with K, its completion to come; none to a home that is lost (R302). -/
def State.wbHome (s : State) (line : Nat) (k : Bool) (d : Line) (psn : Bool) : State :=
  if s.hier.lost.contains (homeOf (line * 64)) then s
  else
  let s1 := s.toMod (.send (.mod (homeOf (line * 64))) 0x1C (line * 64) false false k false 0 psn d) false
  { s1 with keeper := { s1.keeper with wbs := s1.keeper.wbs ++ [(.mod s.glob.midx, line)] } }

/-- An Evict to the home module. -/
def State.evictHome (s : State) (line : Nat) : State :=
  if s.hier.lost.contains (homeOf (line * 64)) then s else s.toMod (.send (.mod (homeOf (line * 64))) 0x06 (line * 64) false false false false 0 false 0) false

/-- Lines of an evicted proxy entry leave once its holders have answered: cached data by WbData or Evict, a line held
without data by Evict (R111). A line whose write-back is on its way has left. -/
def State.sectorLeaves (s : State) (sec : Nat) (e : DEnt) : State :=
  if e.px then
    [0, 1, 2, 3].foldl (fun s j =>
      let l := sec * 4 + j
      match s.rlc l with
      | some c => if c.dirty then (s.rlcDrop l).wbHome l false c.data false else (s.rlcDrop l).evictHome l
      | none => if e.ls j ≠ 0 ∧ ¬ s.keeper.wbs.contains (.mod s.glob.midx, l) then s.evictHome l else s) s
  else s

/-- An entry leaves its set for a victim buffer (R96): the way is freed and every holder it covers is recalled. -/
def State.toVictim (s : State) (sec : Nat) (e : DEnt) : State :=
  let ks := sliceHash sec
  let s := s.count 0x43 ks 0 1
  let s1 := { s with keeper := { s.keeper with
    dir := Tbl.set [] s.keeper.dir (dirKey sec) ((Tbl.get [] s.keeper.dir (dirKey sec)).filter (fun x => x != e)),
    victims := s.keeper.victims ++ [(ks, sec / 256, e)] } }
  let as := [0, 1, 2, 3].flatMap (fun j => (s.mayHold e j sec).map (fun x => (x.1, sec / 64 + j)))
  let s2 := s1.snoop .victim (sec / 64) .recall false as
  if s2.quiet .victim (sec / 64) then
    ({ s2 with keeper := { s2.keeper with victims := s2.keeper.victims.filter (fun v => v.2.1 != sec / 256) } } : State).sectorLeaves (sec / 256) e
  else s2

/-- The least recently used unpinned way of a full set leaves (R96). -/
def State.evictWay (s : State) (fpa : Nat) : State :=
  match s.victimWay fpa with
  | none => s
  | some e => s.toVictim (sectorFpa (sliceHash fpa) (setOf fpa) e.tag) e

/-- Sectors of a set, by number FPA / 256, with an open transaction that has or will have an entry: each pins a way (R94). -/
def State.pinnedSectors (s : State) (fpa : Nat) : List Nat :=
  addAll ((s.keeper.txns.filter (fun t => dirKey (t.line * 64) == dirKey fpa && (t.q.needsEntry || (s.dent (t.line * 64)).isSome))).map (fun t => t.line / 4)) []

/-- A request would pin a thirteenth way of its set (R94). -/
def State.pinWait (s : State) (q : QReq) : Bool :=
  let pins := s.pinnedSectors q.r.fpa
  (q.needsEntry || (s.dent q.r.fpa).isSome) && decide (12 ≤ pins.length) && ! pins.contains (lineOf q.r.fpa / 4)

/-- A request allocates an entry in a full set (R96): every way holds an entry, or is kept for an open transaction that will add one. -/
def State.allocates (s : State) (q : QReq) : Bool :=
  let ways := Tbl.get [] s.keeper.dir (dirKey q.r.fpa)
  let kept := (s.pinnedSectors q.r.fpa).filter (fun x => (s.dent (x * 256)).isNone)
  q.needsEntry && (s.dent q.r.fpa).isNone && ! kept.contains (lineOf q.r.fpa / 4) && decide (16 ≤ ways.length + kept.length)

/-- A request cannot open a transaction yet and enters the conflict queue (R91, R94, R55). -/
def State.mustQueue (s : State) (q : QReq) : Bool :=
  let line := lineOf q.r.fpa
  let ks := sliceHash q.r.fpa
  (s.txn line).isSome
  || s.keeper.victims.any (fun v => v.2.1 == line / 4)
  || decide (2048 ≤ (s.keeper.txns.filter (fun t => sliceHash (t.line * 64) == ks)).length)
  || s.pinWait q
  || (s.allocates q && ((s.victimWay q.r.fpa).isNone || decide (64 ≤ (s.keeper.victims.filter (fun v => v.1 == ks)).length)))
  -- a slice that is drained or reset serves again when the reset ends (R55, R56)
  || s.svc.resets.any (fun r => (locSlices r.loc).contains ks)
  || s.keeper.sweeps.any (fun w => w.why == 3 && w.arg == ks)
  || (match s.pool.evac with
      | some v => v.e == extOf q.r.fpa && s.homed q.r.fpa && decide (4 ≤ v.step)
          && (q.kind == .wrInvFull || q.kind == .wrInvPart || q.kind == .atomOp || q.kind == .rdx || q.kind == .upg)
      | none => false)

/-- A request put into its slice's conflict queue; no request reaches a slice whose queue is full (R91, R92, State.slotFree). -/
def State.enqueue (s : State) (q : QReq) : State :=
  let ks := sliceHash q.r.fpa
  let s := (s.count 0x41 ks 0 1).count 0x42 ks 0 (b2n (s.pinWait q))
  let s1 := s.smpNote q.r.src 0 (0, lineOf q.r.fpa) (fun y => { y with queued := true })
  { s1 with keeper := { s1.keeper with cq := s1.keeper.cq ++ [{ q with queued := true }] } }

/-- A request completed with poison, or a write completed without effect on memory beyond its poison (R37, R56). -/
def State.poisonReply (s : State) (q : QReq) : State :=
  match q.kind with
  | .rds | .rdx => s.grant q.r.src .poison q.r.fpa 0
  | .upg => s.grant q.r.src .cmpI q.r.fpa 0
  | .atomOp => (s.refuseAt q q.r.fpa 3).landed q.r.src (lineOf q.r.fpa)
  | .evict => s
  | _ => (s.blkDrop q).grant q.r.src .cmp q.r.fpa 0

/-- A request of an extent this module cannot serve: FAILED extents answer poison and drop writes, and
SUSPECT extents refuse writes and ownership (R238). -/
def State.extRule (s : State) (q : QReq) : Option State :=
  let x := s.ext (extOf q.r.fpa)
  let failed := s.smpEnd q.r.src 0 (0, lineOf q.r.fpa) 5
  match x.state with
  | .failed =>
    let s := failed
    some (match q.kind with
      | .rds | .rdx => s.grant q.r.src .poison q.r.fpa 0
      | .atomOp => (s.refuseAt q q.r.fpa 4).landed q.r.src (lineOf q.r.fpa)
      | .upg => s.grant q.r.src .cmpI q.r.fpa 0
      | .evict => s
      | _ => (s.blkDrop q).grant q.r.src .cmp q.r.fpa 0)
  | .suspect => match q.kind with
    | .wrInvFull | .wrInvPart => some ((s.blkDrop q).grant q.r.src .cmp q.r.fpa 0)
    | .atomOp => some ((s.refuseAt q q.r.fpa 4).landed q.r.src (lineOf q.r.fpa))
    | _ => none
  | _ => none

/-- A request for ownership of a SUSPECT extent is served as RdS (R238). -/
def State.softened (s : State) (q : QReq) : QReq :=
  if (s.ext (extOf q.r.fpa)).state = .suspect ∧ (q.kind = .rdx ∨ q.kind = .upg) then { q with kind := .rds } else q

/-- An earlier request for the line is still queued: requests for one line leave the queue in arrival order (R91). -/
def State.queuedLine (s : State) (q : QReq) : Bool :=
  s.keeper.cq.any (fun x => lineOf x.r.fpa == lineOf q.r.fpa)

/-- A request admitted at its home slice, anew or (`again`) out of the conflict queue (R90 to R98, R37). -/
def State.homeAdmit (s : State) (q0 : QReq) (again : Bool) : State :=
  let q := s.softened q0
  if s.svc.stoppedSlices.contains (sliceHash q.r.fpa) then s.poisonReply q
  else match s.extRule q with
  | some s1 => s1
  | none =>
    if s.mustQueue q || (! again && s.queuedLine q) then s.enqueue q
    else
      (if s.allocates q then s.evictWay q.r.fpa else s).open_ q

end Sys2Proof.Machine
end

