-- ==== Sys2Proof/Machine/Proxy.lean ====
section
/-! DEFINITION. The other half of the keeper slices: answers to snoops, expander data and completions, write-backs, sweeps, poison by lost holders, and the proxy side with the remote line cache (chapter 2). -/
namespace Sys2Proof.Machine

/-! ### The remote line cache (R107, R110) -/

/-- Local agents may hold a line of a proxy entry. -/
def DEnt.localHold (e : DEnt) : Bool := e.mode != 0 || e.p0 != 0xFF || e.p1 != 0xFF || e.p2 != 0xFF

/-- The remote line cache evicts a line (R110). -/
def State.rlcEvict (s : State) (c : CLine) : State :=
  let fpa := c.line * 64
  let i := bits fpa 7 6
  let s0 := s.rlcDrop c.line
  match s0.dent fpa with
  | none => s0
  | some e =>
    let v := e.ls i
    if 3 ≤ v ∧ v ≤ 4 then
      let k := e.localHold
      (s0.putDent fpa (e.setLs i (if k then 1 else 0))).wbHome c.line k c.data false
    else if 5 ≤ v then s0
    else if e.localHold then s0
    else (s0.putDent fpa (e.setLs i 0)).evictHome c.line

/-- Set of the remote line cache a line falls in: 2,048 sets per slice (R107; its index is log 10). -/
def rlcSet (line : Nat) : Nat := 2048 * sliceHash (line * 64) + line % 2048

/-- A cached line is the newest copy beside a local agent that holds it exclusively. R110 has no case for it, so it is
not chosen to leave (log 84). -/
def State.rlcPinned (s : State) (c : CLine) : Bool := c.dirty && decide (5 ≤ s.lineSt (c.line * 64))

/-- The entry of a cached line whose sector can leave for a victim buffer: none of its lines has an open transaction or a home
snoop, and a buffer is free. -/
def State.rlcVictim (s : State) (c : CLine) : Option DEnt :=
  if s.keeper.txns.any (fun t => t.line / 4 == c.line / 4) ∨ s.keeper.psnoops.any (fun p => p.line / 4 == c.line / 4)
    ∨ 64 ≤ (s.keeper.victims.filter (fun v => v.1 == sliceHash (c.line * 64))).length then none
  else s.dent (c.line * 64)

/-- A line put into the remote line cache; of eight ways the line put least recently that is not pinned leaves (R107, R110;
log 92). Where all eight are pinned a clean line is not cached, and for a dirty one the entry of a pinned line leaves for a
victim buffer (R111), which holds the line until its owner has answered (log 84). -/
def State.rlcPut (s : State) (c : CLine) : State :=
  let s0 := s.rlcDrop c.line
  let put := fun (s : State) => ({ s with keeper := { s.keeper with rlc := c :: s.keeper.rlc } } : State)
  let mine := s0.keeper.rlc.filter (fun x => rlcSet x.line == rlcSet c.line && ! s0.keeper.victims.any (fun v => v.2.1 == x.line / 4))
  if mine.length < 8 then put s0
  else match (mine.filter (fun x => ! s0.rlcPinned x)).getLast? with
    | some l => put (s0.rlcEvict l)
    | none =>
      if ¬ c.dirty then s0
      else match mine.reverse.findSome? (fun x => (s0.rlcVictim x).map (fun e => (x, e))) with
        | some y => put (s0.toVictim (y.1.line / 4 * 256) y.2)
        | none => put s0

/-- A proxy entry without a local holder of a line: a line that was exclusive at it is M where dirty data is cached, else E. -/
def State.dropAt (s : State) (e : DEnt) (i line : Nat) (a : Agent) : DEnt :=
  let e1 := e.drop i a
  if e.px && decide (5 ≤ e.ls i) && e1.ls i == 2 && (s.rlc line).any (fun c => c.dirty) then e1.setLs i 3 else e1

/-- A remote line whose local owner is lost: its home receives a poisoned write-back, and the module holds it no more. -/
def State.lineSpoilt (s : State) (line : Nat) : State :=
  let fpa := line * 64
  let s1 := (s.rlcDrop line).wbHome line false 0 true
  match s1.dent fpa with
  | some e => s1.putDent fpa (e.setLs (bits fpa 7 6) 0)
  | none => s1

/-! ### The proxy's answer to a home snoop (R109) -/

/-- An answer to the home: the response with DP, and its data. -/
def State.answerHome (s : State) (line rsp : Nat) (dat : Option (Nat × Line)) : State :=
  let fpa := line * 64
  let h := Agent.mod (homeOf fpa)
  let s1 := s.toMod (.send h rsp fpa dat.isSome false false false 0 false 0) false
  match dat with
  | some (op, d) => s1.toMod (.send h op fpa false false false false 0 false d) false
  | none => s1

/-- The proxy answers once its local holders have (Table 2.22). -/
def State.proxyAnswer (s : State) (p : PSnoop) : State :=
  let fpa := p.line * 64
  let i := bits fpa 7 6
  let s := { s with keeper := { s.keeper with psnoops := s.keeper.psnoops.filter (fun x => x.line != p.line) } }
  let e := (s.dent fpa).getD (DEnt.new true (tagOf fpa))
  let v := e.ls i
  if p.wb then ((s.rlcDrop p.line).putDent fpa (e.setLs i 0)).answerHome p.line 0x13 none else
  let cached := match s.rlc p.line with | some c => if c.dirty then some c.data else none | none => none
  let d := match p.data with | some d => some d | none => cached
  -- a local holder is lost with its data, or its data is poisoned: a poisoned write-back goes ahead of the answer (log 84)
  if p.psn ∧ ¬ p.nd then (((s.rlcDrop p.line).putDent fpa (e.setLs i 0)).wbHome p.line false 0 true).answerHome p.line 0x13 none
  else match p.kind with
  | .inv | .recall =>
    let s1 := (s.rlcDrop p.line).putDent fpa (e.setLs i 0)
    s1.answerHome p.line 0x10 (if p.nd then none else d.map (fun x => (0x1A, x)))
  | .data =>
    if v = 0 then s.answerHome p.line 0x10 none
    else match d with
      | some x => ((s.putDent fpa (e.setLs i 4)).rlcPut { line := p.line, data := x, dirty := true }).answerHome p.line 0x12 (some (0x1B, x))
      | none => (s.putDent fpa (e.setLs i 1)).answerHome p.line 0x11 none
  | .shr =>
    if v = 0 then s.answerHome p.line 0x10 none
    else match d with
      | some x => ((s.putDent fpa (e.setLs i 1)).rlcPut { line := p.line, data := x, dirty := false }).answerHome p.line 0x11 (some (0x18, x))
      | none => (s.putDent fpa (e.setLs i 1)).answerHome p.line 0x11 none

/-- A home's snoop of one line reaches the proxy: local holders first, then the answer (R83, R103, R109). -/
def State.proxySnoop (s : State) (kind : SnpKind) (nd : Bool) (line : Nat) : State :=
  let fpa := line * 64
  let i := bits fpa 7 6
  let e := (s.dent fpa).getD (DEnt.new true (tagOf fpa))
  -- a WbData that left the module in S is on its way: the answer is RspWbPend, and the module goes to I (Table 2.8, R103, R104)
  let wb := s.keeper.wbs.contains (.mod s.glob.midx, line)
  let kind := if wb ∧ e.ls i = 1 then .inv else kind
  let p : PSnoop := { line := line, kind := kind, nd := nd, data := none, kept := false, psn := false, wb := wb && e.ls i == 1 }
  if wb ∧ e.ls i = 0 then s.answerHome line 0x13 none
  -- its local holders are being recalled for the directory: the answer follows theirs
  else if s.keeper.victims.any (fun v => v.2.1 == line / 4) then { s with keeper := { s.keeper with psnoops := s.keeper.psnoops ++ [p] } }
  else
    let hs := s.mayHold e i fpa
    let as : List Agent := match kind with
      | .inv | .recall => hs.map (·.1)
      | _ => (hs.filter (·.2)).map (·.1)
    let s1 := { s with keeper := { s.keeper with psnoops := s.keeper.psnoops ++ [p] } }
    let s2 := s1.snoop .proxy line (if kind = .inv ∨ kind = .recall then .inv else .shr) nd (as.map (fun a => (a, line)))
    if s2.quiet .proxy line then s2.proxyAnswer p else s2

/-! ### Local requests at a proxy (R108) -/

/-- A request sent on to the line's home module, which takes this module as the requester. -/
def State.forwardHome (s : State) (q : QReq) : State :=
  let fpa := q.r.fpa
  let opc := q.kind.opc
  let s := ((s.opened q).count 0x4A (sliceHash fpa) 0 1).smpNote q.r.src 0 (0, lineOf fpa) (fun y => { y with server := 0x68 + (s.trunkTo (homeOf fpa)).getD 0 })
  let t : Txn := { line := lineOf fpa, q := q, stage := .fwd, st := s.lineSt fpa, dirty := none, kept := [], ownerKept := false, psn := false, grant := .none }
  let s1 := { s with keeper := { s.keeper with txns := s.keeper.txns ++ [t] } }
  s1.toMod (.send (.mod (homeOf fpa)) opc fpa false false false q.r.nt (if q.kind = .wrInvPart then q.r.mask.toNat else 0) false
    (if q.kind = .atomOp then (q.nextRec ++ q.record).zeroExtend 512 else q.r.data)) q.bulk

/-- A local request served by the proxy without a trunk message, counted. -/
def State.rlcHit (s : State) (q : QReq) : State :=
  ((s.opened q).count 0x49 (sliceHash q.r.fpa) 0 1).smpNote q.r.src 0 (0, lineOf q.r.fpa) (fun y => { y with rlc := true })

/-- Lines of a proxy sector that a local agent owned and owns no longer are the module's again: M where dirty data is cached,
else E. With `gone` no local agent is named any more (R74, R75). -/
def State.proxyFree (s : State) (fpa : Nat) (gone : Bool) : State :=
  match s.dent fpa with
  | none => s
  | some e =>
    let e1 := [0, 1, 2, 3].foldl (fun e j => if 5 ≤ e.ls j then e.setLs j (if (s.rlc (fpa / 256 * 4 + j)).any (fun c => c.dirty) then 3 else 2) else e) e
    s.putDent fpa (if gone then { e1 with mode := 0, p0 := 0xFF, p1 := 0xFF, p2 := 0xFF, hosts := 0 } else e1)

/-- A request of a local agent at this module's proxy for a line homed elsewhere, for which its entry has room (R108). -/
def State.proxyServeGo (s : State) (q : QReq) : State :=
  let fpa := q.r.fpa / 64 * 64
  let i := bits fpa 7 6
  let line := lineOf fpa
  let e := (s.dent fpa).getD (DEnt.new true (tagOf fpa))
  let v := e.ls i
  let hs := s.mayHold e i fpa
  let r := q.r.src
  let t : Txn := { line := line, q := q, stage := .fwd, st := v, dirty := none, kept := [], ownerKept := false, psn := false, grant := .none }
  match q.kind with
  | .rds => match s.rlc line with
    | some c =>
      if 1 ≤ v ∧ v ≤ 4 then ((if q.tracks then s.putDent fpa (e.share i v r) else s).rlcHit q).finish t .dataS c.data
      else s.forwardHome q
    | none => s.forwardHome q
  | .rdx => match s.rlc line with
    | some c =>
      if (v = 2 ∨ v = 3) ∧ hs.all (fun x => x.1 == r) ∧ r.caching then ((s.record fpa (fun e => e.ownX i r)).rlcHit q).finish t .dataE c.data
      else s.forwardHome q
    | none => s.forwardHome q
  | .upg =>
    if ! hs.any (fun x => x.1 == r) then (s.rlcHit q).grant r .cmpI fpa 0
    else if hs.any (fun x => x.1 == r && x.2) then (s.rlcHit q).grant r (match r with | .host _ => .cmpE | _ => .cmp) fpa 0
    else s.forwardHome q
  | .evict => if hs.any (fun x => x.1 == r) then s.putDent fpa (s.dropAt e i line r) else s
  | _ => s.forwardHome q

/-- The owners in a proxy sector of lines other than one. -/
def DEnt.ownersBut (e : DEnt) (line : Nat) : List (Agent × Nat) :=
  [0, 1, 2, 3].filterMap (fun j => if line / 4 * 4 + j = line then none
    else match ownerIdx e.px (e.ls j) with
      | some n => (agentOf (e.ptr n)).map (fun a => (a, line / 4 * 4 + j))
      | none => none)

/-- A request of a local agent at this module's proxy (R108). A shared copy for an agent that a full PTR entry does not name
brings the local owners of its other lines to S first, as at a home (R74, R106). -/
def State.proxyServe (s : State) (q : QReq) : State :=
  let fpa := q.r.fpa / 64 * 64
  let line := lineOf fpa
  match s.dent fpa with
  | none => s.proxyServeGo q
  | some e =>
    let v := e.ls (bits fpa 7 6)
    let as := e.ownersBut line
    if q.tracks ∧ 1 ≤ v ∧ v ≤ 4 ∧ (s.rlc line).isSome ∧ e.mode = 0 ∧ ¬ e.hasRoom q.r.src ∧ as ≠ [] then
      let t : Txn := { line := line, q := q, stage := .share, st := v, dirty := none, kept := [], ownerKept := false, psn := false, grant := .none }
      let s1 := ({ s with keeper := { s.keeper with txns := s.keeper.txns ++ [t] } } : State).snoop .txn line .shr false as
      if s1.quiet .txn line then ((s1.proxyFree fpa false).closeTxn line).proxyServeGo q else s1
    else s.proxyServeGo q

/-- A request admitted at its proxy slice. -/
def State.proxyAdmit (s : State) (q : QReq) (again : Bool) : State :=
  if s.svc.stoppedSlices.contains (sliceHash q.r.fpa) then s.poisonReply q
  else if s.hier.lost.contains (homeOf q.r.fpa) then
    -- the home is lost: reads complete with poison, writes complete without effect (R302)
    s.poisonReply q
  else if s.mustQueue q || (! again && s.queuedLine q) then s.enqueue q
  else
    (if s.allocates q then s.evictWay q.r.fpa else s).proxyServe q

/-- A request of an agent enters its slice, at the home or at the proxy (R63, R65). -/
def State.admitReq (s : State) (q : QReq) : State :=
  if s.homed q.r.fpa then s.homeAdmit q false else s.proxyAdmit q false

/-- A queued request tries again (R91, R93). -/
def State.admitAgain (s : State) (q : QReq) : State :=
  if s.homed q.r.fpa then s.homeAdmit q true else s.proxyAdmit q true

/-- The home's grant applied to the proxy's own entry (R108), and acknowledged (R93). -/
def State.proxyTake (s0 : State) (t : Txn) (g : Grant) (d : Line) : State :=
  let fpa := t.line * 64
  let i := bits fpa 7 6
  let r := t.q.r.src
  let acked := (t.q.kind == .rds || t.q.kind == .rdx || t.q.kind == .upg) && ! t.q.r.nt
  let s1 := if acked ∧ ¬ t.psn then s0.toMod (.send (.mod (homeOf fpa)) 0x14 fpa false false false false 0 false 0) false else s0
  let wasDirty := match s1.rlc t.line with | some c => c.dirty | none => false
  let keep := fun (s : State) (dirty : Bool) => if wasDirty then s else s.rlcPut { line := t.line, data := d, dirty := dirty }
  -- a holding of E, M or O that the home left here stays
  let shared := fun (e : DEnt) => if g = .dataE then 2 else if g = .dataM then 3 else if 2 ≤ e.ls i ∧ e.ls i ≤ 4 then e.ls i else 1
  match t.q.kind, g with
  | _, .poison => (match t.q.kind with
      | .rds | .rdx => s1.finish t .poison 0
      | .upg => s1.finish t .cmpI 0
      | .atomOp => ((s1.refuseRec r t.q.area t.q.record 3).landed r t.line).closeTxn t.line
      | _ => (s1.dmaFails r t.line 9).finish t .cmp 0)
  | .rds, g =>
    if t.q.r.nt then s1.finish t .dataS d
    else (keep (s1.record fpa (fun e => e.share i (shared e) r)) (g == .dataM)).finish t .dataS d
  | .rdx, .dataS =>
    -- the home served it as a read (R238)
    (keep (s1.record fpa (fun e => e.share i (shared e) r)) false).finish t .dataS d
  | .rdx, g =>
    if r.caching then
      let s2 := s1.record fpa (fun e => e.ownX i r)
      (if g = .dataM then s2.rlcPut { line := t.line, data := d, dirty := true } else s2).finish t .dataE d
    else s1.finish t .dataE d
  | .upg, .cmp =>
    let s2 := s1.record fpa (fun e => e.ownX i r)
    -- the module may have taken the dirty role: what it has of the line is kept as dirty (Table 2.11, log 84)
    let s3 : State := match s2.rlc t.line with
      | some c => { s2 with keeper := { s2.keeper with rlc := s2.keeper.rlc.map (fun x => if x.line = c.line then { x with dirty := true } else x) } }
      | none => s2
    s3.finish t (match r with | .host _ => .cmpE | _ => .cmp) 0
  | .upg, g =>
    -- the module was no longer recorded and its Upg was served as a read: the local agent is granted I (R101)
    (keep (s1.record fpa (fun e => e.setLs i (shared e))) (g == .dataM)).finish t .cmpI 0
  | .atomOp, g =>
    -- the answer's data is the contents of the result slot (log 103)
    let st := if g = .dataS then bits d.toNat 79 72 else 0
    if 2 ≤ st then ((s1.refuseRec r t.q.area t.q.record st).landed r t.line).closeTxn t.line
    else
      let s2 := match r with
        | .dma c => s1.modAtomic c (fun b => { b with applied := b.applied + 1 })
        | _ => s1
      let s3 := s2.sliceCnt (s2.posterSlice r) 4 1
      ((s3.resultSlot r t.q.area t.q.record (d.extractLsb' 0 64) st).landed r t.line).closeTxn t.line
  | .evict, _ => s1.closeTxn t.line
  | _, _ => s1.finish t .cmp 0

/-- Local agents to be snooped before the home's grant of a forwarded request is applied, with their lines: for ownership every
other local holder of the line, and of the whole sector where the entry has no room or is in CHOST or BCAST mode (R75); for a
shared copy the owners of the other lines where the entry has no room (R74, R106). -/
def State.grantSnoops (s : State) (t : Txn) (g : Grant) : SnpKind × Bool × List (Agent × Nat) :=
  let fpa := t.line * 64
  let r := t.q.r.src
  let e := (s.dent fpa).getD (DEnt.new true (tagOf fpa))
  if ! r.caching then (.inv, false, [])
  else if (t.q.kind == .rdx || t.q.kind == .upg) && (g == .dataE || g == .dataM || g == .cmp) then
    if e.mode ≠ 0 ∨ ¬ e.hasRoom r then
      (.inv, true, [0, 1, 2, 3].flatMap (fun j => ((s.mayHold e j (fpa / 256 * 256)).filterMap (fun x =>
        if x.1 == r && t.line / 4 * 4 + j == t.line then none else some (x.1, t.line / 4 * 4 + j)))))
    else (.inv, false, (((s.mayHold e (bits fpa 7 6) fpa).map (·.1)).filter (fun a => a != r)).map (fun a => (a, t.line)))
  else if g == .dataS && ! t.q.r.nt && (t.q.kind == .rds || t.q.kind == .rdx) || t.q.kind == .rds && ! t.q.r.nt && (g == .dataE || g == .dataM) then
    if e.mode = 0 ∧ ¬ e.hasRoom r then (.shr, false, e.ownersBut t.line) else (.inv, false, [])
  else (.inv, false, [])

/-- The home's grant of a forwarded request reaches the proxy, which applies it once the local agents concerned have answered
(R106, R108, Table 2.11). -/
def State.proxyGrant (s : State) (t : Txn) (g : Grant) (d : Line) : State :=
  let fpa := t.line * 64
  let x := s.grantSnoops t g
  let t1 : Txn := { t with stage := .inval, grant := g, dirty := some d, narrow := x.2.1 }
  let s1 := (s.setTxn t1).snoop .txn t.line x.1 false x.2.2
  if s1.quiet .txn t.line then (if x.2.1 ∨ x.1 = .shr then s1.proxyFree fpa x.2.1 else s1).proxyTake t g d else s1

/-! ### Snoop answers (R82 to R87, R104, R105) -/

/-- A transaction whose line's snoops may all have answered goes on. -/
def State.txnResume (s : State) (line : Nat) : State :=
  if ! s.quiet .txn line then s
  else match s.txn line with
    | none => s
    | some t => match t.stage with
      | .share =>
        if s.homed (line * 64) then (s.record (line * 64) (fun e => e.shared t.q)).begin_ t
        else ((s.proxyFree (line * 64) false).closeTxn line).proxyServeGo t.q
      | .snoop => s.proceed t
      | .inval => (if t.narrow ∨ t.q.kind = .rds ∨ t.grant = .dataS then s.proxyFree (line * 64) t.narrow else s).proxyTake t (if t.psn then .poison else t.grant) (t.dirty.getD 0)
      | _ => s

/-- A home's snoop that came while a proxy sector's holders were being recalled is answered: a line written back meanwhile
has its data on the way (R103). -/
def State.lateAnswer (s : State) (p : PSnoop) : State :=
  if s.keeper.wbs.contains (.mod s.glob.midx, p.line) then
    ({ s with keeper := { s.keeper with psnoops := s.keeper.psnoops.filter (fun x => x.line != p.line) } } : State).answerHome p.line 0x13 none
  else s.proxyAnswer p

/-- The victim buffer of a sector is freed once every response has arrived (R96, R111). -/
def State.victimResume (s : State) (line : Nat) : State :=
  if ! s.quiet .victim line then s
  else match s.keeper.victims.find? (fun v => v.2.1 == line / 4) with
    | none => s
    | some v =>
      let s1 := ({ s with keeper := { s.keeper with victims := s.keeper.victims.erase v } } : State).sectorLeaves (line / 4) v.2.2
      (s1.keeper.psnoops.filter (fun p => p.line / 4 == line / 4)).foldl (fun s p => s.lateAnswer p) s1

/-- A snoop has been answered in full: response `r`, and the data that came with it. -/
def State.answered (s : State) (w : Wait) (r : RspKind) (d : Option (Line × Bool)) : State :=
  let fpa := w.line * 64
  let i := bits fpa 7 6
  let s0 := { s with keeper := { s.keeper with waits := s.keeper.waits.erase w } }
  let s0 := if s0.keeper.waits.any (fun x => x.agent == w.agent && x.line / 4 == w.line / 4) then s0 else s0.smpEnd w.agent 1 (1, w.line / 4) 0
  let s0 := if w.wb ∧ d.isSome then s0.grant w.agent .cmp fpa 0 else s0
  let keeps := r == .rspS || r == .rspO
  match w.own with
  | .txn =>
    match s0.txn w.forLine with
    | none => s0
    | some t =>
      let s1 := if w.line = t.line ∧ t.stage = .snoop then
          s0.setTxn { t with
            dirty := match d with | some x => if w.nd ∨ x.2 then t.dirty else some x.1 | none => t.dirty
            psn := t.psn || (match d with | some x => x.2 && ! w.nd | none => false)
            kept := if keeps then t.kept ++ [w.agent] else t.kept
            ownerKept := t.ownerKept || r == .rspO }
        else match d with
          | some x => if s0.homed fpa then s0.sideWr fpa x.1 x.2
            else if x.2 then s0.lineSpoilt w.line
            else s0.rlcPut { line := w.line, data := x.1, dirty := true }
          | none => s0
      s1.txnResume w.forLine
  | .proxy =>
    match s0.keeper.psnoops.find? (fun p => p.line == w.forLine) with
    | none => s0
    | some p =>
      let e := (s0.dent fpa).getD (DEnt.new true (tagOf fpa))
      let p1 : PSnoop := { p with data := (match d with | some x => some x.1 | none => p.data), kept := p.kept || keeps, psn := p.psn || (match d with | some x => x.2 | none => false) }
      let s1 := { s0 with keeper := { s0.keeper with psnoops := s0.keeper.psnoops.map (fun (x : PSnoop) => if x.line = p.line then p1 else x) } }
      let s2 := if keeps then s1 else s1.putDent fpa (s1.dropAt e i w.line w.agent)
      if s2.quiet .proxy w.forLine then s2.proxyAnswer p1 else s2
  | .victim =>
    let s1 := match d with
      | some x => if s0.homed fpa then s0.sideWr fpa x.1 x.2 else (s0.rlcDrop w.line).wbHome w.line false x.1 x.2
      | none => s0
    s1.victimResume w.forLine
  | .sweep _ =>
    let s1 := match (if w.nd then none else d) with
      | some x => if s0.homed fpa then s0.sideWr fpa x.1 x.2
        else if x.2 then (s0.rlcDrop w.line).wbHome w.line false x.1 true
        else s0.rlcPut { line := w.line, data := x.1, dirty := true }
      | none => s0
    match s1.dent fpa with
    | none => s1
    | some e =>
      let cached := (s1.rlc w.line).any (fun c => c.dirty)
      let e1 := if keeps then (match ownerIdx e.px (e.ls i) with
        | some _ => e.setLs i (if e.px then (if cached then 3 else 2) else 1)
        | none => e) else s1.dropAt e i w.line w.agent
      -- at a proxy, dirty data returned leaves the module's line in M, and poisoned data has been written back (R239)
      s1.putDent fpa (if e.px ∧ ¬ w.nd then (match d with | some x => e1.setLs i (if x.2 then 0 else 3) | none => e1) else e1)

/-- The open snoop of a line toward an agent. -/
def State.waitOf (s : State) (a : Agent) (line : Nat) : Option Wait :=
  s.keeper.waits.find? (fun w => w.agent == a && w.line == line)

/-- A wait written back. -/
def State.setWait (s : State) (w w' : Wait) : State :=
  { s with keeper := { s.keeper with waits := s.keeper.waits.map (fun x => if x = w then w' else x) } }

/-- A response to a snoop arrives (R82, R104, R105). -/
def State.rspArrives (s : State) (m : MsgOp) (r : RspKind) : State :=
  let line := lineOf m.fpa
  match s.waitOf m.src line with
  | none => s
  | some w =>
    let s := s.count 0x45 (sliceHash m.fpa) 0 (b2n (r == .wbPend))
    if w.rsp.isSome ∨ (r = .rspO ∧ ¬ m.dp) ∨ (r = .wbPend ∧ m.dp) then s
    -- the write-back it speaks of has come, and waits for the expander (R99, R104)
    else if r = .wbPend ∧ w.dat.isNone ∧ s.keeper.wbs.contains (m.src, line) then s.answered w .rspI none
    else if (m.dp ∨ r = .wbPend) ∧ w.dat.isNone then s.setWait w { w with rsp := some r }
    else s.answered w r w.dat

/-- The data of an answer to a snoop arrives. -/
def State.datArrives (s : State) (w : Wait) (d : Line) (psn wb : Bool) : State :=
  let w' := { w with dat := some (d, psn), wb := w.wb || wb }
  match w.rsp with
  | some r => (s.setWait w w').answered w' r (some (d, psn))
  | none => s.setWait w w'

/-! ### Lost holders (R124 to R126) -/

/-- A snoop answered for an agent that has departed, is lost or has timed out: as RspI, and a holder of
X, M or O leaves the line poisoned. -/
def State.synthesise (s : State) (w : Wait) : State :=
  let fpa := w.line * 64
  let ro := match w.agent with | .host h => s.hostRO h fpa | _ => false
  let e? := match s.dent fpa with
    | some e => some e
    | none => (s.keeper.victims.find? (fun v => v.2.1 == w.line / 4)).map (fun v => v.2.2)
  let owner := match e? with
    | some e => (s.mayHold e (bits fpa 7 6) fpa).any (fun x => x.1 == w.agent && x.2)
    | none => false
  let bad := owner && ! ro
  match w.own with
  | .txn =>
    if w.line = w.forLine then match s.txn w.forLine with
      | some t => if t.stage = .snoop then ((s.setTxn { t with psn := t.psn || bad }).answered w .rspI none) else ((if bad ∧ s.homed fpa then s.poisonMem fpa else s).answered w .rspI none)
      | none => s.answered w .rspI none
    else (if bad ∧ s.homed fpa then s.poisonMem fpa else s).answered w .rspI none
  | .proxy =>
    let ps := s.keeper.psnoops.map (fun (x : PSnoop) => if x.line = w.forLine then { x with psn := x.psn || bad } else x)
    ({ s with keeper := { s.keeper with psnoops := ps } } : State).answered w .rspI none
  | _ =>
    let s1 := if ¬ bad then s else if s.homed fpa then s.poisonMem fpa else s.lineSpoilt w.line
    s1.answered w .rspI none

/-- Every snoop open toward an agent is answered for it. -/
def State.synthAll (s : State) (a : Agent) : State :=
  (s.keeper.waits.filter (fun w => w.agent == a)).foldl (fun s w => if s.keeper.waits.contains w then s.synthesise w else s) s

/-- Transactions that wait for a lost module's Cmp close (R126). -/
def State.closeAcks (s : State) (m : Nat) : State :=
  (s.keeper.txns.filter (fun t => t.stage == .ack && t.q.r.src == .mod m)).foldl (fun s t =>
    let fpa := t.line * 64
    let s1 := s.record fpa (fun e => e.drop (bits fpa 7 6) (.mod m))
    (if t.grant = .dataM then s1.sideWr fpa 0 true else s1).closeTxn t.line) s

/-! ### Directory sweeps -/

/-- Lines of a directory set entry that a sweep concerns, each with its holders: home entries by FPA. -/
def State.dirLines (s : State) (p : Nat → Bool) : List (Nat × DEnt × Nat) :=
  s.keeper.dir.flatMap (fun k => k.2.flatMap (fun e =>
    let sec := sectorFpa (k.1 / 28672) (k.1 % 28672) e.tag
    [0, 1, 2, 3].filterMap (fun j => if e.ls j ≠ 0 ∧ p (sec + 64 * j) then some (sec / 64 + j, e, j) else none)))

/-- A directory sweep begins: every holder of a line that meets the test and whose agent is concerned is recalled. -/
def State.sweepStart (s : State) (why arg : Nat) (p : Nat → Bool) (who : Agent → Bool) (keepS nd : Bool) : State × Nat :=
  let n := s.keeper.nextSweep
  -- lines recalled by flip sweeps are counted for the die of their slice
  let lines := if why = 2 then (s.dirLines p).filter (fun x => (s.mayHold x.2.1 x.2.2 (x.1 * 64)).any (fun a => who a.1)) else []
  let on := fun d => (lines.filter (fun x => sliceHash (x.1 * 64) / 16 == d)).length
  let s := (s.count 0x72 0 0 (on 0)).count 0x72 1 0 (on 1)
  let s1 := { s with keeper := { s.keeper with nextSweep := n + 1, sweeps := s.keeper.sweeps ++ [({ num := n, why := why, arg := arg } : Sweep)] } }
  let as := (s.dirLines p).flatMap (fun x => (s.mayHold x.2.1 x.2.2 (x.1 * 64)).filterMap (fun a =>
    if who a.1 ∧ (¬ keepS ∨ a.2) then some (a.1, x.1) else none))
  (s1.snoop (.sweep n) 0 (if keepS then .shr else .inv) nd as, n)

/-- A sweep's snoops have all answered. -/
def State.sweepQuiet (s : State) (n : Nat) : Bool :=
  ! s.keeper.waits.any (fun w => w.own == .sweep n)

/-- A sweep has ended. -/
def State.sweepEnd (s : State) (n : Nat) : State :=
  { s with keeper := { s.keeper with sweeps := s.keeper.sweeps.filter (fun x => x.num != n) } }

/-! ### Write-backs and expander answers -/

/-- A WbData from an agent of this module's homes (R99, R100). -/
def State.wbArrives (s : State) (a : Agent) (fpa : Nat) (k : Bool) (d : Line) (psn : Bool) : State :=
  let line := lineOf fpa
  let f := line * 64
  let i := bits fpa 7 6
  match s.waitOf a line with
  | some w => s.datArrives w d psn true
  | none =>
    let e? := s.dent fpa
    let owner := match e? with
      | some e => (s.mayHold e i f).any (fun x => x.1 == a && x.2)
      | none => false
    match e?, owner with
    | some e, true =>
      if s.homed fpa ∧ (s.ext (extOf fpa)).state = .failed then
        -- the expander has departed: the data is discarded (Table 5.8)
        (s.putDent fpa (e.drop i a)).grant a .cmp f 0
      else if s.homed fpa then
        let e1 := if k then e.setLs i 1 else e.drop i a
        let s1 := ((s.putDent fpa e1).memWr f allBytes d psn .wb).mark f
        { s1 with keeper := { s1.keeper with wbs := s1.keeper.wbs ++ [(a, line)] } }
      else
        -- at the proxy the module's holding becomes M, with its data in the remote line cache
        ((s.putDent fpa ((if k then e else e.drop i a).setLs i 3)).rlcPut { line := line, data := d, dirty := true }).grant a .cmp f 0
    | _, _ =>
      if s.homed fpa ∧ (s.ext (extOf fpa)).state = .failed then s.grant a .cmp f 0
      else ((s.grant a .cmp f 0).count 0x46 (sliceHash fpa) 0 1).fault 0x010A (s.ksLoc (sliceHash fpa)) 0xFF

/-- Data of an expander read arrives: the grant leaves, the atomic line cache takes the line, or data that has come
before the last snoop's answer waits for it (Table 2.13). -/
def State.drsArrives (s : State) (fpa : Nat) (psn : Bool) (d : Line) : State :=
  let line := lineOf fpa
  match s.txn line with
  | none => s
  | some t =>
    if t.reading then s.setTxn { t with reading := false, early := some (d, psn) }
    else if t.stage ≠ .memRd then s
    else if t.q.kind = .atomOp then
      if psn then (((s.poisonMem fpa).refuseAt t.q fpa 3).landed t.q.r.src line).closeTxn line
      else (s.applyRec t.q { line := line, data := d, dirty := true }).closeTxn line
    else s.readDone t psn d

/-- A completion of an expander write arrives. -/
def State.ndrArrives (s : State) (fpa : Nat) : State :=
  let line := lineOf fpa
  if s.keeper.side.contains line then { s with keeper := { s.keeper with side := s.keeper.side.erase line } }
  else match s.keeper.wbs.find? (fun x => x.2 == line && x.1 != .mod s.glob.midx) with
    | some x => ({ s with keeper := { s.keeper with wbs := s.keeper.wbs.erase x } }).grant x.1 .cmp (line * 64) 0
    | none => match s.txn line with
      | none => s
      | some t => if t.stage = .memWr then s.finish t t.grant (t.dirty.getD 0) else s

end Sys2Proof.Machine
end

