-- ==== Sys2Proof/Machine/Bulk.lean ====
section
/-! DEFINITION. Cells and accesses that are lost: bursts cut short, the carve-out, queue memory, and what a requester gets of an access that failed (R132, R133, R136, R150, R158, R167, R171, R172). -/
namespace Sys2Proof.Machine

/-! ### Incomplete bursts (Table 3.5) -/

/-- A cell of the burst a BLK payload belongs to. -/
def Blk.mate (b : Blk) (c : Cell) : Bool := match c.load with | .blk x => x.src == b.src && x.tag == b.tag | _ => false

/-- A BLK cell of an incomplete burst. -/
def Cell.voided (c : Cell) : Cell := match c.load with | .blk x => { c with load := .blk { x with void := true } } | _ => c

/-- The BLK message of a cell toward another home; where its burst is incomplete it is poisoned and carries no byte (Table 6.8, log 109). -/
def State.blkMsg (s : State) (c : Cell) (b : Blk) : TrunkMsg :=
  { cls := 4, op := 0, addr := b.line * 64, tag := b.tag, len := 63, dp := false, lmask := 0, first := c.first, last := c.last, k := false, nd := false, nt := false
    poison := b.psn || b.void, srcm := s.glob.midx, dstm := homeOf (b.line * 64), data := b.data, mask := if b.void then 0 else b.mask }

/-- Every cell of a burst, wherever it is, marked as of an incomplete one. -/
def State.burstVoid (s : State) (b : Blk) : State :=
  let v := fun (c : Cell) => if b.mate c then c.voided else c
  let x := s.xbar
  { s with xbar := { x with voq := x.voq.map v, flying := x.flying.map (fun e => (e.1, e.2.1, v e.2.2)), held := x.held.map v, bulk := x.bulk.map v,
                            spillQ := x.spillQ.map (fun e => (e.1, e.2.1, v e.2.2)) } }

/-- The last cell of a burst is in the crossbar. -/
def State.burstEnds (s : State) (b : Blk) : Bool :=
  let x := s.xbar
  (x.voq ++ x.flying.map (fun e => e.2.2) ++ x.held ++ x.bulk ++ x.spillQ.map (fun e => e.2.2)).any (fun c => b.mate c && c.last)

/-- A BLK cell is lost: its burst is incomplete, and no cell of it is written (Table 3.5). Toward another home a poisoned message tells so. -/
def State.burstCut (s : State) (c : Cell) (b : Blk) : State :=
  let s1 := s.burstVoid b
  let s2 : State := if c.last ∨ s.burstEnds b then s1 else { s1 with xbar := { s1.xbar with cut := addOnce (b.src, b.tag) s1.xbar.cut } }
  if 0x68 ≤ c.dst ∧ c.dst < 0x70 then s2.modTp (c.dst - 0x68) (fun p => { p with queue := p.queue ++ [s.blkMsg c { b with void := true }] })
  else { s2 with xbar := { s2.xbar with gone := s2.xbar.gone ++ [(b.src, b.line)] } }

/-- A spilled cell is lost: its burst is incomplete. -/
def State.spillCut (s : State) (e : Nat × Nat × Cell) : State :=
  let s1 : State := { s with xbar := { s.xbar with spillQ := s.xbar.spillQ.erase e } }
  match e.2.2.load with | .blk b => s1.burstCut e.2.2 b | _ => s1

/-- The spilled cell at a slot of an engine. -/
def State.spillEnt (s : State) (d slot : Nat) : Option (Nat × Nat × Cell) :=
  s.xbar.spillQ.find? (fun e => e.1 == slot && pointDie e.2.2.dst == d)

/-- Slot of a spill engine's half that an address of the carve-out is: engine and slot (R156). -/
def State.spillSlot (s : State) (fpa : Nat) : Nat × Nat :=
  let n := ((extOf fpa - s.carveExt) * 2 ^ 28 + fpa % 2 ^ 28) / 128
  if n < s.spillCap then (0, n) else (1, n - s.spillCap)

/-- A spill queue's cells are lost with SPILL_LOST at the die; EN clears (R158). -/
def State.spillsLost (s : State) (d : Nat) : State :=
  let es := s.xbar.spillQ.filter (fun e => pointDie e.2.2.dst == d)
  let s1 := es.foldl (fun s e => match s.spillEnt d e.1 with | some y => s.spillCut y | none => s) s
  ({ s1 with xbar := { s1.xbar with spillCtl := s1.xbar.spillCtl &&& ~~~(1 : Reg64) } } : State).fault 0x0112 (s1.dieLoc d) 0xFF

/-- What the loss of a cell does beyond the message it carried: a BLK cell leaves its burst incomplete (R150). A coherence message is missed by the
transaction that waits for it, and firmware sends a management message again. -/
def State.cellLost (s : State) (c : Cell) : State :=
  match c.load with
  | .blk b => s.burstCut c b
  | .back d n => match s.spillEnt d n with | some e => s.spillCut e | none => s
  | .acc x => if x.kind = .spill then (match s.spillEnt (s.spillSlot x.fpa).1 (s.spillSlot x.fpa).2 with | some e => s.spillCut e | none => s) else s
  | _ => s

/-! ### Payload errors (R133) -/

/-- A cell whose payload is poisoned in queue memory, and its message with it. -/
def Cell.spoilt (c : Cell) : Cell :=
  { c with poison := true, load := match c.load with
    | .req q => .req { q with psn := true }
    | .ans a g fpa d => .ans a (match g with | .dataS | .dataE | .dataM => .poison | _ => g) fpa d
    | .out (.send a opc fpa dp nd k nt m _ d) b => .out (.send a opc fpa dp nd k nt m true d) b
    | .acc x => .acc { x with psn := true }
    | .drs fpa _ d => .drs fpa true d
    | .wb a fpa k d _ => .wb a fpa k d true
    | .blk b => .blk { b with psn := true }
    | .rx m => .rx { m with poison := true }
    | l => l }

/-- Payload cells in the queue memory of a quadrant. -/
def State.payloads (s : State) (k : Nat) : List Cell :=
  (s.xbar.voq.filter (fun c => s.pointQuad c.src == k) ++ (s.xbar.held ++ s.xbar.bulk).filter (fun c => s.pointQuad c.dst == k)).filter (fun c => decide (0 < c.len))

/-- A double-bit error in the queue memory of a quadrant poisons a cell there, which one is open (log 1, R133). -/
def State.qmemPoison (s : State) (k : Nat) : State :=
  match (s.payloads k)[s.freeNat % (s.payloads k).length]? with
  | none => s
  | some c =>
    let f := fun (y : Cell) => if y = c then y.spoilt else y
    ({ s with xbar := { s.xbar with voq := s.xbar.voq.map f, held := s.xbar.held.map f, bulk := s.xbar.bulk.map f } } : State).drawn

/-- A cell of a hop fails its HCRC check and is discarded; which one is open (log 1, R132). -/
def State.hcrcAt (s : State) (l : Loc) : State :=
  let cs := s.xbar.voq.filter (fun c => s.pointLoc c.src == l || s.pointLoc c.dst == l)
  match cs[s.freeNat % cs.length]? with
  | none => s
  | some c => (({ s with xbar := { s.xbar with voq := s.xbar.voq.erase c } } : State).drawn).cellLost c

/-! ### Queue memory that is lost (R58, R136) -/

/-- Flow state of the crossbar with the flows from a quadrant's points started anew, and those to them standing at their first cell. -/
def State.flowsAnew (s : State) (here : Nat → Bool) : State :=
  let from_ := fun (f : Nat) => here (f / 6 / 128)
  let into := fun (f : Nat) => here (f / 6 % 128)
  let x := s.xbar
  let next := Tbl.keep (fun f _ => ! from_ f) x.nextSeq
  let head := fun (f : Nat) => match x.voq.find? (fun c => c.flow == f) with | some c => c.seq | none => Tbl.get 0 next f
  let exp := (Tbl.keep (fun f _ => ! from_ f) x.expSeq).foldl (fun t e => if into e.1 then Tbl.set 0 t e.1 (head e.1) else t) (Tbl.keep (fun f _ => ! from_ f) x.expSeq)
  { s with xbar := { x with nextSeq := next, expSeq := exp, part := x.part.filter (fun f => ! from_ f && ! into f) } }

/-- The queue memory of a quadrant is reinitialised or leaves service: the cells queued, held and waiting at its points are lost with the effect of
Table 3.5. With Q0 of a die the die-level points move to Q1, with Q1 back (R136). -/
def State.queuesLost (s : State) (k : Nat) : State :=
  let here := fun p => s.pointQuad p == k
  let x := s.xbar
  let mine := x.voq.filter (fun c => here c.src) ++ (x.flying.map (fun e => e.2.2)).filter (fun c => here c.src || here c.dst)
    ++ x.held.filter (fun c => here c.src || here c.dst) ++ x.bulk.filter (fun c => here c.dst)
  let s1 : State := { s with xbar := { x with
    voq := x.voq.filter (fun c => ! here c.src), flying := x.flying.filter (fun e => ! here e.2.2.src && ! here e.2.2.dst)
    held := x.held.filter (fun c => ! here c.src && ! here c.dst), bulk := x.bulk.filter (fun c => ! here c.dst) } }
  let s2 := mine.foldl (fun s c => s.cellLost c) (s1.flowsAnew here)
  { s2 with xbar := { s2.xbar with inQ1 := if k % 4 = 0 then addOnce (k / 4) s2.xbar.inQ1 else if k % 4 = 1 then dropOf (k / 4) s2.xbar.inQ1 else s2.xbar.inQ1 } }

/-- Bursts of a module that is lost, whose cells will not all come: they are incomplete, and the writes that wait for them end (R150, R302). -/
def State.bulkOrphans (s : State) (m : Nat) : State :=
  let a := Agent.mod m
  let late := fun (c : Cell) => match c.load with | .blk b => b.src == a && ! b.ready && ! s.burstEnds b | _ => false
  let x := s.xbar
  let gone := (x.rel.filter (fun r => r.src == a && ! (x.voq ++ x.flying.map (fun e => e.2.2) ++ x.held ++ x.bulk).any (fun c => c.bulkOf a (lineOf r.acc.fpa)))).map (fun r => (a, lineOf r.acc.fpa))
  { s with xbar := { x with bulk := x.bulk.map (fun c => if late c then c.voided else c), gone := x.gone ++ gone, spare := x.spare.filter (fun y => y.1 != a), cut := x.cut.filter (fun y => y.1 != a) } }

/-- A plane leaves service: the cells in flight on it are lost (R151). -/
def State.planeOut (s : State) (p : Nat) : State :=
  let x := s.xbar
  let s1 : State := { s with xbar := { x with up := x.up &&& ~~~((1 : BitVec 4) <<< (p % 4)), flying := x.flying.filter (fun e => e.1 != p % 4) } }
  (x.flying.filter (fun e => e.1 == p % 4)).foldl (fun s e => s.cellLost e.2.2) s1

/-! ### Accesses that fail (Table 3.9, R171, R172, R202) -/

/-- The write of a DMA burst fails: the burst is incomplete, its line completes without being written. -/
def State.bulkFails (s : State) (t : Txn) (status : Nat) : State :=
  let asked := fun (c : Cell) => c.bulkOf t.q.r.src t.line && (match c.load with | .blk b => b.asked | _ => false)
  let s1 := match s.xbar.bulk.find? asked with
    | some c => (match c.load with | .blk b => ({ s with xbar := { s.xbar with bulk := s.xbar.bulk.erase c } } : State).burstVoid b | _ => s)
    | none => s
  (s1.dmaFails t.q.r.src t.line status).finish t (if t.q.r.src.isMod then .poison else t.grant) 0

/-- A transaction's access fails: a read completes with poison; a write completes, and with `again` a new write marks its line poisoned. -/
def State.txnFails (s : State) (x : Access) (again : Bool) (status : Nat) : State :=
  if ¬ x.write then s.drsArrives x.fpa true 0
  else match s.txn (lineOf x.fpa) with
    | none => s
    | some t =>
      if t.stage ≠ .memWr then s
      else if t.q.bulk then s.bulkFails t status
      else
        let s1 := (s.dmaFails t.q.r.src t.line status).finish t t.grant (t.dirty.getD 0)
        if again then s1.poisonMem x.fpa else s1

/-- An access fails toward its requester. -/
def State.accFails (s : State) (x : Access) (again : Bool) (status : Nat) : State :=
  let line := lineOf x.fpa
  let mark := fun (s : State) => if again then s.poisonMem (line * 64) else s
  match x.kind with
  | .txn => s.txnFails x again status
  | .side => if s.keeper.side.contains line then mark { s with keeper := { s.keeper with side := s.keeper.side.erase line } } else s
  | .wb => match s.keeper.wbs.find? (fun y => y.2 == line && y.1 != .mod s.glob.midx) with
    | some y => mark (({ s with keeper := { s.keeper with wbs := s.keeper.wbs.erase y } } : State).grant y.1 .cmp (line * 64) 0)
    | none => s
  | .copy | .patrol => s
  | .spill | .unspill => s.spillsLost (s.spillSlot x.fpa).1

/-- A request of an arbiter fails toward its requester. -/
def State.pendFails (s : State) (x : Pend) (again : Bool) (status : Nat) : State :=
  match x.acc with
  | some a => s.accFails a again status
  | none => if x.req = 48 ∨ x.req = 49 then s.spillsLost (x.req - 48) else s

/-- The arbiter of a port that is fenced: every request waiting at it fails, and it is FROZEN until the port is bound (R172, R173). -/
def State.arbFence (s : State) (p : Nat) : State :=
  if s.isDown p then
    let a := s.arbOf p
    let s1 := s.modArb p (fun a => { a with pend := [], unsent := [], grant := none, handed := [], fenced := true, state := if a.state = 4 then 4 else 3 })
    (a.grant.toList ++ a.pend ++ a.unsent ++ a.handed.map (fun x => ({ req := 0, write := x.write, units := 1, since := 0, acc := some x } : Pend))).foldl (fun s x => s.pendFails x false 8) s1
  else s

end Sys2Proof.Machine
end

