-- ==== Sys2Proof/Machine/Rings.lean ====
section
/-! DEFINITION. Submission and completion rings: completion entries, ring errors, disable, drain, and the reset of a channel (R345 to R364, R57). -/
namespace Sys2Proof.Machine

/-- Entries of a completion ring. -/
def CRing.size (r : CRing) : Nat := 2 ^ r.log2

/-- TAG and IRQ of a descriptor (Table 7.1). -/
def dTag (d : Line) : Nat := dfld d 63 32
/-- IRQ of a descriptor. -/
def dIrq (d : Line) : Bool := bit d.toNat 12

/-- Free completion entries of a ring: neither unread nor reserved (R351). -/
def CRing.free (r : CRing) : Nat := r.size - r.outst - r.reserved

/-- The upstream port that carries a slice's interrupt messages: its host's, or the manager's (R353). -/
def State.irqPort (s : State) (sl : Option Nat) : Option Nat :=
  match sl.bind s.slice with
  | some x => match s.hostPort x.host with
    | some p => some p
    | none => s.primary
  | none => s.primary

/-- A completion entry written at the tail of a completion ring (Table 7.4, R347, R352), and its MSI-X message (R353). -/
def State.cqWrite (s : State) (ring idx tag status result : Nat) (irq : Bool) : State :=
  let cqn := (s.ring ring).cq
  let c := s.cring cqn
  let word := result % 2 ^ 64 * 2 ^ 64 + tag % 2 ^ 32 * 2 ^ 32 + idx % 2 ^ 16 * 2 ^ 16 + b2n c.phase * 2 ^ 15 + status % 128 * 2 ^ 8 + ring % 256
  let msg := if irq ∨ (status ≠ 0 ∧ status ≠ 1) then (s.irqPort c.slice).map (fun p => (p, c.vec)) else none
  let s1 := match c.slice.bind (fun sl => s.sliceFpa sl (c.base + 16 * c.tail)) with
    | some (_, fpa) => s.modWrite (.dma (s.ring ring).ch) .fw fpa 16 word msg
    | none => s
  let t := (c.tail + 1) % c.size
  s1.modCring cqn (fun c => { c with tail := t, phase := if t = 0 then ! c.phase else c.phase, outst := c.outst + 1, reserved := c.reserved - 1 })

/-- Descriptors of a ring begun and not completed. -/
def State.begunOf (s : State) (ring : Nat) : List Begun :=
  ((s.chan (s.ring ring).ch).begun).filter (fun b => b.ring == ring)

/-- DMA_RING_STATUS.IDLE (R358). -/
def State.ringIdle (s : State) (ring : Nat) : Bool :=
  (s.begunOf ring).isEmpty && (s.ring ring).state != .drain

/-- The ring enters ERROR: EN clears and RING_ERROR is raised (R360, Table 7.12). -/
def State.ringError (s : State) (ring : Nat) : State :=
  if (s.ring ring).state = .run then
    (s.modRing ring (fun r => { r with state := .error })).dmaEvent 14 ring (s.ring ring).ch
  else s

/-- A status stops the ring (Table 7.5). -/
def statusStops (status : Nat) (stopOnErr : Bool) : Bool :=
  status == 2 || status == 3 || status == 4 || status == 0xB || (5 ≤ status && status ≤ 9 && stopOnErr)

/-- A descriptor completed: its entry, HEAD, LAST_ERR, and the ring's error state. -/
def State.descDone (s : State) (ring idx tag status result : Nat) (irq : Bool) : State :=
  let r := s.ring ring
  let s1 := s.cqWrite ring idx tag status result irq
  let s2 := s1.modRing ring (fun x => { x with head := x.succ idx, lastErr := if status = 0 ∨ status = 1 then x.lastErr else status })
  if statusStops status r.stopOnErr then s2.ringError ring else s2

/-- RESULT of a begun descriptor (Table 7.6). -/
def State.resultOf (s : State) (b : Begun) : Nat :=
  match dOpcode b.desc with
  | 1 | 2 => b.done
  | 3 => b.done % 2 ^ 32 * 2 ^ 32 + b.crc % 2 ^ 32
  | 4 => b.refused % 2 ^ 32 * 2 ^ 32 + b.applied % 2 ^ 32
  | 5 =>
    let w := s.win (dfld b.desc 479 416 % 16)
    b2n b.committed * 2 ^ 63 + w.epoch % 2 ^ 63
  | _ => 0

/-- A ring disabled: RUN or ERROR turns to DRAIN, and fetching stops (R359). -/
def State.ringDisable (s : State) (ring : Nat) : State :=
  let r := s.ring ring
  if r.state = .run ∨ r.state = .error then
    (s.modRing ring (fun r => { r with state := .drain, drainTail := r.tail })).modCh r.ch (fun x => { x with fetching := x.fetching.filter (fun y => y.1 != ring) })
  else s

/-- Posted descriptors of a draining ring that have not begun: the prefetched ones in order, then those
not fetched, up to the TAIL at which DRAIN began (R359). -/
def State.drainList (s : State) (ring : Nat) : List (Nat × Option Line) :=
  let r := s.ring ring
  let pre := ((s.chan r.ch).pre.filter (fun f => f.ring == ring)).map (fun f => (f.idx, some f.desc))
  let n := Ring.posted { r with tail := r.drainTail }
  pre ++ (List.range n).map (fun i => ((r.fetch + i) % r.size, none))

/-- A draining ring completes what had not begun with ABORTED, in ring order, as long as entries of its
completion ring are free (R359). A descriptor never fetched has a TAG the model does not know: a free value (log 1). -/
def State.drainAborts (s : State) (ring : Nat) : State :=
  let r := s.ring ring
  let l := (s.drainList ring).take (s.cring r.cq).free
  let s1 := l.foldl (fun s x =>
    let tag := match x.2 with | some d => dTag d | none => s.freeNat % 2 ^ 32
    let s0 := match x.2 with
      | some _ => s.modCh r.ch (fun c => { c with pre := c.pre.filter (fun f => ¬ (f.ring = ring ∧ f.idx = x.1)) })
      | none => s.drawn.modRing ring (fun y => { y with fetch := y.succ y.fetch, phase := if y.succ y.fetch = 0 then ! y.phase else y.phase, lap := false })
    (s0.modCring r.cq (fun c => { c with reserved := c.reserved + 1 })).descDone ring x.1 tag 0xA 0 false) s
  s1

/-- The end of DRAIN: every affected descriptor has completed (R359). -/
def State.drainEnd (s : State) (ring : Nat) : State :=
  if (s.ring ring).state = .drain then
    let s1 := if (s.begunOf ring).isEmpty then s.drainAborts ring else s
    if (s1.begunOf ring).isEmpty ∧ (s1.drainList ring).isEmpty then s1.modRing ring (fun r => { r with state := .off }) else s1
  else s

/-- A channel reset by a UNIT, CLUSTER, REGION or DIE reset: the descriptors in progress complete with
ABORTED, and each ring it serves is disabled (R57). A FLIP past its commit goes on with COMMITTED = 1 (R374). -/
def State.chanAbort (s : State) (c : Nat) : State :=
  let s1 := (s.chan c).begun.foldl (fun s b =>
    s.descDone b.ring b.idx (dTag b.desc) 0xA (s.resultOf b) (dIrq b.desc)) s
  let s2 := { s1 with shape := { s1.shape with waiting := s1.shape.waiting.filter (fun w => w.work != Work.burst c) } }.modCh c (fun x => { x with begun := [], staging := [] })
  -- a FLIP that has not committed leaves its window unchanged; one that has is told (R374)
  let f := fun (_ : Nat) (w : Window16) => match w.flip, w.step with
    | some fl, some st => if fl.1 = c then (if st < 3 then { w with flip := none, step := none } else { w with told := true }) else w
    | _, _ => w
  let s3 := { s2 with dma := { s2.dma with win := Tbl.mapv {} f s2.dma.win } }
  (List.range 256).foldl (fun s n => if (s.ring n).state ≠ .unassigned ∧ (s.ring n).ch = c then s.ringDisable n else s) s3

/-- Every ring of a slice disabled (Table 5.8). -/
def State.sliceRingsOff (s : State) (sl : Nat) : State :=
  (List.range 256).foldl (fun s n =>
    if (s.ring n).state ≠ .unassigned ∧ (s.chan (s.ring n).ch).slice = some sl then s.ringDisable n else s) s

/-- The channels of a slice. -/
def State.sliceChans (s : State) (sl : Nat) : List Nat := (List.range 64).filter (fun c => (s.chan c).slice == some sl)

/-- The rings of a slice. -/
def State.sliceRings (s : State) (sl : Nat) : List Nat :=
  (List.range 256).filter (fun n => (s.ring n).state != .unassigned && (s.chan (s.ring n).ch).slice == some sl)

/-! ### Return codes (Table 10.3) -/

def rcOk : Nat := 0x00
def rcBg : Nat := 0x01
def rcUnsup : Nat := 0x02
def rcParam : Nat := 0x03
def rcLen : Nat := 0x04
def rcBusy : Nat := 0x05
def rcLocked : Nat := 0x06
def rcNoSession : Nat := 0x07
def rcAuth : Nat := 0x08
def rcRole : Nat := 0x09
def rcSessLimit : Nat := 0x0A
def rcMac : Nat := 0x0B
def rcSeq : Nat := 0x0C
def rcNotFound : Nat := 0x0D
def rcNoRes : Nat := 0x0E
def rcNotReady : Nat := 0x0F
def rcNotMgr : Nat := 0x10
def rcPeerLost : Nat := 0x11
def rcPeerTimeout : Nat := 0x12
def rcVersion : Nat := 0x13
def rcLockedOut : Nat := 0x14
/-- No reply yet: the command answers later (R243, R473). -/
def rcLater : Nat := 0x10000

/-! ### Replies -/

/-- A reply in a slice channel's reply ring (R448 to R450): the entry, and the ring's MSI-X message. -/
def State.schReply (s : State) (sl tag op status len payload : Nat) (cls : Bool) : State :=
  match s.slice sl with
  | none => s
  | some x => match x.chan with
    | none => s
    | some c =>
      let word := len % 2 ^ 16 * 2 ^ 96 + tag % 2 ^ 32 * 2 ^ 64 + op % 2 ^ 16 * 2 ^ 48 + status % 2 ^ 16 * 2 ^ 32 + b2n cls * 2 + b2n c.repPhase + payload % 2 ^ 1920 * 2 ^ 128
      let s1 := match s.sliceFpa sl (c.repBase + 256 * c.repTail) with
        | some (_, fpa) => s.modWrite .fw .fw fpa 256 word ((s.irqPort (some sl)).map (fun p => (p, c.vec)))
        | none => s
      let t := (c.repTail + 1) % 2 ^ c.repLog
      s1.modSlice sl (fun y => { y with chan := some { c with repTail := t, repPhase := if t = 0 then ! c.repPhase else c.repPhase } })

/-- Numbers packed as 64-bit little-endian words. -/
def packWords (l : List Nat) : Nat := l.foldr (fun v r => v % 2 ^ 64 + r * 2 ^ 64) 0

/-- The key of a frame's session, for the MAC of its response: that of the session on its endpoint, or of the one just closed (R482). -/
def State.replyKey (s : State) (f : Frame) : Option (BitVec 256) :=
  match f.xport with
  | .trunk | .sliceChan => none
  | _ =>
    if f.sid = 0 then none
    else match s.mbx.sessions.find? (fun x => x.sid == f.sid && x.authed && x.xport == f.xport && x.ep == endpointOf f) with
      | some x => some x.sk
      | none => (s.mbx.lastSk.filter (fun x => x.1 == f.sid)).map (fun x => x.2)

/-- The MAC of a response; zero without a session (R468, R482). -/
def State.replyMac (s : State) (f : Frame) (op rc : Nat) (data : List Nat) : BitVec 128 :=
  match s.replyKey f with
  | some k => zorneMac k (zorneHead f op (1 + 2 * b2n f.fwd) rc (Config.payload op data).length ++ Config.payload op data)
  | none => 0

/-- The response to a command, whose doorbell woke the cores (R39, R468, R475): its record, a worker's stored copy (R467), or a reply-ring entry. -/
def State.reply (s : State) (f : Frame) (op rc : Nat) (data : List Nat) : State :=
  if rc = rcLater then s
  else
    let s1 := s.woken.emit (.reply f op rc data (s.replyMac f op rc data))
    match f.xport with
    | .trunk => { s1 with mbx := { s1.mbx with lastFwd := Tbl.put s1.mbx.lastFwd f.sid (f.tag, f.seq, rc, data) } }
    | .sliceChan =>
      let s2 := s1.modSlice f.slice (fun x => { x with chan := x.chan.map (fun c => { c with zornes := c.zornes.drop 1 }) })
      s2.schReply f.slice f.tag op rc (min 240 (8 * data.length)) (packWords data) true
    | _ => s1

/-- Opcodes that need no session (R477). -/
def freeOps : List Nat := [0xC101, 0xC001, 0xC002, 0xD001]

/-- The answer of a command that executed for some time is discarded: its session was closed meanwhile (R504), or the
PRIMARY link is down (Table 10.15). -/
def State.replyLost (s : State) (f : Frame) (op : Nat) : Bool :=
  let closed := f.sid != 0 && ! freeOps.contains op && ! s.mbx.sessions.any (fun x => x.sid == f.sid)
  match f.xport with
  | .cxl => closed || ! (s.port f.port).up
  | .smbus | .i3c => closed
  | .trunk | .sliceChan => false

/-- The answer of a command that executed for some time; the idle timeout of its session counts from it (R504). -/
def State.lateReply (s : State) (f : Frame) (op rc : Nat) (data : List Nat) : State :=
  if s.replyLost f op then s
  else
    let ss := s.mbx.sessions.map (fun x => if x.sid = f.sid ∧ f.xport ≠ .trunk then { x with lastAt := s.now } else x)
    ({ s with mbx := { s.mbx with sessions := ss } } : State).reply f op rc data

/-! ### Requests to home modules (R647) -/

/-- The request as it goes out. -/
def HomeAsk.out (a : HomeAsk) : Out := .homeReq a.home a.kind a.ext a.n

/-- The release of what a home granted. -/
def HomeAsk.undo (a : HomeAsk) : Out := .homeReq a.home 1 a.ext a.n

/-- A command asks the homes it needs and waits for them. -/
def State.askHomes (s : State) (q : HomeReq) : State :=
  let s1 := s.emits (q.asks.map HomeAsk.out)
  { s1 with pool := { s1.pool with homeReqs := s1.pool.homeReqs ++ [q] } }

/-- A command that asked home modules ends without them: what they granted is given back, but for `but`, a home that is
lost or refused (R647). -/
def State.homeFail (s : State) (q : HomeReq) (but rc : Nat) : State :=
  let s1 : State := { s with pool := { s.pool with homeReqs := s.pool.homeReqs.erase q } }
  let back := if q.op = 0xC505 ∨ q.op = 0xCB05 then [] else (q.done ++ q.asks).filter (fun a => a.home != but)
  (s1.emits (back.map HomeAsk.undo)).lateReply q.frame q.op rc []

/-- A home that is lost answers nothing any more: BIND_ADD and its like end with PEER_LOST; a harvest goes on with the
other homes (R454, R647). -/
def State.homesGone (s : State) (m : Nat) : State :=
  (s.pool.homeReqs.filter (fun q => q.op != 0xC611 && q.asks.any (fun a => a.home == m))).foldl (fun s q => s.homeFail q m rcPeerLost) s

end Sys2Proof.Machine
end

