-- ==== Sys2Proof/Machine/Depart.lean ====
section
/-! DEFINITION. Fencing, departures and releases of partners, removal of bindings, loss of a peer module, and elements that leave service (chapters 1, 5 and 6). -/
namespace Sys2Proof.Machine

/-! ### Directory purge of one agent (Table 5.8, Table 6.15) -/

/-- The entry without an agent: its pointer, and a CHOST bit only when neither host of the pair may hold
the sector; BCAST is not narrowed (R76). -/
def DEnt.forget (e : DEnt) (a : Agent) (pairHolds : Bool) : DEnt :=
  match e.mode with
  | 0 =>
    let e1 := [0, 1, 2, 3].foldl (fun e i => match ownerIdx e.px (e.ls i) with
      | some n => if e.ptr n = agentId a then e.drop i a else e
      | none => e) e
    let e2 := match e1.ptrIdx (agentId a) with
      | some n => e1.setPtr n 0xFF
      | none => e1
    let none? := e2.p0 == 0xFF && e2.p1 == 0xFF && e2.p2 == 0xFF
    if none? ∧ ¬ e2.px then [0, 1, 2, 3].foldl (fun e i => if e.ls i = 1 then e.setLs i 0 else e) e2 else e2
  | 1 => match a with
    | .host h =>
      if pairHolds then e
      else
        let hs := e.hosts &&& ~~~((1 : BitVec 24) <<< (h / 2))
        if hs = 0 then [0, 1, 2, 3].foldl (fun e i => if e.px then e else e.setLs i 0) { e with hosts := hs } else { e with hosts := hs }
    | _ => e
  | _ => e

/-- Every home keeper sweeps its directory for a departed agent: S holdings are cleared, X and O holdings
leave their lines poisoned, unless the extent is bound read-only to the agent (Table 5.8, R124). -/
def State.purgeAgent (s : State) (a : Agent) : State :=
  let sectors := s.keeper.dir.flatMap (fun k => k.2.map (fun e => (sectorFpa (k.1 / 28672) (k.1 % 28672) e.tag, e)))
  sectors.foldl (fun s x =>
    let fpa0 := x.1
    match s.dent fpa0 with
    | none => s
    | some e =>
      let owned := [0, 1, 2, 3].filter (fun i => (s.mayHold e i (fpa0 + 64 * i)).any (fun y => y.1 == a && y.2))
      let ro := match a with | .host h => s.hostRO h fpa0 | _ => false
      let s1 := if ro then s else owned.foldl (fun s i =>
        if e.px then s.lineSpoilt (fpa0 / 64 + i)
        else s.poisonMem (fpa0 + 64 * i)) s
      let pair := match a with | .host h => s.hostMay (if h % 2 = 0 then h + 1 else h - 1) fpa0 | _ => false
      match s1.dent fpa0 with
      | none => s1
      | some e1 => s1.putDent fpa0 (e1.forget a pair)) s

/-! ### Bindings and extents (R239 to R245, R646) -/

/-- BINDS of one extent of this module lowered; at zero a BOUND extent goes to SCRUB (R245). -/
def State.unbind1 (s : State) (e : Nat) : State :=
  s.modExt e (fun x =>
    let b := x.binds - 1
    { x with binds := b, state := if b = 0 ∧ x.state = .bound then .scrub else x.state })

/-- The extents of an entry unbound; for another home module the request goes to it (R647). -/
def State.unbindEnt (s : State) (e : Ent) : State :=
  if e.home = 15 then s
  else if e.home = s.glob.midx then (List.range (e.nm1 + 1)).foldl (fun s i => s.unbind1 (e.fext + i)) s
  else s.emit (.homeReq e.home 1 e.fext (e.nm1 + 1))

/-- A binding entry gone: its number is free and its bit leaves every BINDMASK (R414). -/
def State.delEnt (s : State) (h n : Nat) : State :=
  let s1 := { s with pool := { s.pool with ent := Tbl.del s.pool.ent (512 * h + n) } }
  let f := fun (x : Nat × Slice) => (x.1, if x.2.host = h then { x.2 with mask := dropOf n x.2.mask } else x.2)
  { s1 with slices := s1.slices.map f }.bindGen

/-- The host's link can be sent events. -/
def State.hostLive (s : State) (h : Nat) : Bool :=
  s.pool.partner.any (fun e => (e.2.kind == 1 || e.2.kind == 2) && e.2.index == h && e.2.timerEnd == none)

/-- A removal begins: the entry stops admitting and its sectors held by the host are recalled (R239). -/
def State.removeStart (s : State) (h n : Nat) (tell : Bool) : State :=
  match Tbl.find s.pool.ent (512 * h + n) with
  | none => s
  | some e =>
    let inR := fun fpa => (List.range (e.nm1 + 1)).any (fun i => s.entExt e (e.hoffExt + i) == (homeOf fpa, extOf fpa))
    let s1 := { s with pool := { s.pool with ent := Tbl.put s.pool.ent (512 * h + n) { e with state := .removing, tell := tell } } }
    (s1.sweepStart 1 (512 * h + n) inR (fun a => a == .host h) false false).1

/-- A removal completes: the entry goes, its extents are unbound, and DC_RELEASED is raised where asked (R239, R242). -/
def State.removeDone (s : State) (h n : Nat) : State :=
  match Tbl.find s.pool.ent (512 * h + n) with
  | none => s
  | some e =>
    let s1 := (s.unbindEnt e).delEnt h n
    let s2 := { s1 with keeper := { s1.keeper with sweeps := s1.keeper.sweeps.filter (fun w => ¬ (w.why == 1 && w.arg == 512 * h + n)) } }
    if e.tell then s2.pevent 0xF ((s.hostPort h).getD 0xFF) e.dcr (if e.home = s.glob.midx then some (e.fext, e.nm1 + 1) else none) else s2

/-- The sweep of a removal has ended. -/
def State.removeQuiet (s : State) (h n : Nat) : Bool :=
  s.keeper.sweeps.all (fun w => ! (w.why == 1 && w.arg == 512 * h + n) || s.sweepQuiet w.num)

/-- Lowest free entry number of a host. -/
def State.freeEnt (s : State) (h : Nat) : Option Nat :=
  (List.range 512).find? (fun n => (Tbl.find s.pool.ent (512 * h + n)).isNone)

/-- Extents taken from a host at once in its translation: the host is told, what it holds of them is recalled, and the
rest follows when the recall has answered (R239, R646). -/
def State.cutRun (s : State) (h n : Nat) (e : Ent) (es : List Nat) (first : Nat) : State :=
  let db := (s.hostPort h).bind s.partner |>.any (fun x => x.kind == 1 && x.timerEnd == none)
  let s1 := if db then s.emit (.dcEvent h 2 n) else s
  let inR := fun fpa => homeOf fpa == s.glob.midx && es.contains (extOf fpa)
  let y := if s.hostLive h then (let z := s1.sweepStart 5 h inR (fun a => a == .host h) false false; (z.1, some z.2)) else (s1, none)
  let c : Cut := { sweep := y.2, told := db, port := (s.hostPort h).getD 0xFF, dcr := e.dcr, first := first, n := es.length, left := es }
  { y.1 with pool := { y.1.pool with cuts := y.1.pool.cuts ++ [c] } }

/-- Extents of this module cut out of one entry, which splits (R646). -/
def State.cutEnt (s : State) (h n : Nat) (es : List Nat) : State :=
  match Tbl.find s.pool.ent (512 * h + n) with
  | none => s
  | some e =>
    let offs := (List.range (e.nm1 + 1))
    let gone := offs.filter (fun i => es.contains (e.fext + i))
    if e.home ≠ s.glob.midx ∨ gone = [] then s
    else
      let s0 := s.cutRun h n e (gone.map (e.fext + ·)) (e.fext + gone.headD 0)
      match runsOf (offs.filter (fun i => ! es.contains (e.fext + i))) with
      | [] => s0.delEnt h n
      | r :: rest =>
        let mk := fun (x : Nat × Nat) => { e with hoffExt := e.hoffExt + x.1, fext := e.fext + x.1, nm1 := x.2 - 1 }
        let s1 := { s0 with pool := { s0.pool with ent := Tbl.put s0.pool.ent (512 * h + n) (mk r) } }.bindGen
        rest.foldl (fun s x => match s.freeEnt h with
          | some k =>
            let s2 := { s with pool := { s.pool with ent := Tbl.put s.pool.ent (512 * h + k) (mk x) } }
            { s2 with slices := s2.slices.map (fun y => (y.1, if y.2.host = h ∧ y.2.mask.contains n then { y.2 with mask := y.2.mask ++ [k] } else y.2)) }
          | none =>
            -- no entry is free: the run is removed with the extents named
            s.cutRun h n e ((List.range x.2).map (e.fext + x.1 + ·)) (e.fext + x.1)) s1

/-- Extents of this module removed from every host's bindings (Table 5.9, R255). -/
def State.cutExts (s : State) (es : List Nat) : State :=
  (s.pool.ent.map (·.1)).foldl (fun s k => s.cutEnt (k / 512) (k % 512) es) s

/-- An extent of a running POOL_EXTENT_RELEASE has left every binding and every recall for that has answered. -/
def State.cutFree (s : State) (e : Nat) : Bool := ! s.pool.cuts.any (fun c => c.left.contains e)

/-- A running POOL_EXTENT_RELEASE goes on: SUSPECT extents that have left every binding go through SCRUB, and the
operation ends when all have settled (R255, Table 10.12). -/
def State.releaseStep (s : State) : State :=
  match s.pool.releasing with
  | none => s
  | some l =>
    let s0 := (l.filter s.cutFree).foldl (fun s e => s.modExt e (fun y => { y with binds := 0, state := if y.state = .suspect then .scrub else y.state })) s
    let left := l.filter (fun e => ! s0.cutFree e || ((s0.ext e).state != .free && (s0.ext e).state != .failed && (s0.ext e).state != .absent))
    let total := match Tbl.find s0.mbx.ops 5 with | some o => o.total | none => 0
    let s1 := ({ s0 with pool := { s0.pool with releasing := some left } }).posOp 5 (total - left.length)
    if left = [] then ({ s1 with pool := { s1.pool with releasing := none } }).endOp 5 0 none else s1

/-- One removal whose recall has answered completes: its extents are unbound, and DC_RELEASED is raised where the host was
told (R239, R242, R255). -/
def State.cutDone (s : State) (c : Cut) : State :=
  let s1 := match c.sweep with | some n => s.sweepEnd n | none => s
  let s2 := c.left.foldl (fun s e => s.unbind1 e) ({ s1 with pool := { s1.pool with cuts := s1.pool.cuts.erase c } } : State)
  let s3 := if c.told then s2.pevent 0xF c.port c.dcr (some (c.first, c.n)) else s2
  s3.releaseStep

/-- Removals whose recalls have answered complete. -/
def State.cutsGo (s : State) : State :=
  s.pool.cuts.foldl (fun s c => if (match c.sweep with | some n => s.sweepQuiet n | none => true) then s.cutDone c else s) s

/-- Extents become ABSENT; CAPACITY_RETIRED is logged for each run. -/
def State.retire (s : State) (port : Nat) (es : List Nat) : State :=
  let s0 : State := { s with pool := { s.pool with cuts := s.pool.cuts.map (fun c => { c with left := c.left.filter (fun e => ! es.contains e) }) } }
  let s1 := es.foldl (fun s e => s.modExt e (fun x => { state := .absent, gen := x.gen })) s0
  ((runsOf es).foldl (fun s r => s.pevent 0xC port 0 (some r)) s1).bindGen

/-- Extents of this module backed by a port, ascending. -/
def State.extsOf (s : State) (port : Nat) (p : ExtState → Bool) : List Nat :=
  (s.pool.ext.filter (fun e => e.2.port == port && e.2.state != .absent && p e.2.state)).map (·.1)

/-! ### Evacuation ends (R261, R264, R502) -/

/-- An evacuation ends: the extent in progress goes back to its state, F goes through SCRUB, the stall is released. -/
def State.evacEnd (s : State) (status : Nat) (loseF : Bool) : State :=
  match s.pool.evac with
  | none => s
  | some v =>
    let s1 := s.modExt v.e (fun x => if x.state = .evacSrc then { x with state := v.prev } else x)
    let s2 := s1.modExt v.f (fun x => if x.state = .evacDst then { x with state := if loseF then .failed else .scrub } else x)
    let s3 := { s2 with pool := { s2.pool with evac := none, dirty := [] } }.modCh v.ch (fun c => { c with fwJob := false })
    s3.endOp 3 status (some v.skipped)

/-! ### Slices released with their host (R413) -/

/-- Extents of other modules in a list of extents packed as HOME and EXT, as runs of one home. -/
def State.remoteRuns (s : State) (exts : List Nat) : List (Nat × Nat × Nat) :=
  let rs := exts.filter (fun x => x / 2 ^ 20 != s.glob.midx && x / 2 ^ 20 != 15)
  (runsOf rs).map (fun r => (r.1 / 2 ^ 20, r.1 % 2 ^ 20, r.2))

/-- A slice's dirty log stops: homes elsewhere that no other log of this module needs are told (R453, R455). -/
def State.logOff (s : State) (n : Nat) : State :=
  match (s.slice n).bind (fun x => x.log) with
  | none => s
  | some g =>
    let others := (s.slices.filter (fun e => e.1 != n)).flatMap (fun e => match e.2.log with | some g => g.exts | none => [])
    let gone := g.exts.filter (fun x => ! others.contains x)
    (s.modSlice n (fun x => { x with log := none })).emits ((s.remoteRuns gone).map (fun r => Out.homeReq r.1 4 r.2.1 r.2.2))

/-- What is left of a waiting charge once its slice is released: a host request waits on for the slice of PASID 0 (R415). -/
def Charge.without (c : Charge) (n : Nat) (h0 : Option Nat) : Option Charge :=
  if c.slice ≠ some n then some c
  else match c.work with
    | .host .. => some { c with slice := h0, bkts := c.bkts.filter (fun k => k.1 || decide (k.2 / 16 ≠ n)) }
    | _ => none

/-- A slice released with all it holds. A request of a passthrough function that waited for it is answered Unsupported Request (R415). -/
def State.releaseSlice (s : State) (n : Nat) : State :=
  match s.slice n with
  | none => s
  | some x =>
    let s0 := (x.freezers.foldl (fun s f => s.lateReply f.1 f.2 rcNotFound []) s).logOff n
    let cqs := (s0.sliceRings n).map (fun r => (s0.ring r).cq)
    let s1 := (s0.sliceRings n).foldl (fun s r => s.modRing r (fun _ => {})) s0
    let s2 := cqs.foldl (fun s c => s.modCring c (fun _ => {})) s1
    let s3 := (s2.sliceChans n).foldl (fun s c => s.modCh c (fun y => { y with slice := none, begun := [], pre := [], fetching := [], staging := [] })) s2
    let s4 := s3.emits (s3.shape.waiting.filterMap (fun c => match c.work with
      | .pass p _ => if c.slice = some n then some (Out.tlp p 1 []) else none
      | _ => none))
    let sh := s4.shape
    { s4 with
      shape := { sh with bkt := Tbl.keep (fun k _ => decide (k / 16 ≠ n)) sh.bkt, waiting := sh.waiting.filterMap (fun c => c.without n (s4.sliceKey x.host 0)) }
      ward := { s4.ward with stSlice := Tbl.del s4.ward.stSlice n }
      slices := Tbl.del s4.slices n }

/-! ### Fence and surprise departure (R248) -/

/-- Hosts' flush requests are answered once the write-back has finished and every expander has completed. -/
def State.gpfAnswer (s : State) : State :=
  if s.sill.gpfExps = [] ∧ ¬ (s.glob.pstate = .brownout ∧ s.sill.brownStep < 5) then
    { s with sill := { s.sill with gpfHosts := [] } }.emits (s.sill.gpfHosts.map (fun p => Out.gpf p true))
  else s

/-- The link of a port drops: no state of the link is left, and what the port owed or waited for with its
partner is dropped. -/
def State.linkDrop (s : State) (p : Nat) : State :=
  let s1 := s.modPort p (fun x => { x with lanes := if x.lanes = .deep then .deep else .detect, found := false, width := 0, rate := 0, rev := false, l0pW := 0, ide := false, enum := false, memActive := false, pid := none, cls := 0, open_ := [], dsFails := 0, l1Wait := false })
  let mine := fun (l : List (Nat × Nat)) => l.filter (fun x => x.1 != p)
  let s2 : State := { s1 with hs := { s1.hs with wbOpen := mine s1.hs.wbOpen, biOpen := mine s1.hs.biOpen, owed := mine s1.hs.owed, conflicts := mine s1.hs.conflicts, asDat := mine s1.hs.asDat, biAddr := s1.hs.biAddr.filter (fun x => x.1 != p), dead := mine s1.hs.dead, shapeQ := s1.hs.shapeQ.filter (fun x => x.1 != p) }
                              shape := { s1.shape with waiting := s1.shape.waiting.filter (fun c => match c.work with | .host q _ _ => q != p | .pass q _ => q != p | _ => true) }
                              sill := { s1.sill with gpfHosts := dropOf p s1.sill.gpfHosts, gpfExps := dropOf p s1.sill.gpfExps } }
  if s.sill.gpfExps.contains p then s2.gpfAnswer else s2

/-- A line of this module is backed by a port. -/
def State.backedBy (s : State) (port line : Nat) : Bool := s.homed (line * 64) && (s.ext (extOf (line * 64))).port == port

/-- What waits for an expander that has departed ends as a failed access: transactions, write-backs, and the keeper's own
writes (R172). -/
def State.failMem (s : State) (port : Nat) : State :=
  let s1 := (s.keeper.txns.filter (fun t => (t.reads || t.stage == .memWr) && s.backedBy port t.line)).foldl
    (fun s t => if t.reads then s.drsArrives (t.line * 64) true 0
      else match s.txn t.line with
        | some u =>
          let s1 := if u.q.bulk then s.blkUnused u.q.r.src u.line else s
          (s1.dmaFails u.q.r.src u.line 8).finish u (match u.grant with | .cmp | .cmpE => u.grant | _ => .poison) 0
        | none => s) { s with xbar := { s.xbar with rel := s.xbar.rel.filter (fun r => r.acc.port != port) } }
  let wb := s1.keeper.wbs.filter (fun x => x.1 != .mod s1.glob.midx && s1.backedBy port x.2)
  let s2 : State := { s1 with keeper := { s1.keeper with
    wbs := s1.keeper.wbs.filter (fun x => ! wb.contains x), side := s1.keeper.side.filter (fun l => ! s1.backedBy port l) } }
  wb.foldl (fun s x => s.grant x.1 .cmp (x.2 * 64) 0) s2

/-- The carve-out is lost with its expander (R158). -/
def State.spillLost (s : State) : State := (s.spillsLost 0).spillsLost 1

/-- Without the queue memory of Q0 and Q1 the die-level points of a switch die leave service: its spill engine stops, with
what its points had spilled, and EN clears (R136, R158). -/
def State.engineCheck (s : State) (d : Nat) : State :=
  if s.diePoints d then s
  else if s.xbar.spillCtl.getLsbD 0 ∨ s.xbar.spillQ.any (fun e => pointDie e.2.2.dst == d) then s.spillsLost d else s

/-- Both switch dies' engines checked. -/
def State.enginesCheck (s : State) : State := (s.engineCheck 0).engineCheck 1

/-- Effects of a surprise departure of an expander (Table 5.8, Table 5.13). -/
def State.expanderLost (s : State) (p : Nat) : State :=
  let carve := s.extsOf p (fun x => x == .carve) ≠ []
  -- an evacuation from or to it, and an addition, end first
  let s1 : State := match s.pool.evac with
    | some v => if v.port = p then s.evacEnd 4 false else if (s.ext v.f).port = p then s.evacEnd 5 true else s
    | none => s
  let s2 : State := match s1.pool.adding.find? (fun x => x.1 == p) with
    | some a =>
      let left : List Nat := a.2.1.filter (fun e => (s1.ext e).state == ExtState.scrub)
      let s3 : State := left.foldl (fun (s : State) e => s.modExt e (fun x => { state := .absent, gen := x.gen })) s1
      let s4 : State := { s3 with pool := { s3.pool with adding := s3.pool.adding.filter (fun x => x.1 != p) } }
      if a.2.2 then (s4.posOp 5 (a.2.1.length - left.length)).endOp 5 4 none else s4
    | none => s1
  let es := s2.extsOf p (fun _ => true)
  let s3 := es.foldl (fun s e => s.modExt e (fun x => { x with state := .failed, told := false })) s2
  -- extents of a running POOL_EXTENT_RELEASE that became FAILED leave every binding and count as settled (Table 5.13)
  let s3 := match s3.pool.releasing with
    | some l => (s3.cutExts (l.filter (fun e => es.contains e))).releaseStep
    | none => s3
  let s4 := (runsOf es).foldl (fun s r => s.pevent 8 p 0 (some r)) s3
  let s5 := (s4.sweepStart 6 p (fun fpa => s4.homed fpa && es.contains (extOf fpa)) (fun _ => true) false true).1
  let s6 := s5.arbFence p
  let s7 := s6.failMem p
  if carve then s7.spillLost else s7

/-- Pending dynamic-capacity exchanges of a departing host: additions are dropped and unbound, releases
complete as if the host had answered (Table 5.13). -/
def State.dcSettle (s : State) (h : Nat) : State :=
  (s.entsOf h).foldl (fun s e => match e.2.state with
    | .addPending => (s.unbindEnt e.2).delEnt h e.1
    | .releasePending => (match Tbl.find s.pool.ent (512 * h + e.1) with
        | some x => { s with pool := { s.pool with ent := Tbl.put s.pool.ent (512 * h + e.1) { x with tell := true } } }.removeDone h e.1
        | none => s)
    | .removing => s
    | _ => s) s

/-- A surprise departure begins: the port is fenced and the effects of Table 5.8 take place; DEPART_SURPRISE
is logged once they are complete. -/
def State.departStart (s : State) (p cause : Nat) : State :=
  match s.partner p with
  | none => s.linkDrop p
  | some x =>
    if x.timerEnd.isSome then
      -- a newcomer that has not been confirmed leaves again
      { s.linkDrop p with pool := { s.pool with newcomer := Tbl.del s.pool.newcomer p } }
    else
      let s0 := s.linkDrop p
      let tmr := (Tbl.get ({} : PSet) s.pool.pset p).timer
      let s1 := (s0.modPort p (fun y => { y with fenced := true })).modPartner p (fun y =>
        { y with leaving := true, cause := cause, leftAt := s.now, timerEnd := some (s.now + msTicks tmr) })
      match x.kind with
      | 1 | 2 =>
        let s2 := if x.kind = 1 then (s1.synthAll (.host x.index)).purgeAgent (.host x.index) else s1
        let s3 := s2.dcSettle x.index
        (s3.slices.filter (fun e => e.2.host == x.index)).foldl (fun s e => s.sliceRingsOff e.1) s3
      | 4 => ((s1.synthAll (.dev x.index)).purgeAgent (.dev x.index)).arbFence p
      | 3 => s1.expanderLost p
      | _ => s1.arbFence p

/-- The effects are complete: DEPART_SURPRISE is logged (R248). -/
def State.departLogged (s : State) (p : Nat) : State :=
  match s.partner p with
  | none => s
  | some x =>
    let tmr := (Tbl.get ({} : PSet) s.pool.pset p).timer
    if x.leaving then (s.modPartner p (fun y => { y with leaving := false, timerEnd := some (s.now + msTicks tmr) })).pevent 2 p x.cause none else s

/-- A partner is released: what its timer's expiry does (Table 5.9). -/
def State.releasePartner (s : State) (p : Nat) : State :=
  match s.partner p with
  | none => s
  | some x =>
    let drop := fun (s : State) => ({ s with pool := { s.pool with partner := Tbl.del s.pool.partner p } }.modPort p (fun y => { y with fenced := false }))
    match x.kind with
    | 1 | 2 =>
      let s1 := (s.entsOf x.index).foldl (fun s e => (s.unbindEnt e.2).delEnt x.index e.1) s
      let s2 := (s1.slices.filter (fun e => e.2.host == x.index)).foldl (fun s e => s.releaseSlice e.1) s1
      let s3 := { s2 with pool := { s2.pool with bridge := Tbl.keep (fun k _ => decide (k / 16 ≠ x.index)) s2.pool.bridge, forced := s2.pool.forced.filter (fun f => f.1 != x.index) } }
      -- a forced release that waited has its effect and is answered
      drop ((s2.pool.forced.filter (fun f => f.1 == x.index)).foldl (fun s f => s.lateReply f.2.2 0xC402 rcOk []) s3)
    | 3 =>
      let es := s.extsOf p (fun st => st == .failed)
      let s1 := (s.cutExts es).retire p es
      drop s1.releaseStep
    | 4 => drop { s with ward := { s.ward with devCut := Tbl.del s.ward.devCut x.index, stDev := Tbl.del s.ward.stDev x.index } }
    | 5 => drop { s with pool := { s.pool with bridge := Tbl.keep (fun _ q => decide (q % 64 ≠ p)) s.pool.bridge } }
    | _ => drop s

/-! ### Loss of a peer module (R301, R302) -/

/-- Bulk data toward a peer that is lost goes with the messages of its trunk port. -/
def State.bulkGone (s : State) (t : Nat) : State :=
  let x := s.xbar
  { s with xbar := { x with bulk := x.bulk.filter (fun c => c.dst != 0x68 + t), spillQ := x.spillQ.filter (fun e => e.2.2.dst != 0x68 + t) } }

/-- A trunk port back at OFF, or TRAIN where it is enabled: its link state is gone (R288, Table 6.15). -/
def State.tpClear (s : State) (t : Nat) : State :=
  (s.bulkGone t).modTp t (fun x => { ctl := x.ctl, errCtl := x.errCtl, event := x.event, cause := x.cause, noRetrain := x.noRetrain, stopped := x.stopped, authFails := x.authFails, state := if bit x.ctl.toNat 31 ∧ ¬ x.noRetrain then .train else .off })

/-- The effects of Table 6.15 for a peer module, then DEPART_SURPRISE. P0 keeps the index reserved (R310); a
worker keeps another worker as a member (R312). -/
def State.peerGone (s : State) (m : Nat) : State :=
  if s.hier.lost.contains m ∨ ¬ s.hier.members.any (fun x => x.idx == m) then s
  else
    let tp? := s.trunkTo m
    let s0 := { s with hier := { s.hier with lost := s.hier.lost ++ [m] } }
    let s1 := (((s0.synthAll (.mod m)).closeAcks m).purgeAgent (.mod m)).bulkOrphans m
    let k := s1.keeper
    let k1 : Keeper := { k with psnoops := k.psnoops.filter (fun p => homeOf (p.line * 64) != m), rlc := k.rlc.filter (fun c => homeOf (c.line * 64) != m) }
    -- requests sent there end with poison in time, whatever becomes of the module (R303, Table 6.20)
    let k1 : Keeper := { k1 with txns := k1.txns.map (fun t => if (t.stage = .fwd ∨ t.stage = .inval) ∧ homeOf (t.line * 64) = m then { t with psn := true } else t) }
    let k2 : Keeper := { k1 with wbs := k1.wbs.filter (fun w => ! (w.1 == Agent.mod s.glob.midx && homeOf (w.2 * 64) == m)) }
    let s2 : State := { s1 with keeper := k2 }
    let s3 := (s2.sweepStart 7 m (fun fpa => homeOf fpa == m) (fun _ => true) false true).1
    -- lines of proxy entries without a local holder are dropped at once
    let s4 := (s3.dirLines (fun fpa => homeOf fpa == m)).foldl (fun s x => match s.dent (x.1 * 64) with
      | some e => if (s.mayHold e x.2.2 (x.1 * 64)).isEmpty then s.putDent (x.1 * 64) (e.setLs x.2.2 0) else s
      | none => s) s3
    -- forwarded commands outstanding there are answered PEER_LOST (R467)
    let s5 := (s4.mbx.fwds.filter (fun f => f.frame.dest == m)).foldl (fun s f => s.lateReply f.frame f.opcode rcPeerLost []) s4
    -- sessions carried over the link are closed
    let s6 : State := ({ s5 with mbx := { s5.mbx with fwds := s5.mbx.fwds.filter (fun f => f.frame.dest != m), sessions := s5.mbx.sessions.filter (fun x => m != 0 || x.xport != .trunk) } } : State).homesGone m
    let kept := if s6.glob.hrole = 2 then s6.hier.members else s6.hier.members.filter (fun x => x.idx != m)
    match tp? with
    | some t =>
      let s7 := (s6.pevent 2 (0x40 + t) 1 none).tpClear t
      let tmr := (Tbl.get ({} : PSet) s.pool.pset (0x40 + t)).timer
      let rsv := match (if s.glob.hrole = 1 then s.hier.members.find? (fun x => x.idx == m) else none) with
        | some x => s7.hier.reserved ++ [(x.serial, m, s.now + msTicks tmr)]
        | none => s7.hier.reserved
      let h : Hier := { s7.hier with members := kept, reserved := rsv }
      { s7 with pool := { s7.pool with partner := Tbl.del s7.pool.partner (0x40 + t) }, hier := h }
    | none => { s6 with hier := { s6.hier with members := kept } }

/-- A hierarchy event: recorded in the journal, and the mailbox summary's HIER set (Table 10.11, Table 10.17). -/
def State.hierEvent (s : State) (code serial : Nat) : State :=
  (s.journal { type := 7, status := 0, code := code, opid := 0, position := 0, arg := serial, time := 0 }).summary 4 0

/-- A worker that has lost P0 is an ORPHAN: it closes its links to every other member and keeps only bindings
to its own extents (R311). -/
def State.orphan (s : State) : State :=
  let others := (s.hier.members.map (fun x => x.idx)).filter (fun i => i != s.glob.midx && i != 0)
  let s1 := others.foldl (fun s m => s.peerGone m) s
  let s2 : State := { s1 with glob := { s1.glob with hrole := 3 }, hier := { s1.hier with members := s1.hier.members.filter (fun x => x.idx == s1.glob.midx), join := none, admitted := false, joined := false } }
  s2.pool.ent.foldl (fun s e => if e.2.home ≠ s.glob.midx ∧ e.2.home ≠ 15 then s.delEnt (e.1 / 512) (e.1 % 512) else s) s2

/-- Declaring a peer module lost (R301, R302), and what follows in the hierarchy: a HIER_REMOVE of it ends
(R314), a worker tells P0 of another worker (R312) and becomes an ORPHAN without P0 (R311). -/
def State.peerLost (s : State) (m : Nat) : State :=
  if s.hier.lost.contains m ∨ ¬ s.hier.members.any (fun x => x.idx == m) then s
  else
    let serial := match s.hier.members.find? (fun x => x.idx == m) with | some x => x.serial | none => 0
    let t0 := s.trunkTo m
    let s0 := s.peerGone m
    let s1 := if s.glob.hrole = 1 ∧ s.hier.remove.any (fun r => r.1 == m) then ({ s0 with hier := { s0.hier with remove := none } } : State).endOp 11 4 none else s0
    let s2 := if s.glob.hrole = 1 ∧ s.hier.join.any (fun j => j.idx == m) then { s1 with hier := { s1.hier with join := none } } else s1
    if s.glob.hrole = 2 then
      if m = 0 then s2.orphan
      else
        let s3 := match t0 with | some t => s2.modTp t (fun x => { x with stopped := true }) | none => s2
        match s3.trunkTo 0 with
        | some t => s3.emit (.hierMsg t { kind := 5, idx := m, serial := serial, autoAdmit := false, meshTimeout := 0, trCpl := 0, members := [] })
        | none => s3
    else s2

/-- The peer of a trunk port is lost, whether or not it has an index here. -/
def State.tpPeerLost (s : State) (t cause : Nat) : State :=
  let s0 := s.modTp t (fun x => { x with cause := cause })
  let s0 := if (s.tp t).state = .active then s0.trunkEvent t 19 cause true else s0
  let s0 := if (s.tp t).state = .active ∨ (s.tp t).state = .hold then s0.trunkEvent t 17 0 false else s0
  let up := (s.tp t).state = .active ∨ (s.tp t).state = .hold
  let s1 := if (s0.tp t).peerIdx ≠ 15 ∧ (up ∨ cause = 6) then s0.peerLost (s0.tp t).peerIdx else s0
  -- a worker that has no index yet abandons its join (Table 6.20)
  let s2 : State := if (s.tp t).p0 ∧ s.glob.hrole = 2 ∧ s.glob.midx = 15 ∧ (up ∨ (s.tp t).state = .auth) then { s1 with glob := { s1.glob with hrole := 3 } } else s1
  s2.tpClear t

/-- The link of a trunk port is down and holds (R299, R300). LINK_HOLD is in microseconds within its limits (Table 6.18). -/
def State.tpHold (s : State) (t cause : Nat) : State :=
  let x := s.tp t
  if x.state = .active then
    (s.modTp t (fun x => { x with state := .hold, cause := cause, lock := 0, tx := .tl0, rx := .tl0, precode := false, missed := [], lanePos := [], mcount := [], fast := true, holdEnd := some (s.now + usTicks (max 1000 (min 50000 (bits x.ctl.toNat 15 0)))), uncorr := [], replays := [] })).trunkEvent t 19 cause true
  else s

/-! ### Elements that leave service (R36, R37, R54 to R59) -/

/-- A transaction ends with its slice: its request completes with poison, and what its bulk write had waiting goes. -/
def State.endTxn (s : State) (t : Txn) : State :=
  let held := s.xbar.rel.any (fun r => r.src == t.q.r.src && lineOf r.acc.fpa == t.line)
  let s1 : State := { s with xbar := { s.xbar with rel := s.xbar.rel.filter (fun r => ! (r.src == t.q.r.src && lineOf r.acc.fpa == t.line)) } }
  s1.poisonReply (if t.stage = .memWr ∧ ¬ held then { t.q with bulk := false } else t.q)

/-- A keeper slice stopped: its transactions complete with poison and its requests will too (R37). -/
def State.stopSlice (s : State) (ks : Nat) : State :=
  if s.svc.stoppedSlices.contains ks then s
  else
    let s0 := { s with svc := { s.svc with stoppedSlices := s.svc.stoppedSlices ++ [ks] } }
    let mine := s0.keeper.txns.filter (fun t => sliceHash (t.line * 64) == ks)
    let waitq := s0.keeper.cq.filter (fun q => sliceHash q.r.fpa == ks)
    let k := s0.keeper
    let s1 := { s0 with keeper := { k with
      txns := k.txns.filter (fun t => sliceHash (t.line * 64) != ks)
      cq := k.cq.filter (fun q => sliceHash q.r.fpa != ks)
      waits := k.waits.filter (fun w => sliceHash (w.line * 64) != ks), psnoops := k.psnoops.filter (fun w => sliceHash (w.line * 64) != ks)
      victims := k.victims.filter (fun v => v.1 != ks), dir := Tbl.keep (fun d _ => decide (d / 28672 ≠ ks)) k.dir
      alc := k.alc.filter (fun c => sliceHash (c.line * 64) != ks), rlc := k.rlc.filter (fun c => sliceHash (c.line * 64) != ks) } }
    let s2 := mine.foldl (fun s t => if t.stage = .ack then s else s.endTxn t) s1
    waitq.foldl (fun s q => s.poisonReply q) s2

/-- A reaction-initiated reset of a keeper slice (R56). -/
def State.resetSlice56 (s : State) (ks : Nat) : State :=
  let inKs := fun fpa => sliceHash fpa == ks
  -- back-invalidates to every holder, whose answers are not awaited
  let ls := s.dirLines inKs
  let s1 := ls.foldl (fun s x => (s.mayHold x.2.1 x.2.2 (x.1 * 64)).foldl (fun s a =>
    if s.present a.1 then s.snpCell a.1 0x0B x.1 false (2 ^ (x.1 % 4)) else s) s) s
  -- lines held X by a host or device, X or O by a module, are marked poisoned
  let s2 := ls.foldl (fun s x =>
    if ¬ (s.mayHold x.2.1 x.2.2 (x.1 * 64)).any (fun a => a.2) then s
    else if x.2.1.px then s.lineSpoilt x.1 else s.poisonMem (x.1 * 64)) s1
  -- dirty atomic lines and remote lines are written back
  let s3 := (s2.keeper.alc.filter (fun c => inKs (c.line * 64))).foldl (fun s c => s.alcFlush c.line) s2
  let s4 := (s3.keeper.rlc.filter (fun c => inKs (c.line * 64))).foldl (fun s c => if c.dirty then (s.rlcDrop c.line).wbHome c.line false c.data false else s.rlcDrop c.line) s3
  -- open transactions end with poison
  let mine := s4.keeper.txns.filter (fun t => inKs (t.line * 64))
  let k := s4.keeper
  let s5 := { s4 with keeper := { k with
    txns := k.txns.filter (fun t => ! inKs (t.line * 64)), waits := k.waits.filter (fun w => ! inKs (w.line * 64))
    psnoops := k.psnoops.filter (fun w => ! inKs (w.line * 64)), victims := k.victims.filter (fun v => v.1 != ks)
    dir := Tbl.keep (fun d _ => decide (d / 28672 ≠ ks)) k.dir } }
  mine.foldl (fun s t =>
    if t.stage = .ack then s
    else
      let s := if t.q.kind = .wrInvFull ∨ t.q.kind = .wrInvPart ∨ t.q.kind = .atomOp then s.poisonMem (t.line * 64) else s
      s.endTxn t) s5

/-- Requests go to the arbiter while their requesters have credits: 64 of each may wait there (R166). -/
def Arb.refill (a : Arb) : Arb :=
  a.unsent.foldl (fun a x =>
    if 64 ≤ (a.pend.filter (fun y => y.req == x.req)).length ∨ a.unsent.find? (fun y => y.req == x.req) ≠ some x then a
    else { a with pend := a.pend ++ [x], unsent := a.unsent.erase x }) a

/-- An arbiter's pending requests return to their requesters, which issue them again (R59). Its requesters' sideband is
not its own, so those masked stay so. -/
def State.arbEmpty (s : State) (p : Nat) : State :=
  s.modArb p (fun a => { a with pend := [], unsent := a.grant.toList ++ a.pend ++ a.unsent, grant := none })

/-- An arbiter in reset (Table 3.10). -/
def State.arbReset (s : State) (p : Nat) : State := (s.arbEmpty p).modArb p (fun a => { a with state := 4 })

/-- An arbiter's reset is done: IDLE, or FROZEN (Table 3.10). -/
def State.arbResetDone (s : State) (p : Nat) : State :=
  (s.arbEmpty p).modArb p (fun a => { a.refill with isolated := false, state := if a.fenced ∨ bit a.ctl.toNat 31 then 3 else 0 })

/-- An isolated arbiter stays FROZEN (Table 12.5). -/
def State.arbIsolate (s : State) (p : Nat) : State := (s.arbEmpty p).modArb p (fun a => { a with isolated := true, state := 3 })

/-- A port loses its link and its partner departs (R59, R248). -/
def State.portDrops (s : State) (p cause : Nat) : State :=
  if (s.port p).up ∨ (s.partner p).isSome then s.departStart p cause else s

/-- Everything in a quadrant leaves service (R36). -/
def State.quadOut (s : State) (k : Nat) : State :=
  let s1 := ((List.range 8).map (8 * k + ·)).foldl (fun s p => if s.isPort p then (s.portDrops p 1).modPort p (fun x => { x with lanes := .deep }) else s) s
  let s2 := ([0, 1, 2, 3].map (4 * k + ·)).foldl (fun s ks => s.stopSlice ks) s1
  let s3 := ((List.range 8).map (8 * k + ·)).foldl (fun s c => (s.chanAbort c).modCh c (fun x => { x with out := true })) s2
  let s4 := (s3.tpPeerLost k (s3.tp k).cause).queuesLost k
  s4.modTp k (fun x => { x with state := .off, tx := .tl3, rx := .tl3 })

/-- A quadrant is gated. -/
def State.gateQuad (s : State) (k : Nat) : State :=
  let s1 := s.quadOut k
  ({ s1 with svc := { s1.svc with gatedQuads := addOnce k s1.svc.gatedQuads } } : State).engineCheck (k / 4)

end Sys2Proof.Machine
end

