-- ==== Sys2Proof/Machine/Shaper.lean ====
section
/-! DEFINITION. Token buckets, charges, and the geometry of gate lists with their guard band (chapter 8). -/
namespace Sys2Proof.Machine

/-! ### Buckets (R379 to R388) -/

/-- BURST of a bucket in bytes. -/
def Bucket.burst (b : Bucket) : Nat := bits b.cfg.toNat 26 0
/-- RATE of a bucket in Mb/s. -/
def Bucket.rate (b : Bucket) : Nat := bits b.cfg.toNat 52 33
/-- POINT of a bucket. -/
def Bucket.point (b : Bucket) : Nat := bits b.cfg.toNat 59 53
/-- DIR of a bucket. -/
def Bucket.dir (b : Bucket) : Nat := bits b.cfg.toNat 61 60
/-- EN of a bucket. -/
def Bucket.en (b : Bucket) : Bool := bit b.cfg.toNat 63

/-- An aggregate bucket at reset: its POINT is its own point (Table 8.2). -/
def aggReset (point : Nat) : Bucket := { cfg := BitVec.ofNat 64 (2 ^ 60 + point * 2 ^ 53 + 256), tok := 0 }

/-- A bucket: an aggregate one by its point, a slice one by 16 x slice + number. -/
def State.bucket (s : State) (k : Bool × Nat) : Bucket :=
  if k.1 then (match Tbl.find s.shape.agg k.2 with | some b => b | none => aggReset k.2) else Tbl.get {} s.shape.bkt k.2

/-- A bucket written. -/
def State.putBucket (s : State) (k : Bool × Nat) (b : Bucket) : State :=
  if k.1 then { s with shape := { s.shape with agg := if b = aggReset k.2 then Tbl.del s.shape.agg k.2 else Tbl.set {} s.shape.agg k.2 b } }
  else { s with shape := { s.shape with bkt := Tbl.set {} s.shape.bkt k.2 b } }

/-- The enabled buckets a charge of a slice meets at a point in a direction, 1 OUT or 2 IN (R380); a
charge of no slice is none (R381). -/
def State.bucketsOf (s : State) (sl : Option Nat) (point dir : Nat) : List (Bool × Nat) :=
  match sl with
  | none => []
  | some n =>
    let own := ((List.range 16).map (fun i => (false, 16 * n + i))).filter (fun k =>
      let b := s.bucket k
      b.en && b.point == point && b.dir == dir)
    let a := s.bucket (true, point)
    own.take 1 ++ (if a.en ∧ (a.dir = dir ∨ a.dir = 3) then [(true, point)] else [])

/-- A bucket allows a charge of `n` bytes (R382). -/
def Bucket.allows (b : Bucket) (n : Nat) : Bool := decide (((min n b.burst * 12800 : Nat) : Int) ≤ b.tok)

/-- The tokens of a charge taken from a bucket. -/
def Bucket.take (b : Bucket) (n : Nat) : Bucket := { b with tok := b.tok - ((n * 12800 : Nat) : Int) }

/-- Tokens taken from every bucket of a charge. -/
def State.deduct (s : State) (ks : List (Bool × Nat)) (n : Nat) : State :=
  ks.foldl (fun s k => s.putBucket k ((s.bucket k).take n)) s

/-- An earlier charge waits on one of the buckets (R384). -/
def behind (earlier : List Charge) (ks : List (Bool × Nat)) : Bool := earlier.any (fun c => c.bkts.any (fun k => ks.contains k))

/-- A charge is made: it proceeds with its tokens taken, or waits in arrival order (R382 to R384). -/
def State.charge (s : State) (sl : Option Nat) (point dir bytes : Nat) (w : Work) : State × Bool :=
  let ks := s.bucketsOf sl point dir
  if ks.all (fun k => (s.bucket k).allows bytes) ∧ ¬ behind s.shape.waiting ks then (s.deduct ks bytes, true)
  else ({ s with shape := { s.shape with waiting := s.shape.waiting ++ [{ slice := sl, bkts := ks, bytes := bytes, work := w }], waitUs := addAll sl.toList s.shape.waitUs } }, false)

/-! ### Gate lists (R393 to R400) -/

/-- CYCLE of a set in 8 ns units. -/
def GateSet.cycle (g : GateSet) : Nat := bits g.ctl.toNat 47 24
/-- EN of a set. -/
def GateSet.en (g : GateSet) : Bool := bit g.ctl.toNat 63
/-- SRC of a set: TSYNC. -/
def GateSet.tsync (g : GateSet) : Bool := bit g.ctl.toNat 62

/-- The list as the cycle shapes it: entries with their durations in 8 ns units, cut at the cycle's end,
the last one filling it (R395). -/
def GateSet.spans (g : GateSet) : List (Nat × Nat) :=
  let x := (g.list.take (bits g.ctl.toNat 61 54 + 1)).foldl (fun (r : List (Nat × Nat) × Nat) e =>
    let d := min (bits e.toNat 23 0) (g.cycle - r.2)
    if d = 0 then r else (r.1 ++ [(e.toNat, d)], r.2 + d)) ([], 0)
  match x.1.getLast? with
  | some l => x.1.dropLast ++ [(l.1, l.2 + (g.cycle - x.2))]
  | none => []

/-- Bit of a traffic group in an entry: 0 latency, 1 bulk, 2 management (Table 8.4). -/
def grpOpen (e grp : Nat) : Bool := bit e (24 + grp)

/-- Maximal open and closed spans of a group over the cycle, a span at the end joining one at the start (R396). -/
def GateSet.runs (g : GateSet) (grp : Nat) : List (Bool × Nat) :=
  let l := g.spans.foldl (fun (r : List (Bool × Nat)) e => match r.getLast? with
    | some a => if a.1 = grpOpen e.1 grp then r.dropLast ++ [(a.1, a.2 + e.2)] else r ++ [(grpOpen e.1 grp, e.2)]
    | none => [(grpOpen e.1 grp, e.2)]) []
  match l.head?, l.getLast? with
  | some a, some b => if a.1 = b.1 ∧ 2 ≤ l.length then (a.1, a.2 + b.2) :: (l.drop 1).dropLast else l
  | _, _ => l

/-- Timeout of a gated point in microseconds: DS_CPL_TIMEOUT or TR_CPL_TIMEOUT (R396). -/
def State.pointTimeout (s : State) (point : Nat) : Nat := if point < 64 then (s.port point).dsCpl else 1000 * s.hier.trCplMs

/-- The set passes R396 at a point. -/
def State.setOk (s : State) (point : Nat) (g : GateSet) : Bool :=
  ! g.en || ((List.range 3).all (fun grp =>
      let rs := g.runs grp
      rs.any (fun r => r.1) && rs.all (fun r => ! r.1 || decide (64 ≤ r.2)))
    && (g.runs 0).all (fun r => r.1 || decide (16 * r.2 < 1000 * min s.pool.snoop (s.pointTimeout point))))

/-- Every committed list still passes R396 (R397). -/
def State.gatesOk (s : State) : Bool :=
  s.shape.gate.all (fun e => s.setOk e.1 e.2.now && (match e.2.pending with | some p => s.setOk e.1 p.1 | none => true))

/-- Time in 8 ns units until a group closes, from the start of span `i`, looking at most once round the list. -/
def closeAfter (l : List (Nat × Nat)) (grp i fuel : Nat) : Option Nat :=
  match fuel with
  | 0 => none
  | n + 1 => match l[i % l.length]? with
    | none => none
    | some e => if grpOpen e.1 grp then (closeAfter l grp (i + 1) n).map (· + e.2) else some 0

/-- A group is open at a point now: EN clear, or the entry in force opens it (R394, R410). -/
def State.groupOpen (s : State) (point grp : Nat) : Bool :=
  let g := s.gate point
  ! g.now.en || (! g.shut && (match g.now.spans[g.entry]? with | some e => grpOpen e.1 grp | none => true))

/-- Picoseconds until the group's next close under the list that will be in force (R400); none when it does not close. -/
def State.closeIn (s : State) (point grp : Nat) : Option Nat :=
  let g := s.gate point
  let l := g.now.spans
  let own : Option Nat := if g.now.en then
      (match l[g.entry]? with
      | some e => (closeAfter l grp (g.entry + 1) l.length).map (fun n => (8 * (n + e.2) - (s.shape.mtime - g.entryAt)) * 1000)
      | none => none)
    else none
  match g.pending with
  | some p =>
    let t := (p.2 - s.shape.mtime) * 1000
    let next := if p.1.en ∧ ¬ p.1.tsync then (closeAfter p.1.spans grp 0 (p.1.spans.length + 1)).map (fun n => t + 8000 * n) else none
    if p.1.tsync then own else (match own with
      | some o => if o < t then some o else next
      | none => next)
  | none => own

/-- An open span of a group begins now at a point: its entry has just begun, and the one before it was closed (R399; time
advances in ticks of 40 ns, log 9). -/
def State.spanBegins (s : State) (point grp : Nat) : Bool :=
  let g := s.gate point
  let l := g.now.spans
  decide (s.shape.mtime < g.entryAt + 40)
  && (match l[(g.entry + l.length - 1) % l.length]? with | some e => ! grpOpen e.1 grp | none => false)

/-- A request of a group whose guard is `guard` picoseconds is eligible at a point (R398, R399): the
group is open and does not close within the guard, or the guard exceeds its longest open span and the span has just begun. -/
def State.eligible (s : State) (point grp guard : Nat) : Bool :=
  s.groupOpen point grp &&
  (match s.closeIn point grp with
   | none => true
   | some t => decide (guard < t) ||
      (((s.gate point).now.runs grp).all (fun r => ! r.1 || decide (8000 * r.2 < guard)) && s.spanBegins point grp))

/-- Guard of an access at a downstream port: L data units of 64 bytes, Q bytes queued, W of R399. -/
def State.portGuard (s : State) (port l q : Nat) : Nat :=
  let w := (s.port port).w
  (((q + 68 * l + 16) * 256 + (w - 1)) / max w 1 + 8) * 625

/-- Guard of a message at a trunk port: its slots and those queued ahead of it. -/
def trunkGuard (slots ahead : Nat) : Nat := ((ahead + slots + 14) / 15 + 10) * 1280

end Sys2Proof.Machine
end

