-- ==== Sys2Proof/Machine/TrunkTx.lean ====
section
/-! DEFINITION. The sending side of a trunk port: credits, the start order of messages, SEQ, and the replay buffer (chapter 6). -/
namespace Sys2Proof.Machine

/-- Header and data credits a message takes (Table 6.9). -/
def trunkNeed (m : TrunkMsg) : Nat × Nat :=
  match m.cls with
  | 0 => if m.op = 3 ∨ m.op = 5 then (1, 1) else if m.op = 4 then (1, 2) else (1, 0)
  | 1 | 2 => (1, 0)
  | _ => (1, 1)

/-- Message slots of 8 bytes a message takes: its header and its extension slots (Table 6.9). -/
def trunkSlots (m : TrunkMsg) : Nat :=
  match m.cls with
  | 0 => if m.op = 3 then 10 else if m.op = 4 then 11 else if m.op = 5 then 4 else 2
  | 1 | 2 => 2
  | 3 => 10
  | _ => 2 + (m.len + 8) / 8

/-- Width of a cumulative count: 16 bits for header credits, 20 for data credits (R292). -/
def credMod (kind : Nat) : Nat := if kind = 0 then 2 ^ 16 else 2 ^ 20

/-- Credits of a class and kind a sender has: (last_ret - used) modulo the count's width (R292). -/
def Trunk.avail (x : Trunk) (cls kind : Nat) : Nat :=
  (Tbl.get 0 x.lastRet (2 * cls + kind) + credMod kind - Tbl.get 0 x.used (2 * cls + kind)) % credMod kind

/-- A sender has every credit a message needs (R285). -/
def Trunk.creditFor (x : Trunk) (m : TrunkMsg) : Bool :=
  decide ((trunkNeed m).1 ≤ x.avail m.cls 0) && decide ((trunkNeed m).2 ≤ x.avail m.cls 1)

/-- Credits taken at first transmission (R292). -/
def Trunk.spend (x : Trunk) (m : TrunkMsg) : Trunk :=
  let add := fun (t : Tbl Nat) kind n => Tbl.set 0 t (2 * m.cls + kind) ((Tbl.get 0 t (2 * m.cls + kind) + n) % credMod kind)
  { x with used := add (add x.used 0 (trunkNeed m).1) 1 (trunkNeed m).2 }

/-- Traffic group of a class: 0 latency, 1 bulk, 2 management (R391). -/
def trunkGroup (cls : Nat) : Nat := match cls with | 4 => 1 | 5 => 2 | _ => 0

/-- A message may start: its credits are there and its group's gate admits it (R285, R286, R398). -/
def State.mayStart (s : State) (t : Nat) (m : TrunkMsg) : Bool :=
  (s.tp t).creditFor m && s.eligible (0x40 + t) (trunkGroup m.cls) (trunkGuard (trunkSlots m) 0)

/-- The oldest message of a class in a trunk port's queue, if it may start. -/
def State.firstOf (s : State) (t cls : Nat) : Option TrunkMsg :=
  ((s.tp t).queue.find? (fun m => m.cls == cls)).filter (fun m => s.mayStart t m)

/-- The message that starts next: RSP, DAT, SNP, REQ, MGT, BLK, except that a BLK message that has waited
behind BLK_MIN others goes first (R286). -/
def State.nextMsg (s : State) (t : Nat) : Option TrunkMsg :=
  let x := s.tp t
  let least := bits x.ctl.toNat 23 16
  let order := if least ≠ 0 ∧ least ≤ x.blkWait then [4, 2, 3, 1, 0, 5] else [2, 3, 1, 0, 5, 4]
  order.findSome? (fun c => s.firstOf t c)

/-- ACK of a flit sent now: the SEQ before the one expected next (Table 6.7). -/
def Trunk.ack (x : Trunk) : Nat := (x.exp + 4095) % 4096

/-- The credit counter the next flit updates, at 2 class + kind: in rotation the next that has changed since it was last
sent, and with none changed the next of all twelve (R283). -/
def Trunk.crdPick (x : Trunk) : Nat :=
  let order := (List.range 12).map (fun i => (x.crdNext + i) % 12)
  (order.find? (fun i => Tbl.get 0 x.ret i != Tbl.get 0 x.crdSent i)).getD (x.crdNext % 12)

/-- The counter has been sent. -/
def Trunk.crdDone (x : Trunk) (i : Nat) : Trunk :=
  { x with crdSent := Tbl.set 0 x.crdSent i (Tbl.get 0 x.ret i), crdNext := (i + 1) % 12 }

/-- A lane marker block goes out on the four lanes with the next MCOUNT (R278). -/
def State.sendMarker (s : State) (t : Nat) : State :=
  (s.modTp t (fun x => { x with mark := (x.mark + 1) % 65536 })).emit (.marker t (s.tp t).mark s.glob.midx)

/-- A transmitter in TL1 leaves it with a wake sequence, then one lane marker block (R274). -/
def State.wakeTx (s : State) (t : Nat) : State :=
  if (s.tp t).tx = .tl1 then ((s.modTp t (fun x => { x with tx := .tl0, cwMark := 0 })).emit (.codeword t 1)).sendMarker t else s

/-- A PAYLOAD flit goes out with its SEQ, the ACK and a credit update (Table 6.7, R283). -/
def State.sendFlit (s : State) (t seq : Nat) (m : TrunkMsg) : State :=
  let x := s.tp t
  let i := x.crdPick
  (s.modTp t (fun x => x.crdDone i)).emit (.flit t seq x.ack i (Tbl.get 0 x.ret i) m)

/-- The BLK cell of a line leaves the egress slots of a point (R138). -/
def State.blkLeaves (s : State) (point line : Nat) : State :=
  match s.xbar.bulk.find? (fun c => c.dst == point && (match c.load with | .blk b => b.line == line | _ => false)) with
  | some c => { s with xbar := { s.xbar with bulk := s.xbar.bulk.erase c } }
  | none => s

/-- A message started as the next PAYLOAD flit: SEQ given, kept for replay (R295). A transmitter in TL1 wakes (R274). -/
def State.startMsg (s : State) (t : Nat) (m : TrunkMsg) : State :=
  let x := s.tp t
  let rest := x.queue.erase m
  let bulk := rest.any (fun y => y.cls == 4)
  let s1 := (s.wakeTx t).modTp t (fun x => { x.spend m with
    queue := rest, seq := (x.seq + 1) % 4096, replay := x.replay ++ [(x.seq, m, s.now)], lastPay := s.now
    blkWait := if m.cls ≠ 4 ∧ bulk then min 255 (x.blkWait + 1) else 0 })
  ((if m.cls = 4 then s1.blkLeaves (0x68 + t) (lineOf m.addr) else s1).sendFlit t x.seq m).count 0x60 t 0 1

/-- A trunk port sends what it may, at most `fuel` messages; at most 4,095 flits are unacknowledged (R295). -/
def State.pumpPort (s : State) (t fuel : Nat) : State :=
  match fuel with
  | 0 => s
  | n + 1 =>
    if (s.tp t).state = .active ∧ (s.tp t).replay.length < 4095 then
      match s.nextMsg t with
      | some m => (s.startMsg t m).pumpPort t n
      | none => s
    else s

/-- The oldest of the accepted messages of a class leave the list, but for the last `keep`; what they held is returned (R293). -/
def Trunk.returned (x : Trunk) (cls keep : Nat) : Trunk :=
  let mine := x.buffered.filter (fun b => b.1 == cls)
  let gone := mine.take (mine.length - keep)
  let h := (gone.map (fun b => b.2.1)).foldl (· + ·) 0
  let d := (gone.map (fun b => b.2.2)).foldl (· + ·) 0
  let add := fun (t : Tbl Nat) kind n => Tbl.set 0 t (2 * cls + kind) ((Tbl.get 0 t (2 * cls + kind) + n) % credMod kind)
  { x with
    buffered := x.buffered.filter (fun b => b.1 != cls) ++ mine.drop (mine.length - keep)
    ret := add (add x.ret 0 h) 1 d }

/-- Credits of messages whose cells have left the ingress queue of their trunk point are returned (R293). -/
def State.creditsBack (s : State) : State :=
  s.trunk.foldl (fun s e =>
    if e.2.buffered.isEmpty then s
    else [0, 1, 2, 3, 4, 5].foldl (fun s c => s.modTp e.1 (fun x => x.returned c (s.xbar.voq.filter (fun v => v.src == 0x68 + e.1 && v.cls == c)).length)) s) s

/-- Every trunk port sends what it may. -/
def State.pump (s : State) : State :=
  s.trunk.foldl (fun s e => s.pumpPort e.1 e.2.queue.length) s

/-- Flits acknowledged by an ACK: the one it names and every earlier one (R295). -/
def Trunk.acked (x : Trunk) (ack : Nat) : Trunk :=
  if x.replay.any (fun e => e.1 == ack) then { x with replay := (x.replay.dropWhile (fun e => e.1 != ack)).drop 1 } else x

/-- A credit update: the whole cumulative count (R292). -/
def Trunk.credited (x : Trunk) (cls kind count : Nat) : Trunk :=
  if cls < 6 then { x with lastRet := Tbl.set 0 x.lastRet (2 * cls + kind) (count % credMod kind) } else x

/-- A rewind to a SEQ: the buffered flits from it on are sent again, and one replay is counted (R297). -/
def State.rewind (s : State) (t seq : Nat) : State :=
  let x := s.tp t
  let again := x.replay.dropWhile (fun e => e.1 != seq)
  let kept := x.replay.takeWhile (fun e => e.1 != seq)
  let s1 := (s.wakeTx t).modTp t (fun x => { x with replay := kept ++ again.map (fun e => (e.1, e.2.1, s.now)), replays := x.replays ++ [s.now], lastPay := s.now })
  (again.foldl (fun s e => s.sendFlit t e.1 e.2.1) s1).count 0x62 t 0 1

end Sys2Proof.Machine
end

