-- ==== Sys2Proof/Machine/Arrive.lean ====
section
/-! DEFINITION. Where cells leave the crossbar: the messages they carry taking effect, bulk data and its spill, the port arbiters, and the cell slots of the planes (R47 to R50, R77 to R109, R132 to R177). -/
namespace Sys2Proof.Machine

/-! ### Port arbiters (R162 to R173) -/

/-- Requester index of an ingress point (Table 3.8). -/
def reqIndex (src : Nat) : Nat :=
  if src < 0x60 then src - 0x40 else if src < 0x68 then src - 0x60 + 32 else if src < 0x70 then src - 0x68 + 40 else src - 0x70 + 48

/-- Tier of a requester: 0 A, 1 B, 2 C (Table 3.8). -/
def tierOf (req : Nat) : Nat := if req < 32 then 0 else if req < 50 then 1 else 2

/-- First and last requester of a tier. -/
def tierBounds (t : Nat) : Nat × Nat := match t with | 0 => (0, 31) | 1 => (32, 49) | _ => (50, 51)

/-- A parked request may be granted: it is the oldest of its requester, which is not masked, and its gate
and guard band allow it (R165, R166). -/
def State.arbCan (s : State) (p : Nat) (x : Pend) : Bool :=
  let a := s.arbOf p
  ! a.masked.getLsbD x.req
  && (a.pend.find? (fun y => y.req == x.req) == some x)
  && s.eligible p (if tierOf x.req = 0 then 0 else 1) (s.portGuard p x.units 0)

/-- The requests that may be granted. -/
def State.arbReady (s : State) (p : Nat) : List Pend := (s.arbOf p).pend.filter (fun x => s.arbCan p x)

/-- How far a requester is past its tier's rotating pointer. -/
def Arb.turnOf (a : Arb) (req : Nat) : Nat :=
  let t := tierOf req
  let b := tierBounds t
  let n := b.2 - b.1 + 1
  let ptr := match t with | 0 => a.ptrA | 1 => a.ptrB | _ => a.ptrC
  (req + n - ptr) % n

/-- The request that the rotating pointer of its tier reaches first (R164). -/
def Arb.first (a : Arb) (l : List Pend) : Option Pend :=
  l.foldl (fun b x => match b with
    | none => some x
    | some y => if a.turnOf x.req < a.turnOf y.req then some x else some y) none

/-- The request granted next: tier A before B, except a tier B request that has waited through BLK_MIN tier A grants; tier C when neither
has one. A tier C request that has waited 4,096 clocks, 64 ticks, goes first of all (R164; log 95). -/
def State.arbNext (s : State) (p : Nat) : Option Pend :=
  let a := s.arbOf p
  let blk := bits a.ctl.toNat 15 12
  let l := s.arbReady p
  let tier := fun (t : Nat) => l.filter (fun x => tierOf x.req == t)
  (a.first ((tier 2).filter (fun x => decide (64 ≤ s.now - x.since)))).orElse (fun _ =>
    (a.first ((tier 1).filter (fun x => blk != 0 && decide (blk ≤ x.passed)))).orElse (fun _ =>
      (a.first (tier 0)).orElse (fun _ => (a.first (tier 1)).orElse (fun _ => a.first (tier 2)))))

/-- A request granted: it leaves its queue, its credit returns, and its tier's pointer moves past it (R164, R166, Table 3.10). -/
def State.arbGive (s : State) (p : Nat) (x : Pend) : State :=
  (s.count 0x10 p (2 ^ tierOf x.req) 1).modArb p (fun a =>
    let b := tierBounds (tierOf x.req)
    let nxt := if x.req = b.2 then b.1 else x.req + 1
    ({ a with
      pend := (a.pend.erase x).map (fun y => if tierOf y.req = 1 then { y with passed := if tierOf x.req = 0 then min 15 (y.passed + 1) else 0 } else y)
      grant := some { x with since := s.now }, state := 1
      ptrA := if tierOf x.req = 0 then nxt else a.ptrA
      ptrB := if tierOf x.req = 1 then nxt else a.ptrB
      ptrC := if tierOf x.req = 2 then nxt else a.ptrC } : Arb).refill)

/-- The arbiter can make a grant: none held, not frozen, link not held in L1 (R170, R173). -/
def State.arbIdle (s : State) (p : Nat) : Bool := (s.arbOf p).grant.isNone && (s.arbOf p).state == 0

/-- Where the arbiter stands once it holds no grant (Table 3.10). -/
def Arb.rest (a : Arb) : Arb :=
  { a with grant := none, state := if bit a.ctl.toNat 31 ∨ a.fenced ∨ a.isolated then 3 else 0 }

/-- The BLK cell of a DMA write leaves the egress slots of its port (R138); it is none where the write's burst has been dropped. -/
def State.blkTaken (s : State) (p line : Nat) : State :=
  match s.xbar.bulk.find? (fun c => c.dst == p && (match c.load with | .blk b => b.line == line && b.asked | _ => false)) with
  | some c => { s with xbar := { s.xbar with bulk := s.xbar.bulk.erase c } }
  | none => s

/-- An access has entered the port's transmit queue whole: it goes out to the expander (R163, R167). -/
def State.accSent (s : State) (req : Nat) (x : Access) : State :=
  let s1 := if 32 ≤ req ∧ req < 48 then s.blkTaken x.port (lineOf x.fpa) else s
  ((s1.cellsOut x.port (if 32 ≤ req ∧ req < 50 then 4 else 0) 1 (if x.write then 64 else 1)).latOpen x.port x.fpa).emit
    (.mem x.port x.dpa x.off x.write x.en x.data x.psn)

/-- The hand-off of the access granted is complete (R167). -/
def State.handOff (s : State) (p : Nat) : State :=
  match (s.arbOf p).grant with
  | none => s
  | some g =>
    let s1 := s.modArb p (fun a => ({ a with handed := a.handed ++ g.acc.toList } : Arb).rest)
    match g.acc with
    | some x => s1.accSent g.req x
    | none => s1

/-- A grant to a port in L1 waits for its link (R209). -/
def State.l1Hold (s : State) (p : Nat) : State := if (s.port p).lanes = .l1 then s.modPort p (fun x => { x with l1Wait := true }) else s

/-- A request at an arbiter (R166): parked, or granted at once where nothing stands before it; an access of the module's own is then
handed off. A requester without a credit keeps it; at a fenced port it fails (R172). -/
def State.arbAsk (s : State) (p : Nat) (x : Pend) : State :=
  let a := s.arbOf p
  if a.fenced ∨ ¬ s.isDown p then s.pendFails x false 8
  else if 64 ≤ (a.pend.filter (fun y => y.req == x.req)).length ∨ a.unsent.any (fun y => y.req == x.req) then
    s.modArb p (fun a => { a with unsent := a.unsent ++ [x] })
  else
    let s1 := s.modArb p (fun a => { a with pend := a.pend ++ [x] })
    if s1.arbIdle p ∧ s1.arbNext p = some x then
      let s2 := s1.arbGive p x
      if x.acc.isNone ∨ (s.port p).lanes = .l1 then s2.l1Hold p else s2.handOff p
    else s1

/-- What becomes of a masked requester's entries that are discarded (R168): its own reset rules decide. A keeper slice issues again what it
still owes (R56), the burst of a DMA cluster or trunk port is incomplete. -/
def State.pendGone (s : State) (p : Nat) (x : Pend) : State :=
  match x.acc with
  | none => s
  | some y =>
    if x.req < 32 then
      (if y.kind ≠ .txn ∨ (s.txn (lineOf y.fpa)).isSome then s.modArb p (fun a => { a with unsent := a.unsent ++ [x] }) else s)
    else if x.req < 48 then s.accFails y false 9
    else s

/-- Requesters that become masked when the mode permits it: their sideband is up (R168, R177). -/
def Arb.remask (a : Arb) : Arb :=
  if bit a.ctl.toNat 29 then
    let new := a.side &&& ~~~a.masked
    let gone := fun (r : Nat) => new.getLsbD r
    let a1 := { a with masked := a.masked ||| a.side, pend := a.pend.filter (fun p => ! gone p.req), grant := match a.grant with
        | some g => if gone g.req then none else some g
        | none => none }
    ((List.range 52).filter gone).foldl (fun (a : Arb) r => { a with event := a.event.raise 16 (BitVec.ofNat 32 (r * 2 ^ 18)) 0x00FC0000 }) a1
  else a

/-- Where the mode permits, requesters whose sideband is up are masked, with their parked requests gone, and but for `keep` a grant
(R168, R169, R177). -/
def State.maskNow (s : State) (p : Nat) (keep : Bool) : State :=
  let a := s.arbOf p
  let a1 := a.remask
  let a2 := if keep then { a1 with grant := a.grant } else if a.grant.isSome ∧ a1.grant.isNone then a1.rest else a1
  (((if keep then [] else a.grant.toList) ++ a.pend).filter (fun x => a2.masked.getLsbD x.req && ! a.masked.getLsbD x.req)).foldl
    (fun s x => s.pendGone p x) (s.modArb p (fun _ => a2))

/-- A requester's sideband goes up (R168, R169). -/
def State.sideUp (s : State) (p req : Nat) : State :=
  (s.modArb p (fun a => { a with side := a.side ||| ((1 : BitVec 52) <<< req) })).maskNow p false

/-- A requester's sideband clears, and its mask lifts (R168, R177). -/
def State.sideDown (s : State) (p req : Nat) : State :=
  s.modArb p (fun a =>
    let m := ~~~((1 : BitVec 52) <<< req)
    ({ a with side := a.side &&& m, masked := a.masked &&& m } : Arb).refill)

/-- A requester is in reset or without power (R168): a keeper slice once it has drained, a DMA cluster or a trunk port with its cluster or
quadrant, the engines of a switch die with its die-level points. -/
def State.reqOut (s : State) (req : Nat) : Bool :=
  let off := fun (k : Nat) => s.svc.gatedQuads.contains k || s.svc.stoppedDies.any (fun d => (dieQuads d).contains k)
  let cluster := fun (k c : Nat) => ! s.quadServes k || s.svc.resets.any (fun r => r.loc.level == 4 && r.loc.clu == c && r.loc.k == k)
  if req < 32 then
    off (req / 4) || s.svc.stoppedSlices.contains req || s.svc.resets.any (fun r => (locSlices r.loc).contains req && ! r.draining.contains req)
  else if req < 40 then cluster (req - 32) 5
  else if req < 48 then cluster (req - 40) 6
  else ! s.diePoints (req % 2)

/-- The requesters that are in reset or without power. -/
def State.reqsOut (s : State) : BitVec 52 :=
  if s.svc.resets.isEmpty ∧ s.svc.stoppedSlices.isEmpty ∧ s.svc.gatedQuads.isEmpty ∧ s.svc.stoppedDies.isEmpty then 0
  else (List.range 52).foldl (fun m r => if s.reqOut r then m ||| ((1 : BitVec 52) <<< r) else m) 0

/-- Requesters whose sideband changes tell every arbiter (R168). -/
def State.sidebands (s : State) : State :=
  let new := s.reqsOut
  let old := s.xbar.down
  if new = old then s
  else
    let s1 : State := { s with xbar := { s.xbar with down := new } }
    ((List.range 64).filter s.isDown).foldl (fun s p => (List.range 52).foldl (fun s r =>
      if new.getLsbD r ∧ ¬ old.getLsbD r then s.sideUp p r else if old.getLsbD r ∧ ¬ new.getLsbD r then s.sideDown p r else s) s) s1

/-! ### Coherence messages that arrive at a keeper slice (chapter 2) -/

/-- A request of a sender is one for this slice: of a module of the hierarchy at the home, or of an agent of this module's own. -/
def State.reqTakes (s : State) (q : QReq) : Bool :=
  match q.r.src with
  | .mod m => s.homed q.r.fpa && m != s.glob.midx && s.present q.r.src
  | _ => true

/-- A request arrives. -/
def State.reqTaken (s : State) (q : QReq) : State := if s.reqTakes q then s.admitReq q else s

/-- A write-back is of an agent this slice knows. -/
def State.wbTakes (s : State) (a : Agent) (fpa : Nat) : Bool := s.present a && (s.homed fpa || ! a.isMod)

/-- A snoop of a line's home module reaches this module's proxy. -/
def State.fromHome (s : State) (m : MsgOp) : Bool :=
  s.running && ! s.homed m.fpa && decide (m.src = .mod (homeOf m.fpa)) && s.present m.src

/-- A home's snoop taken by the proxy; a BIRecall is one for each masked line of its sector (R82, R109). -/
def State.snpTaken (s : State) (k : SnpKind) (m : MsgOp) : State :=
  match k with
  | .recall => [0, 1, 2, 3].foldl (fun s j => if bit m.lmask j then s.proxySnoop .recall false (m.fpa / 256 * 4 + j) else s) s
  | .inv => s.proxySnoop .inv m.nd (lineOf m.fpa)
  | k => s.proxySnoop k false (lineOf m.fpa)

/-- A response is one that Table 2.8 allows for the snoop that is open. -/
def rspFits (w : Wait) (r : RspKind) : Bool :=
  match r with
  | .rspI | .wbPend => true
  | .rspS => w.kind == .shr || w.kind == .data
  | .rspO => w.kind == .data && w.agent.isMod

/-- A response answers a snoop that is open. -/
def State.rspTakes (s : State) (r : RspKind) (m : MsgOp) : Bool :=
  s.running && (match s.waitOf m.src (lineOf m.fpa) with | some w => rspFits w r | none => false)

/-- The request this module sent to a line's home and whose answer is due. -/
def State.fwdTxn (s : State) (line : Nat) : Option Txn := (s.txn line).filter (fun t => t.stage == .fwd && ! t.psn)

/-- A Cmp is due: a requester's acknowledgement at the home, or a home's completion at the proxy. -/
def State.cmpTakes (s : State) (m : MsgOp) : Bool :=
  let line := lineOf m.fpa
  s.running && (if s.homed m.fpa then (s.txn line).any (fun t => t.stage == .ack && t.q.r.src == m.src)
    else s.fromHome m && (s.keeper.wbs.contains (.mod s.glob.midx, line) || (s.fwdTxn line).isSome))

/-- A Cmp arrives: it closes the transaction at the home; at the proxy a home's completion ends a write-back of the line first,
otherwise the request forwarded (R93, R99, R108). -/
def State.cmpTaken (s : State) (m : MsgOp) : State :=
  let line := lineOf m.fpa
  if s.homed m.fpa then s.closeTxn line
  else if s.keeper.wbs.contains (.mod s.glob.midx, line) then { s with keeper := { s.keeper with wbs := s.keeper.wbs.erase (.mod s.glob.midx, line) } }
  else match s.fwdTxn line with
    | some t => s.proxyGrant t .cmp 0
    | none => s

/-- A CmpPoison is due. -/
def State.cmpPoisonTakes (s : State) (m : MsgOp) : Bool := s.fromHome m && (s.fwdTxn (lineOf m.fpa)).isSome

/-- The completion of a forwarded request is poisoned (R81, R123). -/
def State.cmpPoisonTaken (s : State) (m : MsgOp) : State :=
  match s.fwdTxn (lineOf m.fpa) with
  | some t => s.proxyGrant t .poison 0
  | none => s

/-- A data message answers the snoop that is open toward its sender (Table 2.8). -/
def datFits (w : Wait) (opc : Nat) : Bool :=
  match opc with
  | 0x18 => w.kind == .shr || (w.kind == .data && ! w.agent.isMod)
  | 0x1A => w.kind == .inv || w.kind == .recall
  | 0x1B => w.kind == .data && w.agent.isMod
  | _ => false

/-- A data message of a holder: the data of its answer (R82). -/
def State.holderData (s : State) (opc : Nat) (m : MsgOp) : Option Wait :=
  (s.waitOf m.src (lineOf m.fpa)).filter (fun w => datFits w opc && w.dat.isNone)

/-- A data message is due. -/
def State.datTakes (s : State) (opc : Nat) (g : Grant) (m : MsgOp) : Bool :=
  s.running && ((s.holderData opc m).isSome || (s.fromHome m && (s.fwdTxn (lineOf m.fpa)).isSome && g != .none))

/-- A data message arrives: a holder's answer, or the home's grant of a forwarded request. -/
def State.datTaken (s : State) (opc : Nat) (g : Grant) (m : MsgOp) : State :=
  match s.holderData opc m with
  | some w => s.datArrives w m.data m.poison false
  | none => match s.fwdTxn (lineOf m.fpa) with
    | some t => s.proxyGrant t (if m.poison then .poison else g) m.data
    | none => s

/-- A message out of a trunk point's ingress queue, as the coherence message it is (Table 6.8, R431); a WrInv with LEN 0 is header-only and
its data travels as BLK (R130). Frames and hierarchy control reach the firmware as commands of their own. -/
def State.rxTaken (s : State) (m : TrunkMsg) : State :=
  let req := fun (k : ReqKind) (rec nxt : BitVec 128) =>
    s.reqTaken { kind := k, r := { src := .mod m.srcm, fpa := m.addr, nt := m.nt, mask := m.mask, data := m.data }, record := rec, nextRec := nxt, bulk := (k == .wrInvFull || k == .wrInvPart) && m.len == 0, psn := m.poison }
  let g : MsgOp := { src := .mod m.srcm, fpa := m.addr, dp := m.dp, k := m.k, nd := m.nd, poison := m.poison, lmask := m.lmask, data := m.data }
  let snp := fun (k : SnpKind) => if s.fromHome g then s.snpTaken k g else s
  let rsp := fun (r : RspKind) => if s.rspTakes r g then s.rspArrives g r else s
  let dat := fun (o : Nat) (x : Grant) => if s.datTakes o x g then s.datTaken o x g else s
  match m.cls, m.op with
  | 0, 0 => req .rds 0 0
  | 0, 1 => req .rdx 0 0
  | 0, 2 => req .upg 0 0
  | 0, 3 => req .wrInvFull 0 0
  | 0, 4 => req .wrInvPart 0 0
  | 0, 5 => req .atomOp (m.data.extractLsb' 0 128) (m.data.extractLsb' 128 128)
  | 0, 6 => req .evict 0 0
  | 1, 8 => snp .inv
  | 1, 9 => snp .shr
  | 1, 0xA => snp .data
  | 1, 0xB => snp .recall
  | 2, 0x10 => rsp .rspI
  | 2, 0x11 => rsp .rspS
  | 2, 0x12 => rsp .rspO
  | 2, 0x13 => rsp .wbPend
  | 2, 0x14 => if s.cmpTakes g then s.cmpTaken g else s
  | 2, 0x15 => if s.cmpPoisonTakes g then s.cmpPoisonTaken g else s
  | 3, 0x18 => dat 0x18 .dataS
  | 3, 0x19 => dat 0x19 .dataE
  | 3, 0x1A => dat 0x1A .dataM
  | 3, 0x1B => dat 0x1B .none
  | 3, 0x1C => if s.running && s.wbTakes g.src g.fpa then s.wbArrives g.src g.fpa g.k g.data g.poison else s
  | _, _ => s

/-! ### Bulk data at its egress point (R49, R50, R131, R152 to R158) -/

/-- A bulk cell whose burst is complete. -/
def Cell.readied (c : Cell) : Cell := match c.load with | .blk b => { c with load := .blk { b with ready := true } } | _ => c

/-- A bulk cell whose write is at the arbiter. -/
def Cell.claimed (c : Cell) : Cell := match c.load with | .blk b => { c with load := .blk { b with asked := true } } | _ => c

/-- The last cell of a burst has arrived: every cell of it at its egress point or spilled is of a complete burst. -/
def State.burstWhole (s : State) (b : Blk) : State :=
  let f := fun (c : Cell) => if b.mate c then c.readied else c
  { s with xbar := { s.xbar with bulk := s.xbar.bulk.map f, spillQ := s.xbar.spillQ.map (fun e => (e.1, e.2.1, f e.2.2)) } }

/-- A bulk cell enters the egress slots of its point; at a trunk point its message joins the port's queue. -/
def State.bulkIn (s : State) (c : Cell) : State :=
  let s1 : State := { s with xbar := { s.xbar with bulk := s.xbar.bulk ++ [c] } }
  match c.load with
  | .blk b => if 0x68 ≤ c.dst ∧ c.dst < 0x70 then s1.modTp (c.dst - 0x68) (fun p => { p with queue := p.queue ++ [s.blkMsg c b] }) else s1
  | _ => s

/-- An access of a spill engine to a slot of its half of the carve-out: the payload of a cell in its first line (R156, log 87). -/
def State.spillAcc (s : State) (d slot : Nat) (write : Bool) (data : Line) (psn : Bool) : Access :=
  let off := (d * s.spillCap + slot) * 128
  let x := s.ext (s.carveExt + off / 2 ^ 28)
  { fpa := s.glob.midx * 2 ^ 48 + (s.carveExt + off / 2 ^ 28) * 2 ^ 28 + off % 2 ^ 28, port := x.port, dpa := x.dpa, off := off % 2 ^ 28
    write := write, en := if write then allBytes else 0, data := data, psn := psn, kind := if write then .spill else .unspill }

/-- An access of a spill engine crosses to the carve-out port's arbiter as a BLK cell (R157). -/
def State.spillCell (s : State) (d : Nat) (x : Access) : State :=
  s.putCell { cls := 4, opc := 0, src := 0x70 + d, dst := x.port, tag := (62 + d) * 1024, addr := x.fpa, len := if x.write then 63 else 0, poison := x.psn, load := .acc x }

/-- The next free slot of a spill engine's half. -/
def State.spillFree (s : State) (d : Nat) : Nat :=
  let from_ := Tbl.get 0 s.xbar.spillAt d
  ((List.range (s.xbar.spillQ.length + 1)).map (fun i => (from_ + i) % max 1 s.spillCap)).find? (fun n => (s.spillEnt d n).isNone) |>.getD from_

/-- A bulk cell goes to the spill engine of its point's die, which appends it to the point's spill queue (R152). -/
def State.spillIn (s : State) (c : Cell) (b : Blk) : State :=
  let d := pointDie c.dst
  let slot := s.spillFree d
  let s1 : State := { s with xbar := { s.xbar with spillQ := s.xbar.spillQ ++ [(slot, 0, c)], spillAt := Tbl.set 0 s.xbar.spillAt d (slot + 1) } }
  ((s1.count 0x16 c.dst 0 (b2n (decide (c.dst < 64)))).count 0x70 d 0 1).spillCell d (s.spillAcc d slot true b.data b.psn)

/-- Bulk data of a module arrives poisoned and without any byte: it tells that its burst is incomplete (log 109). -/
def Blk.tellsLoss (b : Blk) : Bool := b.psn && b.src.isMod && b.mask == 0

/-- A bulk cell is released to its egress point (R152, R153). One whose write has ended already is discarded, as is one for a home
that is lost. -/
def State.blkArrives (s : State) (c0 : Cell) (b0 : Blk) : State :=
  let known := s.xbar.cut.contains (b0.src, b0.tag)
  let b : Blk := { b0 with void := b0.void || known || b0.tellsLoss }
  let c : Cell := { c0 with load := .blk b }
  let s1 : State := if known ∧ c.last then { s with xbar := { s.xbar with cut := dropOf (b.src, b.tag) s.xbar.cut } } else s
  let s2 : State := if ¬ b0.tellsLoss ∨ known then s1
    else
      let v := s1.burstVoid b
      if c.last ∨ v.burstEnds b then v else { v with xbar := { v.xbar with cut := addOnce (b.src, b.tag) v.xbar.cut } }
  let s3 : State :=
    if s2.xbar.spare.contains (b.src, b.line) then { s2 with xbar := { s2.xbar with spare := s2.xbar.spare.erase (b.src, b.line) } }
    else if 0x68 ≤ c.dst ∧ c.dst < 0x70 ∧ s2.hier.lost.contains (homeOf (b.line * 64)) then s2
    else if s2.spilled c.dst || (s2.spills c.dst && s2.overHigh c.dst) then s2.spillIn c b
    else s2.bulkIn c
  if c.last then s3.burstWhole b else s3

/-- The cells at the head of a point's spill queue that have been read back return to its egress slots in order (R153). -/
def State.spillDrain (s : State) (point fuel : Nat) : State :=
  match fuel with
  | 0 => s
  | n + 1 => match s.xbar.spillQ.find? (fun e => e.2.2.dst == point) with
    | some e =>
      if e.2.1 = 2 then
        let s1 := ({ s with xbar := { s.xbar with spillQ := s.xbar.spillQ.erase e } } : State).count 0x17 point 0 (b2n (decide (point < 64)))
        ((s1.count 0x71 (pointDie point) 0 1).bulkIn e.2.2).spillDrain point n
      else s
    | none => s

/-- A spilled cell has been read from the carve-out, as its completion brings it (R153, R157). -/
def State.spillRead (s : State) (d slot : Nat) (psn : Bool) : State :=
  match s.spillEnt d slot with
  | none => s
  | some e =>
    let c := if psn then e.2.2.spoilt else e.2.2
    ({ s with xbar := { s.xbar with spillQ := s.xbar.spillQ.map (fun y => if y = e then (e.1, 2, c) else y) } } : State).spillDrain c.dst s.xbar.spillQ.length

/-- A released write whose burst is incomplete ends without being written; dirty data that its snoops brought is (Table 3.5). -/
def State.relLost (s : State) (r : Rel) : State :=
  let line := lineOf r.acc.fpa
  let s1 := match r.old with | some d => s.sideWr (line * 64) d false | none => s
  match s1.txn line with
  | some t => if t.stage = .memWr ∧ t.q.bulk ∧ t.q.r.src = r.src then s1.bulkFails t 9 else s1
  | none => s1

/-- A released write goes to its port's arbiter once its data lies complete in the egress buffer (R50, R154, R163). -/
def State.relOne (s : State) (r : Rel) : State :=
  let line := lineOf r.acc.fpa
  let done : State := { s with xbar := { s.xbar with rel := s.xbar.rel.erase r } }
  match s.xbar.bulk.find? (fun c => c.bulkOf r.src line && c.dst == r.acc.port) with
  | some c => (match c.load with
    | .blk b =>
      if b.void then ({ done with xbar := { done.xbar with bulk := done.xbar.bulk.erase c } } : State).relLost r
      else if b.ready then ({ done with xbar := { done.xbar with bulk := modFirst (fun y => y == c) Cell.claimed done.xbar.bulk } } : State).arbAsk r.acc.port { req := r.req, write := true, units := 1, since := s.now, acc := some { r.acc with psn := r.acc.psn || b.psn } }
      else s
    | _ => s)
  | none =>
    if s.xbar.gone.contains (r.src, line) then ({ done with xbar := { done.xbar with gone := done.xbar.gone.erase (r.src, line) } } : State).relLost r
    else s

/-- Every released write goes as far as it can. -/
def State.relGo (s : State) : State := s.xbar.rel.foldl (fun s r => s.relOne r) s

/-! ### Release in order (R146 to R150) -/

/-- The message a cell carries takes effect at its egress point. -/
def State.deliver (s : State) (c : Cell) : State :=
  match c.load with
  | .head => s
  | .req q => s.reqTaken q
  | .ans a g fpa d => s.answer a g fpa d
  | .snp a opc fpa nd mask => s.toAgent a opc fpa nd false mask false 0
  | .out o bulk => if bulk then (match s.trunkMsg o with
      | some x => ({ s with out := s.out ++ [o] } : State).modTp x.1 (fun p => { p with queue := p.queue ++ [{ x.2 with len := 0 }] })
      | none => { s with out := s.out ++ [o] }) else s.emit o
  | .tx t m => s.modTp t (fun p => { p with queue := p.queue ++ [m] })
  | .acc x => s.arbAsk x.port { req := reqIndex c.src, write := x.write, units := 1, since := s.now, acc := some x }
  | .drs fpa psn d => s.drsArrives fpa psn d
  | .ndr fpa => s.ndrArrives fpa
  | .wb a fpa k d psn => if s.wbTakes a fpa then s.wbArrives a fpa k d psn else s
  | .rsp m r => if s.rspTakes r m then s.rspArrives m r else s
  | .blk b => s.blkArrives c b
  | .back d n => s.spillRead d n c.poison
  | .rx m => s.rxTaken m

/-- A cell whose message takes effect with it alone: bulk data. -/
def Cell.alone (c : Cell) : Bool := match c.load with | .blk _ => true | _ => false

/-- A cell released in order: its flow goes on to the next number, and with the last cell of a message that has lost none the message
takes effect (R129, R147). -/
def State.releaseCell (s : State) (c : Cell) : State :=
  let f := c.flow
  let x := s.xbar
  let whole := c.alone || (c.last && (c.first || x.part.contains f))
  let part := if c.alone then x.part else if c.last then dropOf f x.part else if c.first then addOnce f x.part else x.part
  let s1 : State := { s with xbar := { x with expSeq := Tbl.set 0 x.expSeq f ((c.seq + 1) % 4096), part := part } }
  let s2 := match c.load with
    | .acc _ | .blk _ => s1
    | _ => s1.cellsOut c.dst c.cls 1 (c.len + 1)
  if whole then s2.deliver c else s2

/-- Held cells of a flow whose turn has come are released in order (R147). -/
def State.release (s : State) (f fuel : Nat) : State :=
  match fuel with
  | 0 => s
  | n + 1 => match s.xbar.held.find? (fun c => c.flow == f && c.seq == Tbl.get 0 s.xbar.expSeq f) with
    | none => s
    | some c => (({ s with xbar := { s.xbar with held := s.xbar.held.erase c } } : State).releaseCell c).release f n

/-- A cell arrives at its egress point: discarded where its HCRC check fails there, released in its turn with those that waited for it, held
ahead of it, or too late (R132, R147, R149). -/
def State.cellArrives (s : State) (c : Cell) : State :=
  let e := Tbl.get 0 s.xbar.expSeq c.flow
  match c.bad with
  | some p => (s.fault 0x0108 (s.pointLoc p) 0xFF).cellLost c
  | none =>
    if c.seq = e then (s.releaseCell c).release c.flow s.xbar.held.length
    else if seqAhead c.seq e < 2048 then { s with xbar := { s.xbar with held := s.xbar.held ++ [c] } }
    else
      let s1 := s.count 0x15 c.dst 0 (b2n (decide (c.dst < 64)))
      { s1 with xbar := { s1.xbar with late := Tbl.set 0 s1.xbar.late c.dst ((Tbl.get 0 s1.xbar.late c.dst + 1) % 2 ^ 32) } }

/-! ### Cell slots (R140 to R145) -/

/-- Cells whose time on their plane is over arrive. -/
def State.flyDue (s : State) : State :=
  let due := s.xbar.flying.filter (fun x => decide (x.2.1 ≤ s.now))
  if due.isEmpty then s
  else due.foldl (fun s x => s.cellArrives x.2.2) ({ s with xbar := { s.xbar with flying := s.xbar.flying.filter (fun x => ! decide (x.2.1 ≤ s.now)) } } : State)

/-- A cell crosses on a plane: at once, or as many ticks late as it carries (log 81). -/
def State.cellCrosses (s : State) (plane : Nat) (c : Cell) : State :=
  let s1 : State := { s with xbar := { s.xbar with voq := s.xbar.voq.erase c } }
  if c.slow = 0 then s1.cellArrives c
  else { s1 with xbar := { s1.xbar with flying := s1.xbar.flying ++ [(plane, s.now + c.slow, { c with slow := 0 })] } }

/-- One plane in one slot: its matches, the pointers they move, and the cells they transmit. -/
def State.planeSlot (s : State) (plane : Nat) : State :=
  let cells := s.asking
  let vs := cells.map (fun c => ({ src := c.src, dst := c.dst, cls := c.cls } : VCell))
  let m := s.xbar.matches plane vs
  let all := m.1 ++ m.2
  let s1 : State := { s with xbar := (m.1.foldl (fun x c => x.turn plane c) s.xbar).note plane vs all }
  let s2 := (s1.count 0x50 plane 0 all.length).count 0x51 plane 0 m.1.length
  (cells.filter (fun c => all.contains { src := c.src, dst := c.dst, cls := c.cls })).foldl (fun s c => s.cellCrosses plane c) s2

/-- One cell slot of every plane in service. -/
def State.cellSlot (s : State) : State :=
  let s1 := s.xbar.planes.foldl (fun s p => s.planeSlot p) s
  { s1 with xbar := { s1.xbar with slot := s1.xbar.slot + 1, spray := (s1.xbar.spray + 1) % 4 } }

/-- Cell slots until no cell can be scheduled. -/
def State.slots (s : State) (fuel : Nat) : State :=
  match fuel with
  | 0 => s
  | n + 1 =>
    let s1 := s.relGo
    if s1.xbar.voq.isEmpty ∨ s1.xbar.planes = [] ∨ s1.asking.isEmpty then s1
    else s1.cellSlot.slots n

/-- Die-level points whose queues are empty move back to Q0 once it serves (R136). -/
def State.backToQ0 (s : State) : State :=
  let used := fun (d : Nat) =>
    let at_ := fun (p : Nat) => decide (0x70 ≤ p) && p % 2 == d
    s.xbar.voq.any (fun c => at_ c.src) || s.xbar.flying.any (fun x => at_ x.2.2.src || at_ x.2.2.dst) || s.xbar.held.any (fun c => at_ c.dst)
  if s.xbar.inQ1 = [] then s
  else { s with xbar := { s.xbar with inQ1 := s.xbar.inQ1.filter (fun d => ! s.quadServes (4 * d) || used d) } }

/-- A carve-out that has been given up goes through SCRUB once every spill queue is empty, and SPILL_CTL names none (R160, Table 5.6). -/
def State.carveFree (s : State) : State :=
  if s.xbar.giveUp ∧ s.xbar.spillQ = [] then
    let s1 := (s.pool.ext.filter (fun e => e.2.state == .carve)).foldl (fun s e => s.modExt e.1 (fun x => { x with state := .scrub })) s
    ({ s1 with xbar := { s1.xbar with giveUp := false, spillCtl := s1.xbar.spillCtl &&& 0x00000000FFFFFFFF } } : State).bindGen
  else s

/-- The cells that wait cross: the planes in service are ungated (R41) and run until no cell can be scheduled. A command
takes effect at once, so its cells have crossed when it ends (log 81). -/
def State.tumble (s : State) : State :=
  let s1 := s.flyDue
  let x := s1.xbar
  let s2 : State := if x.voq = [] then s1 else { s1 with xbar := { x with gated := x.gated &&& ~~~x.up, slot := max x.slot (32 * s.now) } }
  ((if s2.xbar.voq = [] ∧ s2.xbar.rel = [] then s2 else s2.slots 4096).backToQ0).carveFree

end Sys2Proof.Machine
end

