-- ==== Sys2Proof/Machine/Actions.lean ====
section
/-! DEFINITION. The actions of fault reactions carried out (Table 12.5), STOP_MODULE (Table 12.8), and the form of every event's meaning. -/
namespace Sys2Proof.Machine

/-- RESET sent eight times on every active trunk port (R305). -/
def State.resetTrunks (s : State) : State :=
  (List.range 8).foldl (fun s t => if (s.tp t).state = .active then s.emits (List.replicate 8 (.control t 8 [s.glob.midx])) else s) s

/-- The switch dies and SRAM stacks in reset or off: what they hold is gone and every link is down. The PERST_N outputs of the
downstream and unused groups are low; those of the upstream groups too in a MODULE reset and a stop, `all` (R215, Table 1.10
step 4, Table 12.8 step 4). -/
def State.diesReset (s : State) (all : Bool) : State :=
  let s1 := { s with keeper := {}, hs := {}, xbar := {}, arb := [], trunk := [] }
  let s2 := { s1 with dma := {}, shape := {}, perf := {}, slices := [], ward := {}, mbx := { s1.mbx with harvests := [] } }
  let h : Hier := { s.hier with members := [], reserved := [], join := none, joinWait := [], remove := none, activeAt := none, admitted := false, joined := false, lost := [], lostAt := [], joinFailed := none, wasWorker := false }
  let pt : Ports := { map := s.ports.map, flash := s.ports.flash, refOk := s.ports.refOk, refLost := s.ports.refLost }
  let pl : Pool := { events := s.pool.events, evSeq := s.pool.evSeq, evLost := s.pool.evLost }
  let sv : Svc := { s.svc with resets := [], stoppedDies := [], gatedQuads := [], stoppedSlices := [], isolated := [], soleCopy := none, pll0 := false, pll1 := false, ingressShut := true, perstAll := all }
  let g : Glob := { s.glob with midx := 15, hrole := 0, bindRoot := {} }
  let s3 := { s2 with hier := h, ports := pt, pool := pl, svc := sv, glob := g }
  s3.emits (((List.range 16).filter (fun g => all || roleOf (mapEntry s.ports.map g) != 1)).map (fun g => Out.pin (.perstN g) false))

/-- STOP_MODULE (Table 12.8): nothing is written back, ALIVE stops, the module stays stopped. -/
def State.stopModule (s : State) (cause : Nat) : State :=
  if s.glob.pstate = .stopped ∨ s.glob.pstate = .off then s
  else
    let s1 := s.resetTrunks
    let s2 := if s1.faults.alive then s1.emit (.pin .alive false) else s1
    let s3 := { s2 with faults := { s2.faults with alive := false, stopCause := cause } }
    let s4 := s3.diesReset true
    { s4 with glob := { s4.glob with pstate := .stopped }, sill := { s4.sill with brownStep := 0, gpfHosts := [], gpfExps := [] }, svc := { s4.svc with mr := .idle } }

/-- A die stopped, with the quadrants it holds or serves (R36, R46). -/
def State.stopDie (s : State) (d : Nat) : State :=
  let s1 := (dieQuads d).foldl (fun s k => s.quadOut k) s
  let s2 := ({ s1 with svc := { s1.svc with stoppedDies := addOnce d s1.svc.stoppedDies } } : State).enginesCheck
  if d = 2 ∨ d = 4 then
    let other := if d = 2 then 4 else 2
    if s2.svc.stoppedDies.contains other ∨ s2.svc.soleCopy = some d then s2.fault 0x0503 (mkLoc s2.pk 15 15 15 255) 0xFF
    else { s2 with svc := { s2.svc with soleCopy := some other } }
  else s2

/-- Lowest isolated lane of a port, counted from its first lane. -/
def State.laneCut (s : State) (p : Nat) : Option Nat :=
  (List.range (cfgWidth s.ports.map p)).find? (fun i => s.svc.isolated.any (fun l => l.level == 5 && decide (l.clu ≤ 3) && l.lane == 4 * p + i))

/-- The widest of x8, x4 and x2 that the lanes below a port's lane `i` make, 0 where they make none (R182; log 82). -/
def widthBelow (i : Nat) : Nat := ([8, 4, 2].find? (fun w => decide (w ≤ i))).getD 0

/-- Widest width a port can train to: its configured width, or where a lane is isolated the widest that its lanes below it
still make (R182, Table 12.5). -/
def State.maxWidth (s : State) (p : Nat) : Nat :=
  match s.laneCut p with
  | none => cfgWidth s.ports.map p
  | some i => widthBelow i

/-- A link that is up retrains at no more than `w` lanes, its first ones, and raises LINK_DEGRADED where that is narrower than
configured (R182); with none it goes down (R219; log 82). -/
def State.retrain (s : State) (p w : Nat) : State :=
  let x := s.port p
  if ¬ x.up then s
  else if w = 0 then s.portDrops p 1
  else
    let n := min x.width w
    let s1 := s.modPort p (fun y => { y with lanes := .l0, width := n, rev := false, l0pW := 0 })
    if n < cfgWidth s.ports.map p then s1.pevent 7 p (n * 256 + x.rate) none else s1

/-- The UNIT named by a location isolated (Table 12.5). -/
def State.isolate (s : State) (l : Loc) : State :=
  let mark := fun (s : State) => { s with svc := { s.svc with isolated := addOnce l s.svc.isolated } }
  if l.clu ≤ 3 then (s.locPorts l).foldl (fun s p =>
      let s' := s.retrain p (s.maxWidth p)
      if s'.maxWidth p = 0 then (s'.modPort p (fun x => { x with fenced := true })).arbFence p else s') (mark s)
  else if l.clu = 4 then s.resetSlice56 (4 * l.k + l.unit)
  else if l.clu = 5 then mark ((s.chanAbort (8 * l.k + l.unit)).modCh (8 * l.k + l.unit) (fun x => { x with out := true }))
  else if l.clu = 6 then mark ((s.modTp l.k (fun x => { x with noRetrain := true })).tpHold l.k 4)
  else mark (s.arbIsolate (8 * l.k + l.unit))

/-- Ports or trunk port of a source fenced (Table 12.5). -/
def State.fenceAt (s : State) (l : Loc) : State :=
  if l.clu = 6 then (s.modTp l.k (fun x => { x with ctl := x.ctl &&& 0x7FFFFFFF })).tpPeerLost l.k 11
  else (s.locPorts l).foldl (fun s p => (s.departStart p 1).modPort p (fun x => { x with enabled := false })) s

/-- A cluster put into reset by a reaction (R55 to R59); it is back in service at RESET_DONE. -/
def State.resetClusterAt (s : State) (l : Loc) (reaction : Bool) : State :=
  let el := mkLoc l.pkg l.die l.quad l.clu 255
  let s1 :=
    if l.clu ≤ 3 then (s.locPorts el).foldl (fun s p => s.portDrops p 1) s
    else if l.clu = 4 then (locSlices el).foldl (fun s ks => s.resetSlice56 ks) s
    else if l.clu = 5 then (locChans el).foldl (fun s c => (s.chanAbort c).modCh c (fun x => { x with out := true })) s
    else s.tpHold l.k (s.tp l.k).cause
  { s1 with svc := { s1.svc with resets := s1.svc.resets ++ [({ kind := 5, loc := el, reaction := reaction, draining := [] } : ResetRec)] } }

/-- One action carried out: action bit of Table 12.5, source location, class. -/
def State.act (s0 : State) (a : Nat) (l : Loc) (c : Nat) : State :=
  -- a reaction at a higher level ends the targeted resets inside its element (R61)
  let el := actElem a l
  let s : State := { s0 with svc := { s0.svc with resets := s0.svc.resets.filter (fun r => ¬ (4 ≤ a ∧ holds el r.loc ∧ el.level < r.loc.level)) } }
  match a with
  | 2 => s.isolate l
  | 3 => s.fenceAt l
  | 4 => s.resetClusterAt l true
  | 5 => s.gateQuad l.k
  | 6 => s.stopDie l.die
  | 7 => s.stopModule (if c = 5 then 1 else if l.die = 6 then 2 else 3)
  | _ => s

/-- The actions due carried out, in the order of their reports; an action that provokes reports adds its own. -/
def State.settleN (s : State) (fuel : Nat) : State :=
  match fuel with
  | 0 => { s with faults := { s.faults with acts := [] } }
  | n + 1 => match s.faults.acts with
    | [] => s
    | x :: rest => (({ s with faults := { s.faults with acts := rest } } : State).act x.1 x.2.1 x.2.2).settleN n

/-! ### Harvests of dirty logs (R454) -/

/-- Lines homed here, of the extents named as HOME and EXT packed, that an agent owns. -/
def State.ownedLines (s : State) (exts : List Nat) : List Nat :=
  (s.dirLines (fun fpa => s.homed fpa && exts.contains (homeOf fpa * 2 ^ 20 + extOf fpa))).filterMap (fun x =>
    if (s.mayHold x.2.1 x.2.2 (x.1 * 64)).any (fun a => a.2) then some x.1 else none)

/-- Extents a harvest concerns, as HOME and EXT packed. -/
def State.harvestExts (s : State) (h : Harvest) : List Nat :=
  if h.frame.isSome then (match (s.slice h.slice).bind (fun x => x.log) with | some g => g.exts | none => [])
  else (List.range h.back.2.2).map (fun i => s.glob.midx * 2 ^ 20 + h.back.2.1 + i)

/-- The barrier of a harvest: the buffers swap, pages with owned lines are marked in the new one, and with
RECALL those lines are recalled. -/
def State.harvestBegin (s : State) (h : Harvest) : State × Harvest :=
  let ls := s.ownedLines (s.harvestExts h)
  let note := fun (s : State) (l : Nat) =>
    if h.frame.isSome then s.markPage s.glob.midx (extOf (l * 64)) (l * 64 % 2 ^ 28 / 4096)
    else s.emit (.homeReq h.back.1 5 (extOf (l * 64)) (l * 64 % 2 ^ 28 / 4096))
  let n := match (s.slice h.slice).bind (fun x => x.log) with | some g => g.bits.length | none => 0
  let s1 := if h.frame.isSome then s.modSlice h.slice (fun x => { x with log := x.log.map (fun g => { g with second := ! g.second, bits := [] }) }) else s
  let s2 := ls.foldl note s1
  let h1 := { h with begun := true, bits := n }
  if h.rcl then
    let y := s2.sweepStart 4 0 (fun fpa => ls.contains (lineOf fpa)) (fun _ => true) false false
    (y.1, { h1 with sweep := some y.2 })
  else (s2, h1)

/-- One harvest goes as far as it can: its barrier waits for draining keeper slices (Table 10.15), its end
for its recalls and for the homes asked that are not lost. -/
def State.harvestOne (s : State) (h : Harvest) : State :=
  if ¬ h.begun ∧ s.svc.resets.any (fun r => ! r.draining.isEmpty) then s
  else
    let x := if h.begun then (s, h) else s.harvestBegin h
    let ended := (match x.2.sweep with | some n => x.1.sweepQuiet n | none => true) && x.2.remote.all (fun m => x.1.hier.lost.contains m)
    if ended then
      let s1 : State := { x.1 with mbx := { x.1.mbx with harvests := x.1.mbx.harvests.erase h } }
      let s2 := match x.2.sweep with | some n => s1.sweepEnd n | none => s1
      match x.2.frame with
      | some f => s2.lateReply f 0xC611 rcOk [x.2.bits]
      | none => s2.emit (.homeReq x.2.back.1 0x100 x.2.back.2.1 x.2.back.2.2)
    else { x.1 with mbx := { x.1.mbx with harvests := x.1.mbx.harvests.map (fun y => if y = h then x.2 else y) } }

/-- Every harvest goes as far as it can. -/
def State.harvestGo (s : State) : State := s.mbx.harvests.foldl (fun s h => s.harvestOne h) s

/-! ### CLKREQ_N (R216) -/

/-- The ports of a group that are configured. -/
def State.groupPorts (s : State) (g : Nat) : List Nat := (List.range 4).map (4 * g + ·) |>.filter s.isPort

/-- A group is in service: its module is ACTIVE and its quadrant runs. -/
def State.grpLive (s : State) (g : Nat) : Bool :=
  s.glob.pstate == .active && ! s.svc.gatedQuads.contains (g / 2) && ! s.svc.stoppedDies.any (fun d => (dieQuads d).contains (g / 2))

/-- CLKREQ_N of a group is low: a lane is out of DEEP, or waits to leave it in the group's bring-up. -/
def State.clkWanted (s : State) (g : Nat) : Bool :=
  (s.groupPorts g).any (fun p => (s.port p).lanes != .deep || ((s.group g).bringUp && s.grpLive g))

/-- CLKREQ_N of every group driven as its lanes stand; a change of a pin is seen outside. -/
def State.clkreqs (s : State) : State :=
  (List.range 16).foldl (fun s g =>
    if s.clkWanted g = (s.group g).clkreq then s
    else (s.modGroup g (fun x => { x with clkreq := ! x.clkreq })).emit (.pin (.clkreqN g) (s.group g).clkreq)) s

/-- Nothing is left to be carried out or to cross. -/
def State.still (s : State) : Bool :=
  s.faults.acts.isEmpty && (s.xbar.voq.isEmpty || s.xbar.planes.isEmpty || s.asking.isEmpty)

/-- What a command brings about in turn: the actions due are carried out, the cells that wait cross, requesters in reset tell the arbiters,
and harvests and removals that can end do; again while that brings more. -/
def State.rounds (s : State) (fuel : Nat) : State :=
  match fuel with
  | 0 => s
  | n + 1 =>
    let s1 := (s.settleN 64).tumble.sidebands.harvestGo.cutsGo
    if s1.still then s1 else s1.rounds n

/-- The end of every command and event: what it brings about has happened, the cells that have crossed give their credits back, trunk ports
send what they may, and the CLKREQ_N pins follow their lanes. -/
def State.settle (s : State) : State := (s.rounds 8).creditsBack.pump.clkreqs

/-- The meaning of an event: where it can occur it has its effect and the reactions it provokes take
place; elsewhere the state stays (log 8). -/
def evt (can : Bool) (effect : State → State) (s : State) : Res :=
  .next (if can then (effect s).settle else s)

end Sys2Proof.Machine
end

