-- ==== Sys2Proof/Machine/Mailbox.lean ====
section
/-! DEFINITION. The Zorne mailbox: return codes, the tables of roles, locks and standby commands, admission of a frame, replies, and the form every command's meaning takes (chapter 10). -/
namespace Sys2Proof.Machine

/-! ### Tables over opcodes -/

/-- The SV8650 opcode an accepted opcode is executed as (Table 10.6). -/
def asSv8650 (op : Nat) : Nat :=
  match op with
  | 0xD001 => 0xC101 | 0xD041 => 0xC605 | 0xD042 => 0xC607 | 0xD043 => 0xC608 | 0xD044 => 0xC606 | n => n

/-- Command group of an opcode (R469, R487). -/
def groupOf (op : Nat) : Nat := asSv8650 op / 256 % 16

/-- Commands an OBSERVER may issue, besides CLOSE_SESSION of its own session (Table 10.4, R506). -/
def observerOps : List Nat :=
  [0xC004, 0xC101, 0xC102, 0xC105, 0xC106, 0xC107, 0xC112, 0xC120, 0xC200, 0xC204, 0xC207, 0xC301, 0xC403, 0xC502, 0xC604, 0xC60B]
  ++ [0xC704, 0xC706, 0xC802, 0xC805, 0xC902, 0xC903, 0xCA03, 0xCB01, 0xCC01, 0xCC02, 0xCC04, 0xCD01, 0xCD06, 0xCE02, 0xCF01]

/-- The tenant set (R488). -/
def tenantOps : List Nat := [0xC101, 0xC604, 0xC704, 0xC902, 0xC613]

/-- Commands only an ADMIN may issue (Table 10.4). -/
def adminOps : List Nat := [0xC005, 0xC006, 0xCB02, 0xC104, 0xC110, 0xCF04, 0xCD04, 0xCC05]

/-- A role may issue an opcode: 1 ADMIN, 2 OPERATOR, 3 OBSERVER, 4 TENANT (Table 10.4). CLOSE_SESSION
is open to all; which session it may name is its own check. -/
def roleMay (role op : Nat) : Bool :=
  let o := asSv8650 op
  match role with
  | 1 => true
  | 2 => ! adminOps.contains o
  | 3 => observerOps.contains o || o == 0xC003
  | 4 => tenantOps.contains o || o == 0xC003
  | _ => false

/-- Commands that work in STANDBY (R464); REG_GET and REG_SET check their offset themselves. -/
def standbyMay (op : Nat) : Bool :=
  let o := asSv8650 op
  groupOf o == 0 || groupOf o == 15 || groupOf o == 13 || [0xC101, 0xC102, 0xC105, 0xC107, 0xC106, 0xCC01, 0xCC02, 0xC120, 0xC121].contains o

/-- Commands that exist only for the manager: rejected on an SV8650-WA (R6, R265, R316). -/
def managerOnly (op : Nat) : Bool := [0xC505, 0xCB04, 0xCB05, 0xCB06].contains op

/-- GLOBAL_LOCK bit of a command's lock group (Table 10.9, Table 11.4); PORT_MAP_COMMIT checks CLOCK itself. -/
def lockBit (op : Nat) : Option Nat :=
  if [0xCD02, 0xCD05].contains op then some 0
  else if [0xC801, 0xC803, 0xC804].contains op then some 1
  else if [0xC005, 0xC006, 0xCB02].contains op then some 2
  else if [0xCC06, 0xCA05].contains op then some 3
  else if [0xCB03, 0xCB04, 0xCB05, 0xCB06, 0xCB07, 0xCB08].contains op then some 4
  else none


/-! ### Sessions -/

/-- A session by SID. -/
def State.session (s : State) (sid : Nat) : Option Session := s.mbx.sessions.find? (fun x => x.sid == sid)
/-- A session changed. -/
def State.modSession (s : State) (sid : Nat) (f : Session → Session) : State :=
  { s with mbx := { s.mbx with sessions := s.mbx.sessions.map (fun x => if x.sid = sid then f x else x) } }
/-- A session gone; its key is kept for the response of the command that closed it. -/
def State.dropSession (s : State) (sid : Nat) : State :=
  ({ s with mbx := { s.mbx with lastSk := ((s.session sid).map (fun x => (sid, x.sk))), sessions := s.mbx.sessions.filter (fun x => x.sid != sid) } } : State).woken

/-! ### Admission of a frame -/

/-- What becomes of a frame: nothing is answered, an answer, queued or forwarded, or execution in a role and slice. -/
inductive Verdict where
  | silent
  | answer (rc : Nat) (s : State)
  | done (s : State)
  | go (role slice : Nat) (s : State)

/-- The transport of a frame is there (Table 10.1, R465, R567); I3C does not respond without SB_VIO (R627). -/
def State.reachable (s : State) (f : Frame) (op : Nat) : Bool :=
  match f.xport with
  | .cxl => s.glob.pstate == .active && (s.port f.port).up && s.isUp f.port
  | .smbus | .i3c => (f.xport == .smbus || s.svc.sbVio) && s.glob.pstate != .off && s.glob.pstate != .moduleReset
      && ! (s.glob.pstate == .stopped && s.faults.log.any (fun r => (r.code == 0x0407 || r.code == 0x0408) && bit r.reaction 7))
  | .trunk => s.glob.pstate == .active && s.mbx.trunkFrame == some f
  | .sliceChan => s.glob.pstate == .active && (match (s.slice f.slice).bind (fun x => x.chan) with | some c => c.zornes.head? == some (f.tag, op) | none => false)

/-- A group is held by a command that has not answered: SLICE by a harvest, BIND by a forced
release (R243, R454, R472). A freeze holds none, as R459 answers a thaw of a FREEZING slice. -/
def State.groupHeld (s : State) (g : Nat) : Bool :=
  (g == 6 && s.mbx.harvests.any (fun h => h.frame.isSome)) || (g == 4 && ! s.pool.forced.isEmpty)

/-- The MAC of a frame is the one its session's key gives (R482). -/
def State.macHolds (s : State) (op : Nat) (f : Frame) : Bool :=
  match s.session f.sid with
  | some x => decide (f.mac = commandMac f op x.sk)
  | none => false

/-- Session, MAC and sequence number of a frame (R476, R477, R481, R482): its role and slice, or its answer. -/
def State.authorise (s : State) (op : Nat) (f : Frame) (macOk : Bool) : Verdict :=
  match f.xport with
  | .trunk => .go f.fwdRole f.slice { s with mbx := { s.mbx with trunkFrame := none } }
  | .sliceChan => if op = 0xC003 then .answer rcNoSession s else .go 4 f.slice s
  | _ =>
    if freeOps.contains op ∧ (f.sid = 0 ∨ asSv8650 op ≠ 0xC101) then .go 1 0xFFFF s
    else match s.session f.sid with
      | none => .answer rcNoSession s
      | some x =>
        if ¬ x.authed ∨ x.xport ≠ f.xport ∨ x.ep ≠ endpointOf f then .answer rcNoSession s
        else if ¬ macOk then
          .answer rcMac (if 2 ≤ x.badMacs then s.dropSession f.sid else s.modSession f.sid (fun y => { y with badMacs := y.badMacs + 1 }))
        else if f.seq ≠ x.seqNext then .answer rcSeq s
        else
          let s1 := s.modSession f.sid (fun y => { y with seqNext := y.seqNext + 1, lastAt := s.now })
          .go x.role x.slice s1

/-- DEST names another module than this one (R466, R468). -/
def State.destElse (s : State) (f : Frame) : Bool :=
  f.dest != 15 && f.dest != s.glob.midx && f.xport != .trunk && f.xport != .sliceChan

/-- A frame admitted, in the order of log 12: transport, port, VERSION, length, variant, session, role, DEST, module state, manager, group. -/
def State.admitMac (s : State) (op : Nat) (f : Frame) (c : Instr) (macOk : Bool) : Verdict :=
  match s.mbx.resumed with
  | some x => .go x.1 x.2 { s with mbx := { s.mbx with resumed := none } }
  | none =>
    if ¬ s.reachable f op then .silent
    else if f.xport = .cxl ∧ s.primary ≠ some f.port then .answer rcUnsup s
    else if f.xport ≠ .sliceChan ∧ op ≠ 0xC101 ∧ f.version ≠ 4 ∧ ¬ (0xD000 ≤ op ∧ f.version = 2) then .answer rcVersion s
    else if ¬ f.lenOk ∨ 4096 < f.plen then .answer rcLen s
    else if managerOnly op ∧ ¬ s.glob.isMA then .answer rcUnsup s
    else match s.authorise op f macOk with
      | .go role sl s1 =>
        if ¬ roleMay role op then .answer rcRole s1
        else if s1.destElse f then
          if s1.glob.hrole ≠ 1 then .answer rcNotMgr s1
          else if ¬ s1.hier.members.any (fun x => x.idx == f.dest) ∨ s1.hier.lost.contains f.dest then .answer rcPeerLost s1
          else .done ({ s1 with mbx := { s1.mbx with fwds := s1.mbx.fwds ++ [({ frame := f, opcode := op, role := role, resends := 0, slice := sl } : Fwd)] } }.emit
            (.forward f.dest { f with fwd := true, fwdRole := role, slice := sl } op role))
        else if ¬ s1.running ∧ ¬ standbyMay op then .answer rcNotReady s1
        else if managerOnly op ∧ 2 ≤ s1.glob.hrole then .answer rcNotMgr s1
        else if s1.groupHeld (groupOf op) ∨ s1.mbx.waiting.any (fun w => groupOf w.2.1 == groupOf op) then
          if 16 ≤ s1.mbx.waiting.length then .answer rcBusy s1
          else .done { s1 with mbx := { s1.mbx with waiting := s1.mbx.waiting ++ [(c, op, role, sl)] } }
        else .go role sl s1
      | v => v

/-- A frame admitted, with its MAC checked. -/
def State.admission (s : State) (op : Nat) (f : Frame) (c : Instr) : Verdict := s.admitMac op f c (s.macHolds op f)

/-- The guard and the effect of a command, with the role and slice it runs in: the guard answers a
return code without effect; the effect answers the next state, return code and payload. -/
structure Body where
  guard : Nat → Nat → State → Option Nat
  run : Nat → Nat → State → State × Nat × List Nat

/-- The execution of an admitted command: the lock group is tested first (R490), then its own rule. -/
def execBody (op : Nat) (f : Frame) (b : Body) (role sl : Nat) (s : State) : State :=
  if (lockBit op).any s.locked then s.reply f op rcLocked []
  else match b.guard role sl s with
    | some rc => s.reply f op rc []
    | none =>
      let x := b.run role sl s
      x.1.reply f op x.2.1 x.2.2

/-- The meaning of a mailbox command. -/
def commandR (op : Nat) (f : Frame) (c : Instr) (b : Body) (s : State) : Res :=
  match s.admission op f c with
  | .silent => .next s
  | .answer rc s1 => .next (s1.reply f op rc []).settle
  | .done s1 => .next s1.settle
  | .go role sl s1 => .next (execBody op f b role sl s1).settle

/-- The meaning of a mailbox command whose rule does not look at the role. -/
def command (op : Nat) (f : Frame) (c : Instr) (guard : State → Option Nat) (run : State → State × Nat × List Nat) (s : State) : Res :=
  commandR op f c { guard := fun _ _ s => guard s, run := fun _ _ s => run s } s

/-- The meaning of a command that only reads the state. -/
def query (op : Nat) (f : Frame) (c : Instr) (guard : State → Option Nat) (data : State → List Nat) (s : State) : Res :=
  command op f c guard (fun s => (s, rcOk, data s)) s

/-- The first return code of a list of checks that fails. -/
def checks (l : List (Bool × Nat)) : Option Nat := (l.find? (fun x => x.1)).map (·.2)

/-- R19 for a command that names a location: NOT_FOUND for one that does not exist, INVALID_PARAM where
the command cannot act. -/
def State.locCheck (s : State) (l : Loc) (acts : Bool) : Option Nat :=
  if ¬ s.locExists l then some rcNotFound else if ¬ acts then some rcParam else none

end Sys2Proof.Machine
end

