-- ==== Sys2Proof/Machine/Partner.lean ====
section
/-! DEFINITION. PARTNER group: partner list, events, settings, release, evacuation (chapter 5). -/
namespace Sys2Proof.Machine

/-- A partner event record packed as Table 5.3 lays it out. -/
def PRec.pack (r : PRec) : Nat :=
  r.ident * 2 ^ 192 + r.time * 2 ^ 128 + r.loc.toNat * 2 ^ 96 + r.ext * 2 ^ 80 + r.next * 2 ^ 64 + r.detail * 2 ^ 48
    + r.kind * 2 ^ 44 + b2n r.extV * 2 ^ 43 + r.index * 2 ^ 32 + r.port * 2 ^ 24 + r.seq * 2 ^ 16 + r.code

/-- LINK_HOLD of a trunk port in microseconds, within its limits (Table 6.18). -/
def Trunk.hold (t : Trunk) : Nat := max 1000 (min 50000 (bits t.ctl.toNat 15 0))

/-- The order of the completion timeouts holds (R303). -/
def State.timeoutsOk (s : State) : Bool :=
  let tr := 1000 * s.hier.trCplMs
  let ups := ((List.range 64).filter s.isUp).map s.port
  let downs := ((List.range 64).filter s.isDown).map s.port
  (List.range 8).all (fun t => decide ((s.tp t).hold < tr))
  && downs.all (fun p => decide (s.pool.snoop + p.dsCpl < tr))
  && ups.all (fun p => decide (tr < p.usCpl) && downs.all (fun q => decide (s.pool.snoop + q.dsCpl < p.usCpl)))

/-- PARTNER_LIST (R265): port, kind, index, serial number, capacity, what of it was not added for want of room (R247), and the
milliseconds left of a departure timer. -/
def execPartnerList (f : Frame) (s : State) : Res :=
  query 0xC301 f (.partnerList f) (fun _ => none)
    (fun s => s.pool.partner.flatMap (fun e => [e.1, e.2.kind, e.2.index, e.2.serial.getD 0, e.2.capacity, e.2.excess,
      match e.2.timerEnd with | some t => (t - s.now) / msTicks 1 + 1 | none => 0])) s

/-- PARTNER_EVENT_GET (R229): the oldest records, an EVENT_LOST record first after an overflow; removed as read. -/
def execPartnerEventGet (f : Frame) (count : Nat) (s : State) : Res :=
  command 0xC302 f (.partnerEventGet f count) (fun _ => none)
    (fun s =>
      let lost := match s.pool.evLost with
        | some (n, q, t) => [({ ident := 0, time := t, loc := 0, ext := 0, next := 0, detail := min 65535 n, kind := 0, extV := false, index := 0xFF, port := 0xFF, seq := q, code := 0x11 } : PRec)]
        | none => []
      let take := if count = 0 then 0 else count - lost.length
      let out := (if count = 0 then [] else lost) ++ s.pool.events.take take
      let pool := { s.pool with events := s.pool.events.drop take, evLost := if count = 0 then s.pool.evLost else none }
      ({ s with pool := pool }, rcOk, out.map PRec.pack)) s

/-- The state with the settings of PARTNER_SET written; AUTO_ADD is one setting of the module (R226, log 101). -/
def State.partnerSet (s : State) (port : Nat) (timer snoop : Option Nat) (autoAdd : Option Bool) : State :=
  let ps := match timer with | some t => Tbl.set ({} : PSet) s.pool.pset port { timer := t } | none => s.pool.pset
  { s with pool := { s.pool with pset := ps, snoop := snoop.getD s.pool.snoop, autoAdd := autoAdd.getD s.pool.autoAdd } }

/-- PARTNER_SET: departure timer 100 ms to 60 s, snoop timeout 1 ms to 256 ms, AUTO_ADD (R125, R226, R251, R303, R397). -/
def execPartnerSet (f : Frame) (port : Nat) (timer snoop : Option Nat) (autoAdd : Option Bool) (s : State) : Res :=
  command 0xC303 f (.partnerSet f port timer snoop autoAdd)
    (fun s => checks
      [(! (decide (port < 64) || (decide (0x40 ≤ port) && decide (port ≤ 0x47))), rcParam),
       (timer.any (fun t => decide (t < 100) || decide (60000 < t)), rcParam),
       (snoop.any (fun t => decide (t < 1000) || decide (256000 < t)), rcParam),
       (! (s.partnerSet port timer snoop autoAdd).timeoutsOk, rcParam),
       (! (s.partnerSet port timer snoop autoAdd).gatesOk, rcParam)])
    (fun s => (s.partnerSet port timer snoop autoAdd, rcOk, [])) s

/-- A partner's departure timer ends with the expiry outcome (Table 5.9). -/
def State.expire (s : State) (p : Nat) : State := (s.pevent 6 p 0 none).releasePartner p

/-- PARTNER_RELEASE (R256): ends a departure timer at once. -/
def execPartnerRelease (f : Frame) (port : Nat) (s : State) : Res :=
  command 0xC304 f (.partnerRelease f port)
    (fun s => match s.partner port with
      | none => some rcNotFound
      | some x => checks [(x.leaving, rcBusy), (x.timerEnd.isNone, rcParam)])
    (fun s => (s.expire port, rcOk, [])) s

/-! ### EVACUATE_PARTNER (R257 to R263) -/

/-- Raw bytes a port carries in 40 microseconds at half its trained bandwidth (R260). -/
def Port.bytes40 (p : Port) : Nat :=
  let r10 := match p.rate with | 1 => 25 | 2 => 50 | 3 => 80 | 4 => 160 | 5 => 320 | 6 => 640 | _ => 0
  p.width * r10 * 250

/-- The stall limit of an evacuation (R260). -/
def State.stallLimit (s : State) (v : Evac) : Nat :=
  let lim := min (s.port v.port).bytes40 (s.port (s.ext v.f).port).bytes40 / 4096
  min (if v.stallPages = 0 then 256 else v.stallPages) lim

/-- Extents of a port still to move: BOUND or SUSPECT, ascending. -/
def State.evacTodo (s : State) (port : Nat) : List Nat := s.extsOf port (fun x => x == .bound || x == .suspect)

/-- Lowest FREE extent on a permitted port other than the source, one that no POOL_ALLOC holds where there is one
(R257, R259). -/
def State.evacDest (s : State) (port mask : Nat) : Option Nat :=
  let l := s.pool.ext.filter (fun e => e.2.state == .free && e.2.port != port && (mask == 0 || bit mask e.2.port))
  ((l.find? (fun e => ! e.2.reserved)).orElse (fun _ => l.head?)).map (·.1)

/-- The next extent of an evacuation begins, or the operation completes (Table 5.11 step 1, R262). -/
def State.evacNext (s : State) (v : Evac) : State :=
  match s.evacTodo v.port, s.evacDest v.port v.mask with
  | [], _ =>
    let gone := (s.pool.ext.filter (fun e => e.2.port == v.port && e.2.state == .absent)).map (·.1)
    let s1 := (runsOf gone).foldl (fun s r => s.pevent 0xC v.port 0 (some r)) s
    let s2 := gone.foldl (fun s e => s.modExt e (fun x => { state := .absent, gen := x.gen })) s1
    let s3 := { s2 with pool := { s2.pool with evac := none, dirty := [] } }.modCh v.ch (fun c => { c with fwJob := false })
    s3.endOp 3 0 (some v.skipped)
  | e :: _, some f =>
    let prev := (s.ext e).state
    let s1 := (s.modExt e (fun x => { x with state := .evacSrc })).modExt f (fun x => { x with state := .evacDst })
    { s1 with pool := { s1.pool with evac := some { v with e := e, f := f, prev := prev, step := 2, pass := 0, guards := 0, pages := none }, dirty := [] } }
  | _ :: _, none => ({ s with pool := { s.pool with evac := some v } }).evacEnd 8 false

/-- EVACUATE_PARTNER (R257, R258). -/
def execEvacuatePartner (f : Frame) (port ch share stallPages maxPasses mask : Nat) (s : State) : Res :=
  command 0xC310 f (.evacuatePartner f port ch share stallPages maxPasses mask)
    (fun s => match s.partner port with
      | none => some rcNotFound
      | some x => checks
          [(x.timerEnd.isSome || x.leaving || s.opRunning 3, rcBusy),
           (x.kind != 3 || decide (63 < ch) || decide (255 < share), rcParam),
           (stallPages != 0 && (decide (stallPages < 16) || decide (1024 < stallPages)), rcParam),
           (maxPasses != 0 && (decide (maxPasses < 2) || decide (32 < maxPasses)), rcParam),
           (s.extsOf port (fun st => st == .carve) != [], rcParam),
           ((s.chan ch).slice.isSome, rcParam), ((s.chan ch).fwJob, rcBusy),
           (decide ((s.pool.ext.filter (fun e => e.2.state == .free && e.2.port != port && (mask == 0 || bit mask e.2.port))).length < (s.evacTodo port).length), rcNoRes)])
    (fun s =>
      let total := (s.evacTodo port).length
      let skipped := (s.extsOf port (fun st => st == .failed)).length
      let s1 := (s.extsOf port (fun st => st == .free)).foldl (fun s e => s.modExt e (fun x => { x with state := .absent })) s
      let s2 := (s1.startOp 3 0xC310 total).1.modCh ch (fun c => { c with fwJob := true, share := if share = 0 then 128 else share })
      let v : Evac := { port := port, ch := ch, share := share, stallPages := stallPages, maxPasses := maxPasses, mask := mask, e := 0, f := 0, prev := .bound, step := 0, pass := 0, guards := 0, skipped := skipped, stallAt := 0 }
      (s2.evacNext v, rcBg, [(s1.startOp 3 0xC310 total).2])) s

/-- The bitmap of an evacuation is harvested: the pages written since the last harvest, and an empty bitmap (Table 5.11). -/
def State.evacHarvest (s : State) : List Nat × State := (s.pool.dirty.map (· % 65536), { s with pool := { s.pool with dirty := [] } })

/-- A transaction that a write stall holds off new ones of is still open on an extent (Table 5.11 step 4). -/
def State.evacBusy (s : State) (v : Evac) : Bool :=
  s.keeper.txns.any (fun t => s.homed (t.line * 64) && extOf (t.line * 64) == v.e && t.stage != .ack
    && (t.q.kind == .wrInvFull || t.q.kind == .wrInvPart || t.q.kind == .atomOp || t.q.kind == .rdx || t.q.kind == .upg))

/-- EVAC_PASS_DONE: a copy pass of extent E has ended: its pages stand at the new backing and its bitmap is harvested (Table 5.11 steps 2 to 4, R260, R261). -/
def execEvacPassDone (e : Nat) (s : State) : Res :=
  evt (s.pool.evac.any (fun v => v.e == e && v.step == 2)) (fun s => match s.pool.evac with
    | none => s
    | some v =>
      let n := v.pass + 1
      let h := (s.emit (.evacCopy v.e v.f v.pages)).evacHarvest
      let s0 := h.2
      if h.1.length ≤ s.stallLimit v then
        let mine := s0.keeper.alc.filter (fun c => s0.homed (c.line * 64) && extOf (c.line * 64) == v.e)
        let s1 := { s0 with pool := { s0.pool with evac := some { v with pass := n, step := 4, stallAt := s.now, pages := some h.1 } } }
        mine.foldl (fun s c => s.alcFlush c.line) s1
      else if (if v.maxPasses = 0 then 8 else v.maxPasses) ≤ n then s0.evacEnd 3 false
      else { s0 with pool := { s0.pool with evac := some { v with pass := n, pages := some h.1 } } }) s

/-- EVAC_STALL_DRAINED: the writes of extent E admitted before the stall have completed: the bitmap is harvested once more, and with what the last harvest
left its pages are the final pass (Table 5.11 step 5). -/
def execEvacStallDrained (e : Nat) (s : State) : Res :=
  evt (s.pool.evac.any (fun v => v.e == e && v.step == 4 && ! s.evacBusy v)) (fun s => match s.pool.evac with
    | none => s
    | some v =>
      let h := s.evacHarvest
      { h.2 with pool := { h.2.pool with evac := some { v with step := 5, pages := some (addAll h.1 (v.pages.getD [])) } } }) s

/-- The final pass has ended: EVAC_INTENT, the remap, the release of the stall, EVAC_PAIR and
EVAC_EXTENT_DONE (Table 5.11 steps 5 to 7, R497). -/
def execEvacFinalPassDone (s : State) : Res :=
  evt (s.pool.evac.any (fun v => v.step == 5)) (fun s => match s.pool.evac with
    | none => s
    | some v =>
      let x := s.ext v.e
      let y := s.ext v.f
      let id := match Tbl.find s.mbx.ops 3 with | some o => o.opid | none => 0
      let j : JRec := { type := 2, status := 0, code := 0xC310, opid := id, position := v.e, arg := y.port * 65536 + y.dpa, time := 0 }
      let s1 := (s.emit (.evacCopy v.e v.f v.pages)).journal j
      let s2 := (s1.modExt v.e (fun z => { z with port := y.port, dpa := y.dpa, partner := y.partner, state := v.prev })).modExt v.f
        (fun z => { z with port := x.port, dpa := x.dpa, partner := x.partner, state := .absent })
      let done := match Tbl.find s.mbx.ops 3 with | some o => o.pos + 1 | none => 0
      let s3 := ((s2.bindGen.pevent 0xD v.port v.pass (some (v.e, 1))).journal { j with type := 3 }).posOp 3 done
      s3.evacNext v) s

/-- The 50 microsecond guard of the write stall expires (R260, R261). -/
def execEvacStallGuard (s : State) : Res :=
  evt (s.pool.evac.any (fun v => decide (4 ≤ v.step))) (fun s => match s.pool.evac with
    | none => s
    | some v =>
      if 1 ≤ v.guards then s.evacEnd 3 false
      else { s with pool := { s.pool with evac := some { v with step := 2, pass := 0, guards := v.guards + 1, pages := none }, dirty := [] } }) s

/-- An extent's copy starts over (Table 10.15, PORT reset of its source or destination). -/
def State.evacRestart (s : State) (port : Nat) : State :=
  match s.pool.evac with
  | some v => if v.port = port ∨ (s.ext v.f).port = port then { s with pool := { s.pool with evac := some { v with step := 2, pages := none }, dirty := [] } } else s
  | none => s

end Sys2Proof.Machine
end

