-- ==== Sys2Proof/Machine/Bind.lean ====
section
/-! DEFINITION. BIND group and dynamic capacity toward hosts (R235 to R245, R647). -/
namespace Sys2Proof.Machine

/-- A requested entry is in range for a host of a kind (Table 5.7, R367). -/
def State.bindShape (s : State) (kind : Nat) (b : BindReq) : Bool :=
  (b.access == 1 || b.access == 3) && decide (b.dcr ≤ 7) && (kind != 2 || b.dcr == 0)
  && decide (b.hoffExt + b.nm1 < 2 ^ 18) && decide (b.fext + b.nm1 ≤ 65535)
  && (decide (b.home ≤ 8) ||
      (b.home == 15 && (match (s.win (b.fext / 4096)).dfn with
        | some d => decide (b.fext % 4096 + b.nm1 < d.next)
        | none => false)))

/-- Two ranges of host offsets overlap. -/
def overlaps (a an b bn : Nat) : Bool := decide (a ≤ b + bn) && decide (b ≤ a + an)

/-- Requested entries overlap none of the host's and none of each other. -/
def State.bindFree (s : State) (h : Nat) (bs : List BindReq) : Bool :=
  bs.all (fun b => (s.entsOf h).all (fun e => ! overlaps b.hoffExt b.nm1 e.2.hoffExt e.2.nm1))
  && (match bs with
      | [] => true
      | _ => (List.range bs.length).all (fun i => (List.range i).all (fun j =>
          match bs[i]?, bs[j]? with
          | some x, some y => ! overlaps x.hoffExt x.nm1 y.hoffExt y.nm1
          | _, _ => true)))

/-- The extents of a request, on this module. -/
def reqExts (home : Nat) (bs : List BindReq) : List Nat :=
  (bs.filter (fun b => b.home == home)).flatMap (fun b => (List.range (b.nm1 + 1)).map (b.fext + ·))

/-- The home's checks of a bind of its extents (R647, Table 5.5). -/
def State.homeCheck (s : State) (es : List Nat) : Option Nat :=
  let bad := fun e => let x := s.ext e; ! (x.state == .free || x.state == .bound || x.state == .evacSrc)
  let away := fun e => (s.partner (s.ext e).port).any (fun p => p.timerEnd.isSome || p.leaving)
  checks
    [(es.any (fun e => bad e && (s.ext e).state != .absent && away e), rcBusy),
     (es.any bad, rcParam),
     (es.any (fun e => away e), rcBusy),
     (es.any (fun e => decide (1023 < (s.ext e).binds + (es.filter (· == e)).length)), rcNoRes)]

/-- The home's state change of a bind: FREE extents become BOUND with GEN advanced, BINDS advances (R241 step 1). -/
def State.homeBind (s : State) (es : List Nat) : State :=
  es.foldl (fun s e => s.modExt e (fun x => { x with
    gen := if x.state = .free then (x.gen + 1) % 65536 else x.gen, state := if x.state = .free then .bound else x.state, binds := x.binds + 1, reserved := false })) s

/-- Steps 2 and 3 of R241: entries written as pending and the capacity events sent; for a HOST_H the
additions are stored (R240). -/
def State.bindPend (s : State) (h : Nat) (bs : List BindReq) : State × List Nat :=
  let hh := ((s.hostPort h).bind s.partner).any (fun x => x.kind == 2)
  bs.foldl (fun (r : State × List Nat) b =>
    match r.1.freeEnt h with
    | none => r
    | some n =>
      let e : Ent := { hoffExt := b.hoffExt, home := b.home, fext := b.fext, nm1 := b.nm1, access := b.access, dcr := b.dcr, state := if hh then .storedAdd else .addPending, tell := false, since := r.1.now }
      let s1 := { r.1 with pool := { r.1.pool with ent := Tbl.put r.1.pool.ent (512 * h + n) e } }.bindGen
      (if hh then s1 else s1.emit (.dcEvent h 0 n), r.2 ++ [n])) (s, [])

/-- BIND and POOL commands on a host: it exists and is not departing (R256, R264). -/
def State.hostCheck (s : State) (h : Nat) : Option Nat :=
  match (s.hostPort h).bind s.partner with
  | none => some rcNotFound
  | some x => if x.timerEnd.isSome ∨ x.leaving then some rcBusy else none

/-- This worker has been told that it leaves: its extents take no new bind (Table 6.17 step 1). -/
def State.leaving (s : State) : Bool := s.glob.hrole == 2 && (match s.hier.remove with | some r => r.1 == s.glob.midx | none => false)

/-- BIND_ADD (R241, R647). Extents of another home are asked for there first. -/
def execBindAdd (f : Frame) (host : Nat) (entries : List BindReq) (s : State) : Res :=
  command 0xC401 f (.bindAdd f host entries)
    (fun s => match s.hostCheck host with
      | some rc => some rc
      | none =>
        let kind := (((s.hostPort host).bind s.partner).map (fun x => x.kind)).getD 1
        let homes := (entries.map (fun b => b.home)).filter (fun m => m != 15 && m != s.glob.midx)
        (checks
          [(! s.decodes, rcNotMgr), (entries.any (fun b => ! s.bindShape kind b), rcParam),
           (! s.bindFree host entries, rcParam),
           (decide (512 < (s.entsOf host).length + entries.length), rcNoRes),
           (s.leaving && entries.any (fun b => b.home == 15 || b.home == s.glob.midx), rcBusy),
           (s.opRunning 11 && (match s.hier.remove with | some r => homes.contains r.1 | none => false), rcBusy),
           (homes.any (fun m => ! s.hier.members.any (fun x => x.idx == m) || s.hier.lost.contains m), rcPeerLost)]).orElse
          (fun _ => s.homeCheck (reqExts s.glob.midx entries)))
    (fun s =>
      let homes := entries.filter (fun b => b.home != 15 && b.home != s.glob.midx)
      if homes = [] then
        let x := (s.homeBind (reqExts s.glob.midx entries)).bindPend host entries
        (x.1, rcOk, x.2)
      else
        (s.askHomes { frame := f, op := 0xC401, arg := host, binds := entries, asks := homes.map (fun b => { home := b.home, kind := 0, ext := b.fext, n := b.nm1 + 1 }), done := [], tries := 0 }, rcLater, [])) s

/-- BIND_RELEASE (R242, R243, R240). -/
def execBindRelease (f : Frame) (host entry : Nat) (force : Bool) (s : State) : Res :=
  command 0xC402 f (.bindRelease f host entry force)
    (fun s => (s.hostCheck host).orElse (fun _ => match Tbl.find s.pool.ent (512 * host + entry) with
      | none => some rcNotFound
      | some e => if 512 ≤ entry then some rcNotFound else match e.state with
        | .addPending | .removing | .storedRelease => some rcBusy
        | .releasePending => if force then none else some rcBusy
        | _ => none))
    (fun s => match Tbl.find s.pool.ent (512 * host + entry) with
      | none => (s, rcNotFound, [])
      | some e =>
        let set := fun (e : Ent) => ({ s with pool := { s.pool with ent := Tbl.put s.pool.ent (512 * host + entry) e } } : State)
        let hh := ((s.hostPort host).bind s.partner).any (fun x => x.kind == 2)
        if e.state = .storedAdd then (((s.unbindEnt e).delEnt host entry), rcOk, [])
        else if hh then (set { e with state := .storedRelease }, rcOk, [])
        else if force then
          let s1 := (s.emit (.dcEvent host 2 entry)).removeStart host entry true
          ({ s1 with pool := { s1.pool with forced := s1.pool.forced ++ [(host, entry, f)] } }, rcLater, [])
        else ((set { e with state := .releasePending, since := s.now }).emit (.dcEvent host 1 entry), rcOk, [])) s

/-- A binding table entry packed as Table 5.7, V with it. -/
def Ent.pack (e : Ent) : Nat :=
  e.hoffExt * 2 ^ 46 + e.home * 2 ^ 42 + e.fext * 2 ^ 26 + e.nm1 * 2 ^ 10 + e.access * 2 ^ 8 + e.dcr * 2 ^ 5 + b2n e.admits

/-- State of an entry as BIND_TABLE_GET reports it: 0 VALID, 1 ADD_PENDING, 2 RELEASE_PENDING (R243). -/
def Ent.report (e : Ent) : Nat :=
  match e.state with | .valid => 0 | .addPending | .storedAdd => 1 | _ => 2

/-- BIND_TABLE_GET (R243): number, contents and state of every entry. -/
def execBindTableGet (f : Frame) (host : Nat) (s : State) : Res :=
  query 0xC403 f (.bindTableGet f host) (fun s => if (s.hostPort host).isNone then some rcNotFound else none)
    (fun s => (s.entsOf host).flatMap (fun e => [e.1, e.2.pack, e.2.report])) s

/-- The host's port presents itself as the upstream port of a virtual switch (R184). -/
def State.isSwitch (s : State) (host : Nat) : Bool :=
  match s.hostPort host with
  | some p => bit (mapEntry s.ports.map (grpOf p)) 27
  | none => false

/-- BIND_PASSTHRU (R184, R194, R256): a logical device to one of the virtual downstream bridges 1 to 15 of a host whose port is in
SWITCH mode. -/
def execBindPassthru (f : Frame) (d : LogDev) (host bridge : Nat) (s : State) : Res :=
  command 0xC404 f (.bindPassthru f d host bridge)
    (fun s => (s.hostCheck host).orElse (fun _ => match s.partner d.port with
      | none => some rcNotFound
      | some x => checks
          [(! s.decodes, rcNotMgr), (x.timerEnd.isSome || x.leaving, rcBusy), (x.kind != 5 || decide (x.lds ≤ d.ld) || bridge == 0 || decide (15 < bridge) || ! s.isSwitch host, rcParam),
           ((Tbl.find s.pool.bridge (16 * host + bridge)).isSome || s.pool.bridge.any (fun b => b.2 == d.port + 64 * d.ld), rcBusy)]))
    (fun s => ({ s with pool := { s.pool with bridge := Tbl.put s.pool.bridge (16 * host + bridge) (d.port + 64 * d.ld) } }, rcOk, [])) s

/-- The state of an entry of a host. -/
def State.entState (s : State) (h n : Nat) : Option EntState := (Tbl.find s.pool.ent (512 * h + n)).map (fun e => e.state)

/-- An added entry declined, or left unanswered: unbound, DC_DECLINED (R241 step 5). -/
def State.dcDecline (s : State) (h n reason : Nat) : State :=
  match Tbl.find s.pool.ent (512 * h + n) with
  | none => s
  | some e => if e.state = .addPending ∧ n < 512 then
      ((s.unbindEnt e).delEnt h n).pevent 0x12 ((s.hostPort h).getD 0xFF) (e.dcr * 256 + reason) (if e.home = s.glob.midx then some (e.fext, e.nm1 + 1) else none)
    else s

/-- An added entry accepted: valid, DC_ACCEPTED (R241 step 4). -/
def State.dcAccept (s : State) (h n : Nat) : State :=
  match Tbl.find s.pool.ent (512 * h + n) with
  | none => s
  | some e => if e.state = .addPending ∧ n < 512 then
      ({ s with pool := { s.pool with ent := Tbl.put s.pool.ent (512 * h + n) { e with state := .valid } } }.bindGen).pevent 0xE ((s.hostPort h).getD 0xFF) e.dcr
        (if e.home = s.glob.midx then some (e.fext, e.nm1 + 1) else none)
    else s

/-- ADD_DYNAMIC_CAPACITY_RESPONSE (R241). -/
def execAddDynamicCapacityResponse (host : Nat) (accepted declined : List Nat) (s : State) : Res :=
  evt (s.hostLive host) (fun s => declined.foldl (fun s n => s.dcDecline host n 1) (accepted.foldl (fun s n => s.dcAccept host n) s)) s

/-- DC_ADD_TIMEOUT: unanswered for 10 s (R241). -/
def execDcAddTimeout (host entry : Nat) (s : State) : Res :=
  evt (s.entState host entry == some .addPending && decide (entry < 512)) (fun s => s.dcDecline host entry 2) s

/-- RELEASE_DYNAMIC_CAPACITY (R242 step 2). -/
def execReleaseDynamicCapacity (host entry : Nat) (s : State) : Res :=
  evt (s.entState host entry == some .releasePending && decide (entry < 512)) (fun s => s.removeStart host entry true) s

/-- DC_RELEASE_TIMEOUT: Forced Capacity Release instead (R242 step 3). -/
def execDcReleaseTimeout (host entry : Nat) (s : State) : Res :=
  evt (s.entState host entry == some .releasePending && decide (entry < 512)) (fun s => (s.emit (.dcEvent host 2 entry)).removeStart host entry true) s

/-- BINDING_REMOVAL_DONE: every recall has answered; a forced release answers now (R239, R243). -/
def execBindingRemovalDone (host entry : Nat) (s : State) : Res :=
  evt (s.entState host entry == some .removing && decide (entry < 512) && s.removeQuiet host entry) (fun s =>
    let s1 := s.removeDone host entry
    match s.pool.forced.find? (fun x => x.1 == host && x.2.1 == entry) with
    | some x => { s1 with pool := { s1.pool with forced := s1.pool.forced.erase x } }.lateReply x.2.2 0xC402 rcOk []
    | none => s1) s

/-! ### What a planned leave asks of the bindings (R313), and P0's messages to the members -/

/-- A hierarchy-control message of P0 about a member, with the member list and the settings (R308, R316). -/
def State.hierMsgOf (s : State) (kind idx serial : Nat) : HierMsg :=
  { kind := kind, idx := idx, serial := serial, autoAdmit := s.hier.autoAdmit, meshTimeout := s.hier.meshMs, trCpl := s.hier.trCplMs, members := s.hier.members.map (fun m => (m.idx, m.serial)) }

/-- Trunk ports with an ACTIVE link. -/
def State.liveTrunks (s : State) : List Nat := (List.range 8).filter (fun t => (s.tp t).state == .active)

/-- A hierarchy-control message to every member over its link. -/
def State.toMembers (s : State) (kind idx serial : Nat) : State :=
  (s.liveTrunks.filter (fun t => s.hier.members.any (fun m => m.idx == (s.tp t).peerIdx))).foldl
    (fun s t => s.emit (.hierMsg t (s.hierMsgOf kind idx serial))) s

/-- A binding of this module reaches the extents of another home, directly or through an alias window. -/
def State.bindsHome (s : State) (m : Nat) : Bool :=
  s.pool.ent.any (fun e => e.2.home == m || (e.2.home == 15 && (match (s.win (e.2.fext / 4096)).dfn with | some d => d.homeA == m || d.homeB == m | none => false)))

/-- A member's bindings stand against a worker's leave: one names the worker's HOME, or, at the worker, another module's (R313). -/
def State.leaveBlocked (s : State) (idx : Nat) : Bool :=
  if idx = s.glob.midx then s.pool.ent.any (fun e => e.2.home != idx && (e.2.home != 15 || (match (s.win (e.2.fext / 4096)).dfn with | some d => d.homeA != idx || d.homeB != idx | none => false)))
  else s.bindsHome idx

end Sys2Proof.Machine
end

