-- ==== Sys2Proof/Machine/PoolCmd.lean ====
section
/-! DEFINITION. POOL group: adding, releasing and reserving capacity, the spill carve-out, and requests from other modules to this home (chapter 5, R156, R159, R647). -/
namespace Sys2Proof.Machine

/-- Extents with a backing or on their way to one. -/
def State.decoded (s : State) : Nat := (s.pool.ext.filter (fun e => e.2.state != .absent)).length

/-- The capacity of an expander that can be added: blocks not yet taken, within 16 TiB (R247). -/
def State.addable (s : State) (port : Nat) : Nat :=
  match s.partner port with
  | none => 0
  | some x => min (x.capacity - (s.extsOf port (fun _ => true)).length) (65536 - s.decoded)

/-- The `n` lowest ABSENT extents, found below `65536`. -/
def absentFrom (t : Tbl Ext) (n e fuel : Nat) : List Nat :=
  match fuel, n with
  | 0, _ => []
  | _, 0 => []
  | k + 1, m + 1 => if (Tbl.get ({} : Ext) t e).state = .absent then e :: absentFrom t m (e + 1) k else absentFrom t (m + 1) (e + 1) k

/-- An expander's capacity taken into the pool as extents in SCRUB (R246 steps 1 to 4); a hierarchy of SV8650-WA modules alone decodes none (R5). -/
def State.addCapacity (s : State) (port : Nat) (cmd : Bool) : State :=
  match (if s.decodes then s.partner port else none) with
  | none => s
  | some x =>
    let used := (s.extsOf port (fun _ => true)).map (fun e => (s.ext e).dpa)
    let n := s.addable port
    let es := absentFrom s.pool.ext n 0 65536
    let dpas := ((List.range x.capacity).filter (fun d => ! used.contains d)).take n
    let s1 := (es.zip dpas).foldl (fun s y => s.modExt y.1 (fun z => { state := .scrub, port := port, dpa := y.2, partner := x.pindex, gen := z.gen })) s
    let s2 := { s1 with pool := { s1.pool with adding := s1.pool.adding ++ [(port, es, cmd)] } }.bindGen
    let s3 := s2.modPartner port (fun y => { y with excess := x.capacity - used.length - n })
    if n < x.capacity - used.length then s3.pevent 0x10 port 5 none else s3

/-- An expander a POOL command names: present, not departing (R256, R264). -/
def State.expanderCheck (s : State) (port : Nat) : Option Nat :=
  match s.partner port with
  | none => some rcNotFound
  | some x => checks [(x.kind != 3, rcParam), (x.timerEnd.isSome || x.leaving, rcBusy)]

/-- POOL_ADD_PARTNER (R246). -/
def execPoolAddPartner (f : Frame) (port : Nat) (s : State) : Res :=
  command 0xC501 f (.poolAddPartner f port)
    (fun s => (s.expanderCheck port).orElse (fun _ => checks
      [(! s.decodes, rcNotMgr), (s.opRunning 5 || s.pool.adding.any (fun a => a.1 == port), rcBusy), (s.addable port == 0, rcNoRes)]))
    (fun s =>
      let x := s.startOp 5 0xC501 (s.addable port)
      (x.1.addCapacity port true, rcBg, [x.2])) s

/-- An addition whose extents are all FREE ends: CAPACITY_ADDED for each run (R246 step 4). -/
def State.addStep (s : State) (a : Nat × List Nat × Bool) : State :=
  let free := a.2.1.filter (fun e => (s.ext e).state != .scrub)
  let s1 := if a.2.2 then s.posOp 5 free.length else s
  if free.length = a.2.1.length then
    let s2 := (runsOf a.2.1).foldl (fun s r => s.pevent 0xB a.1 0 (some r)) s1
    let s3 := { s2 with pool := { s2.pool with adding := s2.pool.adding.erase a } }
    if a.2.2 then s3.endOp 5 0 none else s3
  else s1

/-- SCRUB_DONE: the zero-fill of an extent ends and it becomes FREE (R234, R246). -/
def execScrubDone (ext : Nat) (s : State) : Res :=
  evt ((s.ext ext).state == .scrub) (fun s =>
    let s0 := s.emit (.scrubFill (s.ext ext).port ((s.ext ext).dpa * 2 ^ 28))
    let s1 := (s0.modExt ext (fun x => { x with state := .free })).bindGen
    let s2 := match s1.pool.adding.find? (fun a => a.2.1.contains ext) with
      | some a => s1.addStep a
      | none => s1
    s2.releaseStep) s

/-- POOL_STATUS (R265): counts per extent state, then extents per downstream port. -/
def execPoolStatus (f : Frame) (s : State) : Res :=
  query 0xC502 f (.poolStatus f) (fun _ => none)
    (fun s =>
      let cnt := fun st => (s.pool.ext.filter (fun e => e.2.state == st)).length
      [cnt .free, cnt .bound, cnt .carve, cnt .evacSrc, cnt .evacDst, cnt .suspect, cnt .failed, cnt .scrub, s.decoded]
      ++ (List.range 64).map (fun p => (s.extsOf p (fun _ => true)).length)) s

/-- Extents named by a command. -/
def named (ext count : Nat) : List Nat := (List.range count).map (ext + ·)

/-- POOL_EXTENT_REVALIDATE (R255). -/
def execPoolExtentRevalidate (f : Frame) (ext count : Nat) (s : State) : Res :=
  command 0xC503 f (.poolExtentRevalidate f ext count)
    (fun s => checks
      [(decide (count = 0) || decide (65536 < ext + count), rcParam),
       ((named ext count).any (fun e => (s.partner (s.ext e).port).any (fun p => p.timerEnd.isSome || p.leaving)), rcBusy),
       ((named ext count).any (fun e => (s.ext e).state != .suspect), rcParam)])
    (fun s =>
      let s1 := (named ext count).foldl (fun s e => s.modExt e (fun x => { x with state := if x.binds = 0 then .scrub else .bound })) s
      let ps := addAll ((named ext count).map (fun e => (s.ext e).port)) []
      ((ps.flatMap (fun p => (runsOf ((named ext count).filter (fun e => (s.ext e).port == p))).map (fun r => (p, r)))).foldl
        (fun s y => s.pevent 0xA y.1 0 (some y.2)) s1.bindGen, rcOk, [])) s

/-- POOL_EXTENT_RELEASE (R255): SUSPECT and FAILED extents leave every binding; SUSPECT ones go through SCRUB. -/
def execPoolExtentRelease (f : Frame) (ext count : Nat) (s : State) : Res :=
  command 0xC504 f (.poolExtentRelease f ext count)
    (fun s => checks
      [(decide (count = 0) || decide (65536 < ext + count), rcParam), (s.opRunning 5, rcBusy),
       ((named ext count).any (fun e => (s.ext e).state != .suspect && (s.ext e).state != .failed), rcParam)])
    (fun s =>
      let es := named ext count
      let x := s.startOp 5 0xC504 count
      let s1 := x.1.cutExts es
      let s2 := { s1 with pool := { s1.pool with releasing := some es } }
      (s2.releaseStep, rcBg, [x.2])) s

/-- FREE extents reserved for later binding; none when too few. -/
def State.reserve (s : State) (count : Nat) : Option (List Nat) :=
  let es := ((s.pool.ext.filter (fun e => e.2.state == .free && ! e.2.reserved)).map (·.1)).take count
  if es.length = count then some es else none

/-- Extents marked reserved. -/
def State.markReserved (s : State) (es : List Nat) : State := es.foldl (fun s e => s.modExt e (fun x => { x with reserved := true })) s

/-- POOL_ALLOC (R265): on this module at once, on another through its home's answer. -/
def execPoolAlloc (f : Frame) (module count : Nat) (s : State) : Res :=
  command 0xC505 f (.poolAlloc f module count)
    (fun s => if module = s.glob.midx then (if count = 0 then some rcParam else if (s.reserve count).isNone then some rcNoRes else none)
      else checks [(decide (8 < module) || count == 0, rcParam), (! s.hier.members.any (fun x => x.idx == module) || s.hier.lost.contains module, rcPeerLost)])
    (fun s => if module = s.glob.midx then
        let es := (s.reserve count).getD []
        (s.markReserved es, rcOk, es)
      else
        (s.askHomes { frame := f, op := 0xC505, arg := module, binds := [], asks := [{ home := module, kind := 2, ext := 0, n := count }], done := [], tries := 0 }, rcLater, [])) s

/-- SPILL_CTL as POOL_SPILL_SET writes it (Table 3.6). -/
def spillWord (base size high low : Nat) (en : Bool) : Reg64 :=
  BitVec.ofNat 64 (base % 65536 * 2 ^ 48 + size % 256 * 2 ^ 32 + high % 256 * 2 ^ 16 + low % 256 * 2 ^ 8 + b2n en)

/-- POOL_SPILL_SET (R156, R159, R160, R234). The extents named leave FREE for CARVE; a carve-out given up goes
through SCRUB once every spill queue is empty. -/
def execPoolSpillSet (f : Frame) (base size high low : Nat) (en : Bool) (s : State) : Res :=
  command 0xC506 f (.poolSpillSet f base size high low en)
    (fun s =>
      let es := named base size
      checks
        [(decide (65536 < base + size) || decide (255 < size), rcParam),
         (decide (high < 50) || decide (95 < high) || decide (low < 10) || decide (high < low + 10), rcParam),
         (en && decide (size < 4), rcParam),
         (size != 0 && decide (size < 4), rcParam),
         (es.any (fun e => (s.ext e).state != .free && (s.ext e).state != .carve), rcParam),
         (es.any (fun e => (s.ext e).port != (s.ext base).port), rcParam),
         (es.any (fun e => (s.partner (s.ext e).port).any (fun p => p.timerEnd.isSome || p.leaving)), rcBusy),
         (size != 0 && s.xbar.spillQ != [] && (base != s.carveExt || size != bits s.xbar.spillCtl.toNat 39 32), rcBusy)])
    (fun s =>
      let es := named base size
      if size = 0 ∧ s.xbar.spillQ ≠ [] then
        -- the carve-out is still needed: it is given up once every spill queue is empty (R160)
        (({ s with xbar := { s.xbar with giveUp := true, spillCtl := spillWord s.carveExt (bits s.xbar.spillCtl.toNat 39 32) high low false } } : State).bindGen, rcOk, [])
      else
      let s1 := (s.pool.ext.filter (fun e => e.2.state == .carve && ! es.contains e.1)).foldl (fun s e => s.modExt e.1 (fun x => { x with state := .scrub })) s
      let s2 := es.foldl (fun s e => s.modExt e (fun x => { x with state := .carve })) s1
      ({ s2 with xbar := { s2.xbar with giveUp := false, spillCtl := spillWord base size high low en } }.bindGen, rcOk, [])) s

/-- HOME_MODULE_REQUEST (R647, R453): a member's firmware asks this home. Kind 0 binds extents, 1 lowers
their BINDS, 2 reserves extents; 3 and 4 turn the logging of an extent's writes on and off for a remote
slice, and 5 tells that a page of a remote extent was written, 6 counts a set of an
alias window (R366), 7 and 8 are the barrier of a harvest, without and with RECALL (R454), and 9 asks whether a worker may leave (R313). The answer carries the return code. -/
def execHomeModuleRequest (tp kind ext count : Nat) (s : State) : Res :=
  evt ((s.tp tp).state == .active) (fun s =>
    let m := (s.tp tp).peerIdx
    let answer := fun (s : State) rc => s.emit (.homeReq m (0x100 + rc) ext count)
    match kind with
    | 0 => match (if s.leaving then some rcBusy else s.homeCheck (named ext count)) with
      | some rc => answer s rc
      | none => answer (s.homeBind (named ext count)).bindGen rcOk
    | 1 => answer ((named ext count).foldl (fun s e => s.unbind1 e) s).bindGen rcOk
    | 2 => match (if s.leaving then none else s.reserve count) with
      | some es => answer (s.markReserved es) rcOk
      | none => answer s rcNoRes
    | 3 => answer ((named ext count).foldl (fun s e => s.modExt e (fun x => { x with remoteLog := addOnce m x.remoteLog })) s) rcOk
    | 4 => answer ((named ext count).foldl (fun s e => s.modExt e (fun x => { x with remoteLog := dropOf m x.remoteLog })) s) rcOk
    | 5 => s.markPage m ext count
    | 6 =>
      let es := named ext count
      let okState := fun e => let x := (s.ext e).state; x == .bound || x == .suspect || x == .failed || x == .evacSrc
      if s.leaving then answer s rcBusy
      else if es.any (fun e => ! okState e) then answer s rcParam
      else if es.any (fun e => decide (1023 ≤ (s.ext e).binds)) then answer s rcNoRes
      else answer (es.foldl (fun s e => s.modExt e (fun x => { x with binds := x.binds + 1 })) s).bindGen rcOk
    | 7 => { s with mbx := { s.mbx with harvests := s.mbx.harvests ++ [({ frame := none, slice := 512, back := (m, ext, count), rcl := false, begun := false, sweep := none, bits := 0, remote := [] } : Harvest)] } }
    | 8 => { s with mbx := { s.mbx with harvests := s.mbx.harvests ++ [({ frame := none, slice := 512, back := (m, ext, count), rcl := true, begun := false, sweep := none, bits := 0, remote := [] } : Harvest)] } }
    | 9 => answer s (if s.leaveBlocked ext then rcBusy else rcOk)
    | _ => answer s rcUnsup) s

end Sys2Proof.Machine
end

