-- ==== Sys2Proof/Machine/Bring.lean ====
section
/-! DEFINITION. Bring-up of port groups, planned departures, and entry into READY and ACTIVE (chapters 4, 5 and 13). -/
namespace Sys2Proof.Machine

/-- REFCLKk has been in range for 100 microseconds and is not lost (R216). -/
def State.refReady (s : State) (k : Nat) : Bool := s.ports.refOk.contains k && ! s.ports.refLost.contains k

/-- The module drives PERST_N[g] low: an upstream group's only in a MODULE reset or a stop (R215). -/
def State.perstDown (s : State) (g : Nat) : Bool :=
  if roleOf (mapEntry s.ports.map g) = 1 then s.svc.perstAll else (s.group g).driven

/-- The lanes of a group leave DEEP for DETECT where the reference clock allows it (R216). -/
def State.leaveDeep (s : State) (g : Nat) : State :=
  if s.refReady (g / 2) then (s.groupPorts g).foldl (fun s p => s.modPort p (fun x => if x.lanes = .deep then { x with lanes := .detect } else x)) s else s

/-- A group enters service: Table 4.8 for a downstream group, R218 for an upstream group. An UNUSED
group has its PERST_N driven low (R215). -/
def State.startGroup (s : State) (g : Nat) : State :=
  match roleOf (mapEntry s.ports.map g) with
  | 2 =>
    let s1 := (s.modGroup g (fun x => { x with driven := true, bringUp := true })).emit (.pin (.perstN g) false)
    s1.leaveDeep g
  | 1 =>
    let s1 := s.modGroup g (fun x => { x with driven := false, bringUp := true })
    if (s.group g).hostLow then s1 else s1.leaveDeep g
  | _ => (s.modGroup g (fun x => { x with driven := true, bringUp := false })).emit (.pin (.perstN g) false)

/-- Every group enters service. -/
def State.startPorts (s : State) : State := (List.range 16).foldl (fun s g => s.startGroup g) s

/-- The module enters READY: MTIME starts, the port map of flash is applied, and the module releases the
PERST_N pins of upstream groups (R52, R215, R401). -/
def State.enterReady (s : State) : State :=
  let pt := { s.ports with map := s.ports.flash }
  let sv := { s.svc with ingressShut := false, perstAll := false, mr := .idle, pll0 := true, pll1 := true }
  let rel := s.svc.perstAll
  let s1 : State := { s with ports := pt, svc := sv, glob := { s.glob with pstate := .ready }, shape := { s.shape with mtime := 0, running := true } }
  (List.range 16).foldl (fun s g => if roleOf (mapEntry s.ports.map g) = 1 then (s.modGroup g (fun x => { x with driven := false })).emits (if rel then [.pin (.perstN g) true] else []) else s) s1

/-- The trunk port leaves OFF: its lanes leave TL3 and training starts (Table 6.12). -/
def State.tpStart (s : State) (t : Nat) : State :=
  if bit (s.tp t).ctl.toNat 31 ∧ ¬ (s.tp t).noRetrain ∧ (s.tp t).state = .off then s.modTp t (fun x => { x with state := .train, tx := .tl0, rx := .tl0 }) else s

/-- The module enters ACTIVE: groups are brought up and enabled trunk ports start (Table 13.9 step 7). -/
def State.enterActive (s : State) : State :=
  let s1 : State := { s with glob := { s.glob with pstate := .active }, hier := { s.hier with activeAt := some s.now } }
  (List.range 8).foldl (fun s t => s.tpStart t) s1.startPorts

/-- From READY the module moves on to the state it is heading to (R605). -/
def State.toGoal (s : State) : State :=
  match s.sill.goal with
  | .active => s.enterActive
  | _ => s

/-- A departed agent's records are cleared without poison (R250). -/
def State.forgetAgent (s : State) (a : Agent) : State :=
  let sectors := s.keeper.dir.flatMap (fun k => k.2.map (fun e => sectorFpa (k.1 / 28672) (k.1 % 28672) e.tag))
  sectors.foldl (fun s fpa => match s.dent fpa with
    | none => s
    | some e => s.putDent fpa (e.forget a false)) s

/-- A partner holds no binding, no passthrough binding and no extent outside FREE, ABSENT or SCRUB (R250). -/
def State.holdsNothing (s : State) (p : Nat) : Bool :=
  match s.partner p with
  | none => true
  | some x => match x.kind with
    | 1 | 2 => (s.entsOf x.index).isEmpty && ! s.pool.bridge.any (fun b => b.1 / 16 == x.index)
    | 3 => (s.extsOf p (fun st => st != .free && st != .scrub)).isEmpty
    | 5 => ! s.pool.bridge.any (fun b => b.2 % 64 == p)
    | _ => true

/-- A planned departure (R250): DEPART_PLANNED, capacity retired, the partner released at once. -/
def State.departPlanned (s : State) (p : Nat) : State :=
  match s.partner p with
  | none => s.linkDrop p
  | some x =>
    let s1 := (s.pevent 3 p 0 none).linkDrop p
    match x.kind with
    | 3 =>
      let es := s1.extsOf p (fun st => st == .free || st == .scrub)
      let s2 : State := match s1.pool.adding.find? (fun a => a.1 == p) with
        | some a =>
          let r : State := { s1 with pool := { s1.pool with adding := s1.pool.adding.filter (fun y => y.1 != p) } }
          if a.2.2 then r.endOp 5 4 none else r
        | none => s1
      (s2.retire p es).releasePartner p
    | 4 => (s1.forgetAgent (.dev x.index)).releasePartner p
    | _ => s1.releasePartner p

/-- A port's partner leaves by command: as planned where it holds nothing, else as a surprise (R250). -/
def State.departBy (s : State) (p : Nat) : State :=
  if (s.partner p).isSome ∧ ¬ s.holdsNothing p then s.departStart p 6 else s.departPlanned p

end Sys2Proof.Machine
end

