-- ==== Sys2Proof/Machine/Fw.lean ====
section
/-! DEFINITION. FW group and firmware banks (R499 to R501), and the start of the control cores after a reset. -/
namespace Sys2Proof.Machine

/-- A bank's record. -/
def State.bank (s : State) (n : Nat) : Bank := if n = 0 then s.fw.bank0 else s.fw.bank1

/-- Code of a bank's state in Table 10.17. -/
def BankState.code (b : BankState) : Nat :=
  match b with | .empty => 0 | .staging => 1 | .staged => 2 | .pending => 3 | .active => 4 | .invalid => 5

/-- A bank's record written; a change of state is journalled and notified (R491, R497). -/
def State.setBank (s : State) (n : Nat) (b : Bank) : State :=
  let s1 := if n = 0 then { s with fw := { s.fw with bank0 := b } } else { s with fw := { s.fw with bank1 := b } }
  if (s.bank n).state = b.state then s1
  else (s1.journal { type := 6, status := 0, code := n % 2 * 256 + b.state.code, opid := 0, position := 0, arg := b.version, time := 0 }).summary 6 0

/-- First flash address of a bank (Table 10.14). -/
def bankBase (n : Nat) : Nat := n * 0x1800000

/-- The bytes of a bank's image. -/
def State.bankCells (s : State) (n : Nat) : List Host.Cell :=
  s.fw.flash.filter (fun c => decide (bankBase n ≤ c.1) && decide (c.1 < bankBase n + (s.bank n).size))

/-- A byte of flash written; the erased byte is not listed. -/
def flashPut (l : List Host.Cell) (a : Nat) (b : Byte) : List Host.Cell := Tbl.set 0xFF l a b

/-- The bank images are staged into: the one that is not ACTIVE (R500). -/
def State.stagingBank (s : State) : Nat := if s.fw.bank0.state = .active then 1 else 0

/-- FW_INFO (R499): state, version, SVN of each bank, and the minimum SVN. -/
def execFwInfo (f : Frame) (s : State) : Res :=
  query 0xCF01 f (.fwInfo f) (fun _ => none)
    (fun s => [s.fw.bank0.state.code, s.fw.bank0.version, s.fw.bank0.svn, s.fw.bank1.state.code, s.fw.bank1.version, s.fw.bank1.svn, s.fw.minSvn]) s

/-- FW_TRANSFER (R500): offset 0 erases the bank and puts it in STAGING; other offsets follow in
sequence. While FW_VERIFY runs it is answered BUSY (log 14). -/
def execFwTransfer (f : Frame) (off : Nat) (data : List Byte) (s : State) : Res :=
  command 0xCF02 f (.fwTransfer f off data)
    (fun s =>
      let b := s.bank s.stagingBank
      checks [(s.opRunning 15, rcBusy),
        (data.isEmpty || decide (4032 < data.length) || decide (0x1800000 < off + data.length), rcParam),
        (off != 0 && (b.state != .staging || off != b.size), rcParam)])
    (fun s =>
      let n := s.stagingBank
      let base := bankBase n
      let old := if off = 0 then s.fw.flash.filter (fun c => ! (decide (base ≤ c.1) && decide (c.1 < base + 0x1800000))) else s.fw.flash
      let new := (data.zipIdx).foldl (fun l x => flashPut l (base + off + x.2) x.1) old
      (({ s with fw := { s.fw with flash := new } }).setBank n { state := .staging, size := off + data.length, version := 0, svn := 0 }, rcOk, [])) s

/-- FW_VERIFY (R500): the background verification of a bank in STAGING starts. -/
def execFwVerify (f : Frame) (s : State) : Res :=
  command 0xCF03 f (.fwVerify f)
    (fun s => checks [(s.opRunning 15, rcBusy), ((s.bank s.stagingBank).state != .staging, rcParam)])
    (fun s =>
      let x := s.startOp 15 0xCF03 (s.bank s.stagingBank).size
      (x.1, rcBg, [x.2])) s

/-- FW_VERIFY_DONE (R500): STAGED, or INVALID with SIGNATURE_INVALID or ROLLBACK_REFUSED. The outcome of the
hash and signature, and the image's SVN and version, are free values (log 6). -/
def execFwVerifyDone (s : State) : Res :=
  evt (s.opRunning 15) (fun s =>
    let n := s.stagingBank
    let b := s.bank n
    let img := s.bankCells n
    let svn := Config.imageSvn img
    let st := if Config.imageGood img then (if svn < s.fw.minSvn then 7 else 0) else 6
    let s1 := s.setBank n { b with state := if st = 0 then .staged else .invalid, svn := svn, version := Config.imageVersion img }
    (s1.posOp 15 b.size).endOp 15 st (some svn)) s

/-- A PENDING bank is verified again and becomes ACTIVE, or the previous bank runs on (R501). -/
def State.bootBank (s : State) : State :=
  let n := if s.fw.bank0.state = .pending then some 0 else if s.fw.bank1.state = .pending then some 1 else none
  match n with
  | none => s
  | some n =>
    let b := s.bank n
    let img := s.bankCells n
    if Config.imageGood img ∧ ¬ Config.imageSvn img < s.fw.minSvn then
      let o := s.bank (1 - n)
      let s1 := if o.state = .active then s.setBank (1 - n) { o with state := .staged } else s
      let s2 := s1.setBank n { b with state := .active }
      { s2 with fw := { s2.fw with minSvn := max s2.fw.minSvn (Config.imageSvn img) } }
    else s.setBank n { b with state := .invalid }

/-- A reset during STAGING makes the bank INVALID (R501). -/
def State.bankCut (s : State) : State :=
  let f := fun (s : State) n => if (s.bank n).state = .staging then s.setBank n { s.bank n with state := .invalid } else s
  f (f s 0) 1

/-- Running operations are ended by a MODULE or COLD reset: their OP_END waits for the cores (R498, R502). An
evacuation whose last record is an EVAC_INTENT ends IN_DOUBT (R503). -/
def State.opsCut (s : State) : State :=
  let one := fun (o : BgOp) =>
    match (s.mbx.journal.filter (fun r => r.opid == o.opid)).getLast? with
    | some r => if r.type = 2 then { o with running := false, status := 9, result := r.position % 65536 * 2 ^ 32 + o.result % 2 ^ 32 }
      else { o with running := false, status := 1 }
    | none => { o with running := false, status := 1 }
  { s with mbx := { s.mbx with ops := (s.mbx.ops.filter (fun x => x.2.running)).map (fun x => (x.1, one x.2)) } }

/-- The control cores start after a COLD or MODULE reset: the PENDING check, the RESET record, the records
of operations the reset ended, and the SMBus address of flash (R463, R497, R498, R501). -/
def State.coreBoot (s : State) (kind : Nat) : State :=
  let loc := mkLoc s.pk 15 15 15 255
  let s1 := s.journal { type := 5, status := 0, code := kind, opid := 0, position := 0, arg := loc.toNat, time := 0 }
  let s2 := s1.mbx.ops.foldl (fun (s : State) x =>
    (s.journal { type := 4, status := x.2.status, code := x.2.opcode, opid := x.2.opid, position := x.2.pos, arg := x.2.result, time := 0 }).summary 1 (2 ^ x.1)) s1
  let s3 : State := { s2 with mbx := { s2.mbx with ops := [], smbus := s2.mbx.smbusFlash }, svc := { s2.svc with coresRun := true, coldBoot := false } }
  s3.bootBank

end Sys2Proof.Machine
end

