-- ==== Sys2Proof/Machine/Resets.lean ====
section
/-! DEFINITION. MODULE and targeted resets (R51 to R62, Table 1.10, Table 1.11, Table 10.15), and the control cores. -/
namespace Sys2Proof.Machine

/-! ### MODULE reset -/

/-- M and O lines of the remote line caches and dirty lines of the atomic line caches are written back (Table 1.10 step 3, Table 13.6 step 4). -/
def State.writeBack (s : State) : State :=
  let s1 := (s.keeper.rlc.filter (fun c => c.dirty)).foldl (fun s c => s.rlcEvict c) s
  (s1.keeper.alc.filter (fun c => c.dirty)).foldl (fun s c =>
    let s2 := s.sideWr (c.line * 64) c.data false
    { s2 with keeper := { s2.keeper with alc := s2.keeper.alc.map (fun x => if x.line = c.line then { x with dirty := false } else x) } }) s1

/-- RETRIES of SILL_CTL. -/
def State.retries (s : State) : Nat := bits s.sill.ctl.maj.toNat 47 45

/-- A MODULE reset is triggered (R52, R54): during a brownout it waits for the write-back; during another
MODULE reset it changes nothing. `reload` marks the triggers that reload the retry count (R586). -/
def State.mrTrigger (s : State) (reload : Bool) : State :=
  if s.glob.pstate = .off then s
  else if s.glob.pstate = .brownout ∧ s.sill.brownStep < 5 then { s with sill := { s.sill with resetWaits := some (reload || s.sill.resetWaits.getD false) } }
  else if s.svc.mr ≠ .idle then s
  else
    let sl := s.sill
    let sl1 := { sl with resetWaits := none, goal := sl.start, retry := if reload then s.retries else sl.retry, state := if sl.state = .latched ∧ ¬ sl.stuck then .wait else sl.state }
    let wb := if s.glob.pstate = .stopped then s else s.writeBack
    { wb with sill := sl1, glob := { wb.glob with pstate := .moduleReset }, svc := { wb.svc with mr := .triggered s.now, ingressShut := true, resets := [] } }

/-- What a MODULE reset loses when the dies are reset, besides what they hold (Table 1.11). -/
def State.moduleCut (s : State) : State :=
  let s1 := (s.resetTrunks.opsCut.bankCut).diesReset true
  let m := { s1.mbx with sessions := [], lastSk := none, waiting := [], resumed := none, fwds := [], lastFwd := [], trunkFrame := none, harvests := [] }
  { s1 with mbx := m, glob := { s1.glob with lock := {}, voteLoc := 0, voteOff := 0, voteCnt := 0 } }

/-- MODULE_RESET_CORE_RESET (Table 1.10 step 4). After a trip of D6 the reset is held until sensor 14 has cooled (R643). -/
def execModuleResetCoreReset (s : State) : Res :=
  evt (match s.svc.mr with | .triggered _ => true | _ => false) (fun s =>
    let s1 := s.moduleCut
    { s1 with svc := { s1.svc with mr := .held, thermHold := if s.therm.tripped.contains 6 then [6] else [] }, therm := { s1.therm with tripped := s1.therm.tripped.filter (fun d => d == 6) } }) s

/-- ALIVE runs again, at the frequency last set (R566, R571). -/
def State.aliveOn (s : State) : State :=
  let f := s.faults
  let s1 : State := { s with faults := { f with alive := true, stopCause := 0, aliveHz := f.aliveNext.getD f.aliveHz, aliveNext := none } }
  if f.alive then s1 else s1.emit (.pin .alive true)

/-- What release does: the cores restart, ALIVE resumes, reaction state is gone (Table 1.10 step 5). -/
def State.mrRelease (s : State) : State :=
  let s1 := s.aliveOn
  let s2 : State := { s1 with faults := { s1.faults with windows := [], acts := [], c5 := false, deaf := [] }, therm := { s1.therm with bad := [] } }
  s2.coreBoot 2

/-- MODULE_RESET_RELEASE (R52): RST_N high and no hold of R643. With Sill ON and a START_STATE beyond STANDBY the
converters run and READY follows; else the module is in STANDBY. -/
def execModuleResetRelease (s : State) : Res :=
  evt (s.svc.mr == .held && s.svc.rstN && s.svc.thermHold.isEmpty) (fun s =>
    let s1 := s.mrRelease
    if s1.sill.state = .on ∧ s1.sill.goal ≠ .standby then { s1 with svc := { s1.svc with mr := .released }, sill := { s1.sill with pol := true } }
    else { s1 with svc := { s1.svc with mr := .idle }, sill := { s1.sill with pol := false }, glob := { s1.glob with pstate := .standby } }) s

/-- MODULE_RESET_READY (Table 1.10 step 6, R605): READY, then START_STATE. -/
def execModuleResetReady (s : State) : Res :=
  evt (s.svc.mr == .released) (fun s => s.enterReady.toGoal) s

/-- MODULE_RESET: the response is sent, then the reset starts (R52, Table 10.16). -/
def execModuleReset (f : Frame) (s : State) : Res :=
  command 0xC110 f (.moduleReset f) (fun _ => none)
    (fun s => ((s.reply f 0xC110 rcOk []).mrTrigger true, rcLater, [])) s

/-- FW_ACTIVATE (R500): STAGED becomes PENDING; with RESET_NOW a MODULE reset follows the response. -/
def execFwActivate (f : Frame) (resetNow : Bool) (s : State) : Res :=
  command 0xCF04 f (.fwActivate f resetNow)
    (fun s => if s.fw.bank0.state = .staged ∨ s.fw.bank1.state = .staged then none else some rcParam)
    (fun s =>
      let n := if s.fw.bank0.state = .staged then 0 else 1
      let s1 := s.setBank n { s.bank n with state := .pending }
      if resetNow then ((s1.reply f 0xCF04 rcOk []).mrTrigger false, rcLater, []) else (s1, rcOk, [])) s

/-- RST_N_LOW (R52): RST_N held low for 1 microsecond. -/
def execRstNLow (s : State) : Res :=
  .next (({ s with svc := { s.svc with rstN := false } } : State).mrTrigger true).settle

/-- RST_N_RELEASE (R52, Table 14.13): a start-up that RST_N stopped before its step 4 goes on. -/
def execRstNRelease (s : State) : Res :=
  let goes := s.glob.pstate == .standby && s.svc.mr == .idle && s.sill.state == .on && s.sill.selfTest && s.sill.goal != .standby
  .next { s with svc := { s.svc with rstN := true }, sill := { s.sill with pol := s.sill.pol || goes } }

/-- CORE_WAKE (R39): the cores run from the halted state, for what waits. -/
def execCoreWake (s : State) : Res :=
  evt (s.glob.pstate != .off) (fun s => { s with svc := { s.svc with coresRun := true, wake := false } }) s

/-- CORE_HALT (R39): no command, background operation or pending event remains. -/
def execCoreHalt (s : State) : Res :=
  evt (s.svc.coresRun && ! s.svc.wake && s.mbx.waiting.isEmpty && ! s.mbx.ops.any (fun o => o.2.running) && s.mbx.fwds.isEmpty && s.mbx.harvests.isEmpty
      && s.pool.homeReqs.isEmpty && s.faults.acts.isEmpty && s.pending.isEmpty)
    (fun s => { s with svc := { s.svc with coresRun := false } }) s

/-- CORE_WDOG (R562): the cores have not run within 100 ms of a wake event. -/
def execCoreWdog (s : State) : Res :=
  evt (s.svc.wake && ! s.svc.coresRun && s.glob.pstate != .off && s.glob.pstate != .stopped) (fun s => s.fault 0x0408 (s.dieLoc 6) 0xFF) s

/-- CORE_PLL_LOCK (R40): a switch die whose converters run has its core PLL locked. -/
def execCorePllLock (die : Nat) (s : State) : Res :=
  evt (s.sill.pol && decide (die ≤ 1)) (fun s => { s with svc := { s.svc with pll0 := s.svc.pll0 || die == 0, pll1 := s.svc.pll1 || die == 1 } }) s

/-! ### Targeted resets -/

/-- Type of Table 1.9 for a location: 3 DIE, 4 REGION, 5 CLUSTER, 6 UNIT. -/
def resetKind (l : Loc) : Nat := l.level + 1

/-- Two reset scopes overlap (R60): one covers the other, or a DIE reset of a stack shares quadrants with it. -/
def scopesMeet (a b : Loc) : Bool :=
  a.covers b || b.covers a || ((a.level == 2 || b.level == 2) && (locQuads a).any (fun k => (locQuads b).contains k))

/-- Sensors of a die (Table 14.11). -/
def dieSensors (d : Nat) : List Nat :=
  match d with | 0 => [0, 1, 2, 3, 4] | 1 => [5, 6, 7, 8, 9] | 6 => [14] | d => [d + 8]

/-- A reading in quarters of a degree: a 16-bit two's complement number, of which 0x8000 is no reading (R638; log 86). -/
def tempOf (r : Nat) : Int := if r < 0x8000 then (r : Int) else (r : Int) - 65536

/-- A reading above 110 degrees. -/
def State.hot (s : State) (n : Nat) : Bool := decide (440 < tempOf (Tbl.get 0x8000 s.therm.reading n))

/-- A FLIP that has not committed ends ABORTED with its window unchanged (Table 10.15). -/
def State.flipAbort (s : State) : State :=
  s.dma.win.foldl (fun s w => match w.2.flip, w.2.step with
    | some fl, some st =>
      if st < 3 then
        let s1 := match (s.chan fl.1).begun.find? (fun b => b.ring == fl.2.1 && b.idx == fl.2.2.1) with
          | some b => (s.descDone b.ring b.idx (dTag b.desc) 0xA (s.resultOf b) (dIrq b.desc)).modCh fl.1 (fun c => { c with begun := c.begun.erase b })
          | none => s
        s1.modWin w.1 (fun x => { x with flip := none, step := none, sweep := none })
      else s
    | _, _ => s) s

/-- A DIE reset before the switch refuses the ward commit under way, and those accepted after it (Table 10.15, R439). -/
def State.wardRefuse (s : State) : State :=
  if s.ward.accepted = [] then s
  else { s with ward := { s.ward with accepted := [], checked := false } }.wardEvent 22 0 0

/-- A commanded reset takes its elements out of service (R55 to R59, Table 10.15). -/
def State.resetBegin (s : State) (l : Loc) : State :=
  let ks := (locSlices l).filter (fun x => ! s.svc.stoppedSlices.contains x)
  let rec0 : ResetRec := { kind := resetKind l, loc := l, reaction := false, draining := ks }
  let s1 : State := { s with svc := { s.svc with resets := s.svc.resets ++ [rec0] } }
  -- slices: every holding is recalled, requests wait (R55)
  let s2 := ks.foldl (fun s k => (s.sweepStart 3 k (fun fpa => sliceHash fpa == k) (fun _ => true) false false).1) s1
  let s3 := if ks ≠ [] ∨ (s.locPorts l).any s.isUp then s2.flipAbort else s2
  -- channels (R57), and an evacuation that uses one of them (Table 10.15)
  let cs := locChans l
  let s4 := match s3.pool.evac with
    | some v => if cs.contains v.ch then s3.evacEnd 1 false else s3
    | none => s3
  let s5 := cs.foldl (fun s c => (s.chanAbort c).modCh c (fun x => { x with out := true })) s4
  -- ports (R59), arbiters
  let ps := s5.locPorts l
  let s6 : State := if l.clu = 7 then s5.arbReset (8 * l.k + l.unit)
    else ps.foldl (fun s p => let s' := s.portDrops p 1; if l.level ≤ 3 ∧ s'.isDown p then s'.arbReset p else s') s5
  -- trunk ports (R58)
  let s7 : State := (locTrunks l).foldl (fun s t => if 4 ≤ l.level then s.tpHold t (s.tp t).cause
    else if (s.tp t).state = .off then s else s.tpPeerLost t 11) s6
  -- queue memory (R58), and the die-level points that used it (R136)
  let s7 : State := if l.level ≤ 3 then ((locQuads l).foldl (fun s k => s.queuesLost k) s7).enginesCheck else s7
  -- the stacks that hold the tables (R46)
  let s8 : State := if l.level = 2 ∧ (l.die = 2 ∨ l.die = 4) then
      let other := if l.die = 2 then 4 else 2
      if s7.svc.stoppedDies.contains other ∨ s7.svc.soleCopy = some l.die then s7.fault 0x0503 (mkLoc s7.pk 15 15 15 255) 0xFF
      else { s7 with svc := { s7.svc with soleCopy := some other } }
    else s7
  if l.level = 2 ∧ l.die ≤ 1 then s8.wardRefuse else s8

/-- RESET_TARGET (R19, R33, R35, R60, R643). -/
def execResetTarget (f : Frame) (loc : Loc) (s : State) : Res :=
  command 0xC111 f (.resetTarget f loc)
    (fun s => (s.locCheck loc (2 ≤ loc.level && loc.die != 6 && ! (loc.clu == 7 && loc.level == 4))).orElse (fun _ =>
      checks [(s.svc.mr != .idle, rcBusy), (s.svc.resets.any (fun r => scopesMeet r.loc loc), rcBusy),
        (loc.level == 2 && s.therm.tripped.contains loc.die && (dieSensors loc.die).any s.hot, rcBusy)]))
    (fun s => (s.resetBegin loc.clean, rcOk, [])) s

/-- RESET_STATUS (R486): resets in progress, then the last finished, as type and location. -/
def execResetStatus (f : Frame) (s : State) : Res :=
  query 0xC112 f (.resetStatus f) (fun _ => none)
    (fun s => s.svc.resets.length :: s.svc.resets.flatMap (fun r => [r.kind, r.loc.toNat])
      ++ s.svc.finished.flatMap (fun r => [r.1, r.2.toNat])) s

/-- A slice that drains has no open transaction, no unanswered snoop and no sweep under way (R55). -/
def State.drained (s : State) (ks : Nat) : Bool :=
  ! s.keeper.txns.any (fun t => sliceHash (t.line * 64) == ks) && ! s.keeper.waits.any (fun w => sliceHash (w.line * 64) == ks)

/-- SLICE_DRAIN_DONE (R55): the caches write back and the slice is reset. -/
def execSliceDrainDone (ks : Nat) (s : State) : Res :=
  evt (s.svc.resets.any (fun r => r.draining.contains ks) && s.drained ks) (fun s =>
    let inKs := fun line => sliceHash (line * 64) == ks
    let s1 := (s.keeper.alc.filter (fun c => inKs c.line)).foldl (fun s c => s.alcFlush c.line) s
    let s2 := (s1.keeper.rlc.filter (fun c => inKs c.line)).foldl (fun s c => if c.dirty then (s.rlcDrop c.line).wbHome c.line false c.data false else s.rlcDrop c.line) s1
    let k := s2.keeper
    let k1 : Keeper := { k with dir := Tbl.keep (fun d _ => decide (d / 28672 ≠ ks)) k.dir, victims := k.victims.filter (fun v => v.1 != ks), sweeps := k.sweeps.filter (fun w => ! (w.why == 3 && w.arg == ks)) }
    let rs := s2.svc.resets.map (fun r => { r with draining := r.draining.filter (fun x => x != ks) })
    { s2 with keeper := k1, svc := { s2.svc with resets := rs } }) s

/-- Counters of a quadrant cleared (Table 1.11, R538). -/
def clearQuads (ks : List Nat) (t : Tbl Cnt) : Tbl Cnt := Tbl.keep (fun i _ => decide (512 ≤ i) || ! ks.contains (i / 64)) t

/-- A bucket's tokens as TOKEN_INIT selects them (R387). -/
def Bucket.init (b : Bucket) : Bucket :=
  { b with tok := if bit b.cfg.toNat 62 then ((bits b.cfg.toNat 26 0 * 12800 : Nat) : Int) else 0 }

/-- Gated points of quadrants: their ports and trunk port. -/
def quadPoint (ks : List Nat) (p : Nat) : Bool := if p < 64 then ks.contains (p / 8) else ks.contains (p - 64)

/-- Buckets held on a die (R410): the aggregate buckets of its points, and those of the slices whose host's upstream port lies
on it (R384). -/
def State.bucketsInit (s : State) (ks : List Nat) : State :=
  let mine := fun (i : Nat) => ((s.slice (i / 16)).bind (fun x => s.hostPort x.host)).any (fun p => ks.contains (p / 8))
  let f := fun (i : Nat) (b : Bucket) => if mine i then b.init else b
  { s with shape := { s.shape with bkt := Tbl.mapv {} f s.shape.bkt, agg := Tbl.mapv {} (fun p b => if quadPoint ks p then b.init else b) s.shape.agg } }

/-- Selected transactions of samplers whose point lies in a reset element are lost samples (R538). -/
def State.smpDrop (s : State) (l : Loc) : State :=
  let inside := fun (p : Nat) => if p < 0x40 then (s.locPorts l).contains p else if p < 0x60 then (locSlices l).contains (p - 0x40) else (locChans l).any (fun c => c / 8 == p - 0x60)
  { s with perf := { s.perf with smp := Tbl.mapv {} (fun _ x => if inside x.point ∧ ¬ x.sel.isEmpty then { x with sel := [], lost := min (x.lost + x.sel.length) (2 ^ 30 - 1), lostSince := min (x.lostSince + x.sel.length) 32767 } else x) s.perf.smp } }

/-- The elements of a finished reset return to service (R36, R37, R62). -/
def State.resetFinish (s : State) (kind : Nat) (l : Loc) : State :=
  let qs := locQuads l
  let sv := s.svc
  let gone := fun (i : Loc) => l.covers i || (l.level == 2 && decide (i.level ≥ 3) && qs.contains i.k)
  let sv1 := { sv with isolated := sv.isolated.filter (fun i => ! gone i), stoppedDies := if kind = 3 then dropOf l.die sv.stoppedDies else sv.stoppedDies, gatedQuads := if kind ≤ 4 then sv.gatedQuads.filter (fun k => ! qs.contains k) else sv.gatedQuads, soleCopy := if kind = 3 ∧ (l.die = 2 ∨ l.die = 4) ∧ sv.soleCopy ≠ some l.die then none else sv.soleCopy }
  let fs := { s.faults with windows := s.faults.windows.filter (fun w => ! l.covers w.elem), deaf := s.faults.deaf.filter (fun n => ! gone n) }
  let s1 := ({ s with svc := sv1, faults := fs } : State).smpDrop l
  let live := fun (s : State) k => ! s.svc.gatedQuads.contains k && ! s.svc.stoppedDies.any (fun d => (dieQuads d).contains k)
  let s2 := (locChans l).foldl (fun s c => if live s (c / 8) then s.modCh c (fun x => { x with out := false }) else s) s1
  let s3 := (locTrunks l).foldl (fun s t => if live s t ∧ s.glob.pstate = .active then (s.modTp t (fun x => { x with noRetrain := false })).tpStart t else s) s2
  let s4 := (s3.locPorts l).foldl (fun s p =>
    let s' := if s.isDown p ∧ (l.clu = 7 ∨ l.level ≤ 3) then s.arbResetDone p else s
    if live s' (p / 8) ∧ s'.glob.pstate = .active ∧ (s'.port p).lanes = .deep then s'.startGroup (grpOf p) else s') s3
  let s5 := if kind ≤ 4 then
      let pf := { s4.perf with cnt := clearQuads qs s4.perf.cnt }
      let shut := (List.range 72).filter (fun p => quadPoint qs p && (s4.gate p).now.ctl != (({} : GateSet).ctl))
      shut.foldl (fun s p => s.modGate p (fun g => { g with shut := true })) { s4 with perf := pf }
    else s4
  if kind = 3 then
    let s6 := if l.die ≤ 1 then s5.bucketsInit qs else s5
    let x := s6.xbar
    let n := if l.die = 0 then Tbl.keep (fun i _ => decide (i < 512)) s6.perf.cnt else s6.perf.cnt
    let x1 := if l.die ≤ 1 then { x with up := 0xF, scrubOff := dropOf l.die x.scrubOff } else x
    { s6 with xbar := x1, perf := { s6.perf with cnt := n }, therm := { s6.therm with tripped := dropOf l.die s6.therm.tripped } }
  else s5

/-- RESET_DONE (R51, R491, R497). -/
def execResetDone (loc : Loc) (s : State) : Res :=
  evt (s.svc.resets.any (fun r => r.loc == loc && r.draining.isEmpty)) (fun s =>
    match s.svc.resets.find? (fun r => r.loc == loc) with
    | none => s
    | some r =>
      let fin := s.svc.finished ++ [(r.kind, loc)]
      let s1 : State := { s with svc := { s.svc with resets := s.svc.resets.erase r, finished := fin.drop (fin.length - 16) } }
      let s2 := s1.resetFinish r.kind loc
      (s2.journal { type := 5, status := 0, code := r.kind, opid := 0, position := 0, arg := loc.toNat, time := 0 }).summary 5 0) s

end Sys2Proof.Machine
end

