-- ==== Sys2Proof/Machine/PortCmd.lean ====
section
/-! DEFINITION. PORT group: the port map, port settings, equalisation, PORT reset, block registers (chapters 3, 4 and 6). -/
namespace Sys2Proof.Machine

/-! ### The port map (R178 to R188) -/

/-- Fields of a map entry; [20:12] are reserved (Table 4.2, R13). -/
def mapMask : Reg32 := 0xFFE00FFF

/-- The layout of a group obeys Table 4.1. -/
def layoutOk (e : Nat) : Bool :=
  let half := fun (a b : Nat) => (a == 3 && b == 7) || (decide (a ≤ 2) && decide (b ≤ 2))
  (subOf e 0 == 4 && subOf e 1 == 7 && subOf e 2 == 7 && subOf e 3 == 7)
  || (half (subOf e 0) (subOf e 1) && half (subOf e 2) (subOf e 3))

/-- A map entry holds no reserved code and only what its role allows (R180, R183). -/
def entryOk (e : Nat) : Bool :=
  layoutOk e && roleOf e != 3 && bits e 29 28 != 3 && bits e 23 22 != 3
  && (roleOf e == 1 || bits e 27 24 == 0) && (roleOf e != 0 || bits e 11 0 == 0)

/-- Ports a map configures with a role. -/
def portsWith (m : Tbl Reg32) (role : Nat) : Nat :=
  ((List.range 64).filter (fun p => cfgWidth m p != 0 && roleOf (mapEntry m (grpOf p)) == role)).length

/-- The groups whose entry marks an upstream port PRIMARY, and the ports marked. -/
def primaries (m : Tbl Reg32) : List Nat :=
  (List.range 16).filterMap (fun g =>
    let e := mapEntry m g
    if roleOf e = 1 ∧ bit e 26 then some (4 * g + bits e 25 24) else none)

/-- A port map is valid on a module (R180); a PRIMARY entry names a port on every module (log 97). -/
def mapOk (isMA : Bool) (m : Tbl Reg32) : Bool :=
  (List.range 16).all (fun g => entryOk (mapEntry m g)) && decide (portsWith m 1 ≤ 48) && decide (portsWith m 2 ≤ 48)
  && (primaries m).all (fun p => cfgWidth m p != 0) && (! isMA || (primaries m).length == 1)

/-- A map from the sixteen entries of a command. -/
def mapOf (l : List Reg32) : Tbl Reg32 :=
  ((List.range 16).zip l).foldl (fun t e => Tbl.set (0 : Reg32) t e.1 (e.2 &&& mapMask)) []

/-- Groups whose entry differs between two maps. -/
def mapDiff (a b : Tbl Reg32) : List Nat := (List.range 16).filter (fun g => mapEntry a g != mapEntry b g)

/-- A port is training, linked up, bound, or within its departure timer (R187). -/
def State.portBusy (s : State) (p : Nat) : Bool :=
  (s.port p).lanes == .training || (s.port p).up || (s.partner p).isSome

/-- A port as it starts in a changed group (R188): default settings, counters and gate sets cleared. -/
def State.portFresh (s : State) (p : Nat) : State :=
  let pt := { s.ports with port := Tbl.del s.ports.port p }
  let pf := { s.perf with cnt := Tbl.keep (fun k _ => decide (k / 8 ≠ p) || decide (512 ≤ k)) s.perf.cnt, sel := Tbl.keep (fun k _ => decide (k / 8 ≠ p) || decide (512 ≤ k)) s.perf.sel }
  { s with ports := pt, perf := pf, pool := { s.pool with pset := Tbl.del s.pool.pset p }, shape := { s.shape with gate := Tbl.del s.shape.gate p }, arb := Tbl.del s.arb p }

/-- A new map stored in flash and applied to the groups it changes (R188). -/
def State.mapCommit (s : State) (m : Tbl Reg32) : State :=
  let gs := mapDiff s.ports.map m
  let s1 : State := { s with ports := { s.ports with map := m, flash := m } }
  let s2 := gs.foldl (fun s g => ((List.range 4).map (4 * g + ·)).foldl (fun s p => s.portFresh p) s) s1
  gs.foldl (fun s g =>
    if s.glob.pstate = .active then s.startGroup g
    else s.modGroup g (fun x => { x with driven := roleOf (mapEntry m g) != 1, bringUp := false })) s2

/-- PORT_MAP_GET (R189): the committed map, then the map in flash. -/
def execPortMapGet (f : Frame) (s : State) : Res :=
  query 0xC200 f (.portMapGet f) (fun _ => none)
    (fun s => (List.range 16).map (mapEntry s.ports.map) ++ (List.range 16).map (mapEntry s.ports.flash)) s

/-- PORT_MAP_COMMIT (R180, R187, R188, R490). -/
def execPortMapCommit (f : Frame) (map : List Reg32) (s : State) : Res :=
  command 0xC201 f (.portMapCommit f map)
    (fun s =>
      let m := mapOf map
      let gs := mapDiff s.ports.map m
      checks
        [(map.length != 16 || ! mapOk s.glob.isMA m, rcParam),
         (s.locked 3 && gs.any (fun g => bits (mapEntry m g) 29 28 != bits (mapEntry s.ports.map g) 29 28 || bits (mapEntry m g) 23 22 != bits (mapEntry s.ports.map g) 23 22), rcLocked),
         (gs.any (fun g => ((List.range 4).map (4 * g + ·)).any s.portBusy), rcBusy)])
    (fun s => (s.mapCommit (mapOf map), rcOk, [])) s

/-! ### Ports -/

/-- A command names a configured port. -/
def State.portCheck (s : State) (p : Nat) : Option Nat :=
  checks [(decide (63 < p), rcParam), (! s.isPort p, rcNotFound)]

/-- The port is the source or the destination of the running evacuation (R474). -/
def State.evacPort (s : State) (p : Nat) : Bool :=
  match s.pool.evac with | some v => v.port == p || (s.ext v.f).port == p | none => false

/-- PORT_ENABLE (R189). -/
def execPortEnable (f : Frame) (port : Nat) (s : State) : Res :=
  command 0xC202 f (.portEnable f port) (fun s => s.portCheck port)
    (fun s => (s.modPort port (fun x => { x with enabled := true }), rcOk, [])) s

/-- A port held in DETECT: its partner leaves (R250), a newcomer behind a timer leaves again. -/
def State.portDisable (s : State) (p : Nat) : State :=
  let s1 := match s.partner p with
    | some x => if x.timerEnd.isSome then { s.linkDrop p with pool := { s.pool with newcomer := Tbl.del s.pool.newcomer p } } else s.departBy p
    | none => s.linkDrop p
  s1.modPort p (fun x => { x with enabled := false })

/-- PORT_DISABLE (R189, R250, R474). -/
def execPortDisable (f : Frame) (port : Nat) (s : State) : Res :=
  command 0xC203 f (.portDisable f port)
    (fun s => (s.portCheck port).orElse (fun _ => checks [(s.evacPort port, rcBusy)]))
    (fun s => (s.portDisable port, rcOk, [])) s

/-- Code of a lane state (Table 4.7): 0 DEEP, 1 DETECT, 2 training, 3 L0, 4 L0 with idle lanes, 5 L1. -/
def LState.code (x : LState) : Nat :=
  match x with | .deep => 0 | .detect => 1 | .training => 2 | .l0 => 3 | .l0p => 4 | .l1 => 5

/-- Flit mode of a link: 0 non-flit, 1 68-byte flits of CXL 2.0, 2 256-byte flits of CXL 3.x and of PCIe at 64 GT/s (Table 4.4). -/
def Port.flitMode (x : Port) : Nat :=
  match x.pid with
  | some i => if i.cxl = 3 then 2 else if i.cxl = 2 then 1 else if x.rate = 6 then 2 else 0
  | none => 0

/-- PORT_STATUS (R189): width, rate, partner kind, IDE state, power state, link errors. -/
def execPortStatus (f : Frame) (port : Nat) (s : State) : Res :=
  query 0xC204 f (.portStatus f port) (fun s => s.portCheck port)
    (fun s =>
      let x := s.port port
      [port, x.width, x.rate, x.flitMode, ((s.partner port).map (fun y => y.kind)).getD 0, b2n x.ide,
       x.lanes.code, b2n x.enabled, b2n x.fenced, x.linkErrs]) s

/-- The state with the settings of PORT_SET written. -/
def State.portSet (s : State) (p : Nat) (dsCpl dsFail usCpl : Option Nat) (aspm l0p contain : Option Bool) : State :=
  s.modPort p (fun x => { x with dsCpl := dsCpl.getD x.dsCpl, dsFail := dsFail.getD x.dsFail, usCpl := usCpl.getD x.usCpl, aspm := aspm.getD x.aspm, l0p := l0p.getD x.l0p, contain := contain.getD x.contain })

/-- PORT_SET: the ranges of Table 4.5 on a port of their kind, and the orders of R201, R303 and R397. -/
def execPortSet (f : Frame) (port : Nat) (dsCpl dsFail usCpl : Option Nat) (aspm l0p contain : Option Bool) (s : State) : Res :=
  command 0xC205 f (.portSet f port dsCpl dsFail usCpl aspm l0p contain)
    (fun s => (s.portCheck port).orElse (fun _ =>
      let t := s.portSet port dsCpl dsFail usCpl aspm l0p contain
      checks
      [(dsCpl.any (fun v => decide (v < 50) || decide (64000 < v)), rcParam),
       (dsFail.any (fun v => v == 0 || decide (255 < v)), rcParam),
       (usCpl.any (fun v => decide (v < 1000) || decide (256000 < v)), rcParam),
       ((dsCpl.isSome || dsFail.isSome) && ! s.isDown port, rcParam),
       (usCpl.isSome && ! s.isUp port, rcParam),
       (! t.timeoutsOk || ! t.gatesOk, rcParam)]))
    (fun s => (s.portSet port dsCpl dsFail usCpl aspm l0p contain, rcOk, [])) s

/-! ### Equalisation (R204 to R206, Table 6.1) -/

/-- LANE_EQ_CTL after a write: PEAK above 32 is 32, a TX_PRESET above 10 leaves the field (Table 4.6). -/
def eqWrite (old v : Reg32) : Reg32 :=
  let peak := min 32 (bits v.toNat 29 24)
  let pre := if bits v.toNat 23 20 ≤ 10 then bits v.toNat 23 20 else bits old.toNat 23 20
  BitVec.ofNat 32 (bits v.toNat 31 30 * 2 ^ 30 + peak * 2 ^ 24 + pre * 2 ^ 20 + bits v.toNat 19 18 * 2 ^ 18)

/-- TLANE_EQ_CTL after a write: PEAK above 36 is 36 (Table 6.1). -/
def teqWrite (v : Reg32) : Reg32 :=
  BitVec.ofNat 32 (bits v.toNat 31 30 * 2 ^ 30 + min 36 (bits v.toNat 29 24) * 2 ^ 24 + bits v.toNat 23 8 * 2 ^ 8)

/-- The CXL lanes a location names: one lane, or every lane of the port that has it. -/
def State.eqLanes (s : State) (l : Loc) (whole : Bool) : List Nat :=
  if whole then match (List.range 64).find? (fun p => s.portHasLane p l.lane) with
    | some p => (List.range (cfgWidth s.ports.map p)).map (4 * p + ·)
    | none => []
  else [l.lane]

/-- A location names a CXL lane or a trunk lane. -/
def laneShape (l : Loc) : Bool := l.level == 5 && (decide (l.clu ≤ 3) || l.clu == 6)

/-- A write of an equalisation control register (R205: it applies at the next equalisation). -/
def State.eqSet (s : State) (l : Loc) (whole : Bool) (v : Reg32) : State :=
  if l.clu = 6 then
    let us := if whole then [0, 1, 2, 3] else [l.unit]
    us.foldl (fun s u => { s with ports := { s.ports with teqCtl := Tbl.set (0x14000000 : Reg32) s.ports.teqCtl (4 * l.k + u) (teqWrite v) } }) s
  else (s.eqLanes l whole).foldl (fun s n =>
    { s with ports := { s.ports with eqCtl := Tbl.set (0x10000000 : Reg32) s.ports.eqCtl n (eqWrite (Tbl.get (0x10000000 : Reg32) s.ports.eqCtl n) v) } }) s

/-- PORT_EQ_SET (R204, R205). -/
def execPortEqSet (f : Frame) (loc : Loc) (wholePort : Bool) (val : Reg32) (s : State) : Res :=
  command 0xC206 f (.portEqSet f loc wholePort val)
    (fun s => (s.locCheck loc (laneShape loc)).orElse (fun _ => checks [(loc.clu != 6 && s.eqLanes loc wholePort == [], rcParam)]))
    (fun s => (s.eqSet loc wholePort val, rcOk, [])) s

/-- PORT_EQ_STATUS (R204). -/
def execPortEqStatus (f : Frame) (loc : Loc) (s : State) : Res :=
  query 0xC207 f (.portEqStatus f loc) (fun s => s.locCheck loc (laneShape loc))
    (fun s => [if loc.clu = 6 then (Tbl.get (0 : Reg32) s.ports.teqStat (4 * loc.k + loc.unit)).toNat else (Tbl.get (0 : Reg32) s.ports.eqStat loc.lane).toNat]) s

/-! ### PORT reset (R51) -/

/-- A PORT reset: the link drops and trains again. A host or device departs with its identity to be
confirmed (R59, Table 1.11); an expander stays bound, an extent being copied starts over, and its open
accesses fail (Table 10.15). -/
def State.portReset (s : State) (p : Nat) : State :=
  match s.partner p with
  | some x =>
    if x.kind = 3 ∧ x.timerEnd.isNone then ((s.linkDrop p).failMem p).evacRestart p
    else s.departStart p 1
  | none => s.linkDrop p

/-- PORT_RESET (R60, R497). -/
def execPortReset (f : Frame) (port : Nat) (s : State) : Res :=
  command 0xC208 f (.portReset f port)
    (fun s => (s.portCheck port).orElse (fun _ => checks [(s.svc.mr != .idle || s.svc.resets.any (fun r => (s.locPorts r.loc).contains port && decide (2 ≤ r.loc.level)), rcBusy)]))
    (fun s =>
      let j : JRec := { type := 5, status := 0, code := 7, opid := 0, position := 0, arg := (s.portLoc port).toNat, time := 0 }
      ((s.journal j).portReset port, rcOk, [])) s

/-! ### Block registers (Tables 3.11, 3.12, 6.18). Their numbers are the model's own (log 18). -/

/-- Requests parked in an arbiter. -/
def Arb.status (a : Arb) : Nat :=
  a.state * 2 ^ 29 + b2n (bit a.ctl.toNat 31 && a.grant.isNone && a.handed.isEmpty) * 2 ^ 28
    + (match a.grant with | some g => g.req | none => 63) * 2 ^ 22 + min 3328 a.pend.length * 2 ^ 10

/-- STATE of TRUNK_STATUS (Table 6.11). -/
def TState.code (x : TState) : Nat :=
  match x with | .off => 0 | .train => 1 | .align => 2 | .init => 3 | .auth => 4 | .active => 5 | .hold => 6 | .authFail => 7

/-- TRUNK_STATUS. -/
def Trunk.status (t : Trunk) : Nat := t.state.code * 2 ^ 28 + t.peerIdx % 16 * 2 ^ 24 + t.lock.toNat * 2 ^ 20 + t.cause % 16 * 2 ^ 16

/-- Value of a block register at a location; none where the location has no such register. -/
def State.blockRead (s : State) (l : Loc) (reg : Nat) : Option Nat :=
  if l.clu = 7 ∧ l.level = 5 then
    let a := s.arbOf (8 * l.k + l.unit)
    match reg with
    | 0 => some a.ctl.toNat | 1 => some a.status | 2 => some a.masked.toNat | 3 => some a.event.read.toNat | _ => none
  else if l.clu = 6 ∧ l.level = 4 then
    let t := s.tp l.k
    match reg with
    | 0 => some t.ctl.toNat | 1 => some t.errCtl.toNat | 2 => some t.status | 3 => some t.peerSer | 4 => some t.event.read.toNat | _ => none
  else if l.level = 2 ∧ l.die ≤ 1 then
    match reg with
    | 0 => some (if l.die = 0 then s.xbar.blkMin0 else s.xbar.blkMin1)
    | 1 => some (s.xbar.gated.toNat * 16 + s.xbar.up.toNat)
    | 2 => some s.xbar.spillCtl.toNat
    | _ => none
  else none

/-- ARB_CTL after a write: MISBEHAVE_MODE 0 keeps the old one, MAX_HOLD is at least 64 (Table 3.11). -/
def arbCtlWrite (old : Reg32) (v : Nat) : Reg32 :=
  let mode := if bits v 30 29 = 0 then bits old.toNat 30 29 else bits v 30 29
  BitVec.ofNat 32 (bits v 31 31 * 2 ^ 31 + mode * 2 ^ 29 + bits v 15 12 * 2 ^ 12 + max 64 (bits v 11 0))

/-- The arbiter's state after FREEZE or another part of ARB_CTL is written (Table 3.10); FREEZE cleared while FREEZING gives
GRANTED (log 96). -/
def Arb.refreeze (a : Arb) : Arb :=
  if a.state = 4 then a
  else if bit a.ctl.toNat 31 then
    { a with state := if a.grant.isSome then 2 else 3 }
  else if a.fenced ∨ a.isolated then a
  else { a with state := if a.grant.isSome then 1 else 0 }

/-- ARB_CTL written (R175, R177): a grant held is not revoked by the mode, requesters whose sideband is up are masked under a mode that masks. -/
def State.arbCtl (s : State) (p v : Nat) : State :=
  ((s.modArb p (fun a => { a with ctl := arbCtlWrite a.ctl v })).maskNow p true).modArb p Arb.refreeze

/-- TRUNK_CTL after a write: LINK_HOLD within its limits (Table 6.18). -/
def trunkCtlWrite (v : Nat) : Reg32 :=
  BitVec.ofNat 32 (bits v 31 30 * 2 ^ 30 + bits v 23 16 * 2 ^ 16 + max 1000 (min 50000 (bits v 15 0)))

/-- EN of a trunk port cleared: its peer is lost and the link is off (Table 6.19). -/
def State.tpDisable (s : State) (t : Nat) : State :=
  let s0 := s.modTp t (fun x => { x with ctl := x.ctl &&& 0x7FFFFFFF })
  let s1 := if (s.tp t).state = .off then s0 else s0.tpPeerLost t 11
  s1.modTp t (fun x => { x with state := .off, tx := .tl3, rx := .tl3, authFails := 0, stopped := false })

/-- EN of a trunk port set: AUTH_FAIL is cleared and the link may train (Table 6.19). -/
def State.tpEnable (s : State) (t : Nat) : State :=
  let s0 := s.modTp t (fun x => { x with ctl := x.ctl ||| 0x80000000, authFails := 0, stopped := false, state := if x.state = .authFail then .off else x.state })
  if s0.glob.pstate = .active then s0.tpStart t else s0

/-- TRUNK_CTL written. -/
def State.tpCtl (s : State) (t v : Nat) : State :=
  let was := bit (s.tp t).ctl.toNat 31
  let s1 := s.modTp t (fun x => { x with ctl := trunkCtlWrite v })
  if was ∧ ¬ bit v 31 then s1.tpDisable t else if ¬ was ∧ bit v 31 then s1.tpEnable t else s1

/-- A block register written; a read-only register ignores the write. -/
def State.blockWrite (s : State) (l : Loc) (reg v : Nat) : State :=
  if l.clu = 7 ∧ l.level = 5 then
    (match reg with
     | 0 => s.arbCtl (8 * l.k + l.unit) v
     | 3 => s.modArb (8 * l.k + l.unit) (fun a => { a with event := a.event.clear (BitVec.ofNat 8 (bits v 31 24)) })
     | _ => s)
  else if l.clu = 6 ∧ l.level = 4 then
    (match reg with
     | 0 => s.tpCtl l.k v
     | 1 => s.modTp l.k (fun x => { x with errCtl := BitVec.ofNat 32 v })
     | 4 => s.modTp l.k (fun x => { x with event := x.event.clear (BitVec.ofNat 8 (bits v 31 24)) })
     | _ => s)
  else if l.level = 2 ∧ l.die ≤ 1 ∧ reg = 0 then { s with xbar := { s.xbar with blkMin0 := bits v 3 0, blkMin1 := bits v 3 0 } }
  else s

/-- PORT_BLOCK_READ (R31, R175, R176, R315). -/
def execPortBlockRead (f : Frame) (loc : Loc) (reg : Nat) (s : State) : Res :=
  query 0xC209 f (.portBlockRead f loc reg)
    (fun s => s.locCheck loc (s.blockRead loc reg).isSome)
    (fun s => [(s.blockRead loc reg).getD 0]) s

/-- PORT_BLOCK_WRITE (R176, R177, R303): WINDOW outside 10 to 1,000 is out of range. -/
def execPortBlockWrite (f : Frame) (loc : Loc) (reg val : Nat) (s : State) : Res :=
  command 0xC20A f (.portBlockWrite f loc reg val)
    (fun s => (s.locCheck loc (s.blockRead loc reg).isSome).orElse (fun _ => checks
      [(loc.clu == 6 && reg == 1 && (decide (bits val 9 0 < 10) || decide (1000 < bits val 9 0)), rcParam),
       (loc.clu == 6 && reg == 0 && ! (s.modTp loc.k (fun x => { x with ctl := trunkCtlWrite val })).timeoutsOk, rcParam)]))
    (fun s => (s.blockWrite loc reg val, rcOk, [])) s

end Sys2Proof.Machine
end

