-- ==== Sys2Proof/Machine/PortEvt.lean ====
section
/-! DEFINITION. Events of ports, links and partners: sideband, training, arrival, departure, completion timeouts (chapters 4 and 5). -/
namespace Sys2Proof.Machine

/-! ### Slices that come with a host (R413) -/

/-- A new slice of a key. -/
def newSlice (host pasid : Nat) : Slice :=
  { host := host, pasid := pasid, state := .active, mask := [], userCnt := false, cut := 0xFFF, window := none, area := none, chan := none, cnt := [], log := none, freezers := [] }

/-- The lowest free slice number. -/
def State.freeSlice (s : State) : Option Nat := (List.range 512).find? (fun n => (s.slice n).isNone)

/-- A slice created with the lowest free number, its cut the one staged or 0xFFF until a commit (R416). -/
def State.addSlice (s : State) (host pasid : Nat) : State :=
  match s.freeSlice with
  | some n => { s with slices := Tbl.put s.slices n (newSlice host pasid) }
  | none => s

/-! ### Arrival (R221 to R226) -/

/-- Two optional identities are present and equal. -/
def sameSome (a b : Option Nat) : Bool := a.isSome && a == b

/-- Kind of an arriving partner, and the reason why it is linked IO_ONLY (Table 5.1, Table 5.2); the limit of R196 counts the
devices of other ports. -/
def State.arriveKind (s : State) (p : Nat) (i : PartnerId) : Nat × Option Nat :=
  let slow := i.cxl != 0 && decide ((s.port p).rate < 5)
  match i.kind with
  | 0 => if slow then (7, none) else if i.cxl = 3 then (1, none) else if i.cxl = 2 then (2, none) else (7, none)
  | 1 => if slow then (7, none) else (3, none)
  | 2 => if slow then (7, none)
    else if 16 ≤ (s.pool.partner.filter (fun e => e.2.kind == 4 && e.1 != p)).length then (7, some 4) else (4, none)
  | 4 => if slow then (7, none) else (7, some 3)
  | _ => (5, none)

/-- The lowest index no partner of the kinds holds (R223). -/
def State.freeIndex (s : State) (host : Bool) : Nat :=
  let used := (s.pool.partner.filter (fun e => if host then e.2.kind == 1 || e.2.kind == 2 else e.2.kind == 4)).map (fun e => e.2.index)
  ((List.range 64).find? (fun n => ! used.contains n)).getD 0

/-- Width and rate code of a port as DETAIL carries them (R645). -/
def Port.detail (p : Port) : Nat := p.width * 256 + p.rate

/-- A partner's port is bound again: its fence and its arbiter's are lifted (R173). -/
def State.unfence (s : State) (p : Nat) : State :=
  (s.modPort p (fun x => { x with fenced := false, enum := false })).modArb p (fun a => ({ a with fenced := false } : Arb).refill.refreeze)

/-- A new partner arrives: its record, index and slice, ARRIVE, and AUTO_ADD (R223 to R226, R413). -/
def State.arriveNew (s : State) (p : Nat) (i : PartnerId) : State :=
  let k := s.arriveKind p i
  let idx := match k.1 with | 1 | 2 => s.freeIndex true | 4 => s.freeIndex false | _ => 0xFF
  let x : Partner := { kind := k.1, index := idx, serial := i.serial, cert := i.cert, capacity := i.capacity, timerEnd := none, leftAt := 0, leaving := false, cause := 0, pindex := s.pool.nextPartner, lds := i.lds }
  let s1 : State := { s with pool := { s.pool with partner := Tbl.put s.pool.partner p x, nextPartner := (s.pool.nextPartner + 1) % 4096 } }
  let s2 := (s1.unfence p).pevent 1 p (s.port p).detail none
  let s3 := match k.2 with
    | some r => s2.pevent 0x10 p r none
    | none => s2
  let s4 := if k.1 = 1 ∨ k.1 = 2 then s3.addSlice idx 0 else s3
  if k.1 = 3 ∧ s4.pool.autoAdd then s4.addCapacity p false else s4

/-- An identity is that of a partner whose timer runs: serial, and for a host its certificate chain, for
an expander its capacity, for an MLD its logical devices (R221, R254). A partner of another class is another identity (log 100). -/
def Partner.matches (x : Partner) (k : Nat) (i : PartnerId) : Bool :=
  x.kind == k && sameSome x.serial i.serial
  && (match k with | 1 | 2 => sameSome x.cert i.cert | 3 => x.capacity == i.capacity | 5 => x.lds == i.lds | _ => true)

/-- Stored changes of a HOST_H's binding take effect at its link-up (R192, R240). -/
def State.storedApply (s : State) (h : Nat) : State :=
  (s.entsOf h).foldl (fun s e => match e.2.state with
    | .storedAdd => { s with pool := { s.pool with ent := Tbl.put s.pool.ent (512 * h + e.1) { e.2 with state := .valid } } }.bindGen
    | .storedRelease => s.removeDone h e.1
    | _ => s) s

/-- A partner re-attaches within its timer (Table 5.9). -/
def State.reattach (s : State) (p : Nat) : State :=
  match s.partner p with
  | none => s
  | some x =>
    let s1 := ((s.modPartner p (fun y => { y with timerEnd := none, leaving := false })).unfence p).pevent 4 p (min 0xFFFF ((s.now - x.leftAt) / msTicks 1)) none
    let s2 : State := { s1 with pool := { s1.pool with newcomer := Tbl.del s1.pool.newcomer p } }
    match x.kind with
    | 2 => s2.storedApply x.index
    | 3 =>
      let es := s2.extsOf p (fun st => st == .failed)
      let s3 := es.foldl (fun s e => s.modExt e (fun y => { y with state := .suspect })) s2
      ((runsOf es).foldl (fun s r => s.pevent 9 p 0 (some r)) s3).bindGen
    | _ => s2

/-- Another identity on a port whose timer runs: the old partner is released at once (Table 5.9). -/
def State.changeIdentity (s : State) (p : Nat) (i : PartnerId) : State :=
  let s1 := (s.pevent 5 p 0 none).releasePartner p
  ({ s1 with pool := { s1.pool with newcomer := Tbl.del s1.pool.newcomer p } } : State).arriveNew p i

/-- An arrival at a port: new, returning, or waiting for the confirmation of its identity (R225, R252, R253). -/
def State.arriveAt (s : State) (p : Nat) (i : PartnerId) : State :=
  match s.partner p with
  | none => s.arriveNew p i
  | some x =>
    if x.timerEnd.isNone then s.modPort p (fun y => { y with enum := false })
    else
      let k := (s.arriveKind p i).1
      if i.kind = 0 then
        if sameSome x.serial i.serial ∧ x.cert.isSome ∧ x.kind = k then
          ({ s with pool := { s.pool with newcomer := Tbl.put s.pool.newcomer p i } } : State).modPort p (fun y => { y with enum := false })
        else s.changeIdentity p i
      else if x.matches k i then s.reattach p else s.changeIdentity p i

/-- The conditions of R224 for an arrival at a port. -/
def State.canArrive (s : State) (p : Nat) : Bool :=
  let x := s.port p
  x.up && x.enum && (! s.ideReq p || x.ide) && (Tbl.find s.pool.newcomer p).isNone && ! (s.partner p).any (fun y => y.leaving)
  && (match x.pid with | some i => ! (i.kind == 1 || i.kind == 4) || x.memActive | none => false)

/-- ARRIVE (R224). -/
def execArrive (port : Nat) (s : State) : Res :=
  evt (s.canArrive port) (fun s => match (s.port port).pid with
    | some i => s.arriveAt port i
    | none => s) s

/-- SPDM_SESSION_COMPLETE (R253): the identity of a host is known; one that returns is confirmed, or is
another, or comes in the timer's last tick and so after expiry. -/
def execSpdmSessionComplete (port cert : Nat) (lastTick : Bool) (s : State) : Res :=
  evt ((s.port port).up && s.isUp port) (fun s =>
    match s.partner port, Tbl.find s.pool.newcomer port with
    | some x, some i =>
      let j : PartnerId := { i with cert := some cert }
      let k := (s.arriveKind port j).1
      if lastTick then
        let s1 := s.expire port
        ({ s1 with pool := { s1.pool with newcomer := Tbl.del s1.pool.newcomer port } } : State).arriveNew port j
      else if x.matches k j then s.reattach port else s.changeIdentity port j
    | some x, none => if x.timerEnd.isNone then s.modPartner port (fun y => { y with cert := some cert }) else s
    | none, _ => s.modPort port (fun y => { y with pid := y.pid.map (fun i => { i with cert := some cert }) })) s

/-- DEPARTURE_SWEEP_DONE (R248): DEPART_SURPRISE is logged and the timer starts. -/
def execDepartureSweepDone (port : Nat) (s : State) : Res :=
  evt ((s.partner port).any (fun x => x.leaving)) (fun s =>
    let s1 := s.departLogged port
    { s1 with keeper := { s1.keeper with sweeps := s1.keeper.sweeps.filter (fun w => ! (w.why == 6 && w.arg == port)) } }) s

/-- The reserved index whose timer ends first is freed (R310). -/
def State.freeReserved (s : State) (port : Nat) : State :=
  match s.hier.reserved with
  | [] => s
  | r :: rest =>
    let x := rest.foldl (fun (a : Nat × Nat × Nat) b => if b.2.2 < a.2.2 then b else a) r
    let y : Partner := { kind := 6, index := 0xFF, serial := some x.1, cert := none, capacity := 0, timerEnd := none, leftAt := 0, leaving := false, cause := 0, pindex := 0 }
    let keep := Tbl.find s.pool.partner port
    let s1 := ({ s with pool := { s.pool with partner := Tbl.put s.pool.partner port y }, hier := { s.hier with reserved := s.hier.reserved.erase x } } : State).pevent 6 port 0 none
    { s1 with pool := { s1.pool with partner := match keep with | some z => Tbl.put s1.pool.partner port z | none => Tbl.del s1.pool.partner port } }

/-- DEPARTURE_TIMER_EXPIRY (R252, R310): the partner is released, and one that waited behind it arrives. -/
def execDepartureTimerExpiry (port : Nat) (s : State) : Res :=
  evt (if port < 64 then (s.partner port).any (fun x => x.timerEnd.isSome && ! x.leaving) else decide (port ≤ 0x47) && ! s.hier.reserved.isEmpty)
    (fun s =>
      if port < 64 then
        let s1 := s.expire port
        match Tbl.find s1.pool.newcomer port with
        | some i => ({ s1 with pool := { s1.pool with newcomer := Tbl.del s1.pool.newcomer port } } : State).arriveNew port i
        | none => s1
      else s.freeReserved port) s

/-! ### Sideband and clocks (R212 to R218) -/

/-- PERST_N_LOW (R215, R220): a PORT reset of every upstream port of the group. -/
def execPerstNLow (grp : Nat) (s : State) : Res :=
  evt (decide (grp < 16) && roleOf (mapEntry s.ports.map grp) == 1 && ! s.perstDown grp && ! (s.group grp).hostLow)
    (fun s => (s.groupPorts grp).foldl (fun s p => s.portReset p) (s.modGroup grp (fun x => { x with hostLow := true }))) s

/-- PERST_N_RELEASE (R218): the group's ports may enter DETECT. -/
def execPerstNRelease (grp : Nat) (s : State) : Res :=
  evt (s.group grp).hostLow
    (fun s =>
      let s1 := s.modGroup grp (fun x => { x with hostLow := false })
      if s1.grpLive grp ∧ roleOf (mapEntry s1.ports.map grp) = 1 then s1.leaveDeep grp else s1) s

/-- PERST_RELEASE_TIMER (Table 4.8 step 3): not while lanes wait in DEEP. -/
def execPerstReleaseTimer (grp : Nat) (s : State) : Res :=
  evt (decide (grp < 16) && roleOf (mapEntry s.ports.map grp) == 2 && (s.group grp).driven && (s.group grp).bringUp && s.grpLive grp
      && (s.groupPorts grp).all (fun p => (s.port p).lanes != .deep))
    (fun s => (s.modGroup grp (fun x => { x with driven := false, bringUp := false })).emit (.pin (.perstN grp) true)) s

/-- Lanes of quadrant k that wait for the clock leave DEEP (R216). -/
def State.clockHere (s : State) (k : Nat) : State :=
  [2 * k, 2 * k + 1].foldl (fun s g =>
    if s.grpLive g ∧ roleOf (mapEntry s.ports.map g) ≠ 0 ∧ ¬ (s.group g).hostLow then s.leaveDeep g else s) s

/-- REFCLK_STABLE (R216). -/
def execRefclkStable (k : Nat) (s : State) : Res :=
  evt (decide (k < 8) && ! s.ports.refOk.contains k)
    (fun s => ({ s with ports := { s.ports with refOk := addOnce k s.ports.refOk, refLost := dropOf k s.ports.refLost } } : State).clockHere k) s

/-- REFCLK_LOSS (R214), absent from the start or lost: linked ports drop with cause 5, lanes hold, and each port cluster of the quadrant reports. -/
def execRefclkLoss (k : Nat) (s : State) : Res :=
  evt (decide (k < 8) && ! s.ports.refLost.contains k)
    (fun s =>
      let s1 : State := { s with ports := { s.ports with refOk := dropOf k s.ports.refOk, refLost := addOnce k s.ports.refLost } }
      let ps := ((List.range 8).map (8 * k + ·)).filter (fun p => s1.isPort p)
      let s2 := ps.foldl (fun s p => if (s.port p).up then s.departStart p 5 else if (s.port p).lanes = .training then s.linkDrop p else s) s1
      [0, 1, 2, 3].foldl (fun s c => s.fault 0x0201 (s.cluLoc k c) 0xFF) s2) s

/-- REFCLK_RETURN (R214). -/
def execRefclkReturn (k : Nat) (s : State) : Res :=
  evt (s.ports.refLost.contains k)
    (fun s => ({ s with ports := { s.ports with refOk := addOnce k s.ports.refOk, refLost := dropOf k s.ports.refLost } } : State).clockHere k) s

/-! ### Training and link state (R182, R191, R205, R207, R209, R217) -/

/-- A port that has found a partner may train: enabled, its clock stable, PERST_N high, and lanes left to train on. -/
def State.mayTrain (s : State) (p : Nat) : Bool :=
  decide (0 < s.maxWidth p) &&
  (s.port p).enabled && s.refReady (p / 8) && ! s.perstDown (grpOf p) && ! (s.group (grpOf p)).hostLow && s.grpLive (grpOf p)

/-- Equalisation starts: LANE_EQ_CTL as it is set comes into use on every lane of a port (R205, Table 4.9). -/
def State.equalise (s : State) (p : Nat) : State :=
  ((List.range (cfgWidth s.ports.map p)).map (4 * p + ·)).foldl (fun s n =>
    let v := Tbl.get (0x10000000 : Reg32) s.ports.eqCtl n
    { s with ports := { s.ports with eqUse := Tbl.set (0x10000000 : Reg32) s.ports.eqUse n v } }) s

/-- LANE_EQ_STATUS of a lane as training leaves it: the values set where they override, and adapted values, which are
free, elsewhere; the last margin scan is as before (Table 4.6, log 83). -/
def eqStatNow (use old : Reg32) (r : BitVec 256) : Reg32 :=
  let peak := if bit use.toNat 31 then min 32 (bits use.toNat 29 24) else bits r.toNat 15 0 % 33
  let pre := if bit use.toNat 19 then bits use.toNat 23 20 else bits r.toNat 31 16 % 11
  BitVec.ofNat 32 (peak * 2 ^ 24 + pre * 2 ^ 20 + bits r.toNat 32 32 * 2 ^ 19) ||| (old &&& 0x0007F3FF)

/-- The lanes a port has trained on: its first ones, or with lane reversal its last ones (R182, log 113). -/
def State.trainedLanes (s : State) (p : Nat) : List Nat :=
  let x := s.port p
  (List.range x.width).map (fun i => 4 * p + i + (if x.rev then cfgWidth s.ports.map p - x.width else 0))

/-- State of a lane (Table 4.7): that of its port, but for the lanes a narrow link does not use, which stay in DETECT (R182), and
those L0p idles; an unbound lane is DEEP (R181). -/
def State.laneState (s : State) (n : Nat) : LState :=
  match (List.range 64).find? (fun p => s.isPort p && decide (4 * p ≤ n) && decide (n < 4 * p + cfgWidth s.ports.map p)) with
  | none => .deep
  | some p =>
    let x := s.port p
    if ¬ x.up then x.lanes
    else match (s.trainedLanes p).findIdx? (· == n) with
      | none => .detect
      | some i => if x.lanes = .l0p then (if i < x.l0pW then .l0 else .l0p) else x.lanes

/-- LANE_EQ_STATUS of the lanes a port trained on. -/
def State.equalised (s : State) (p : Nat) : State :=
  (s.trainedLanes p).foldl (fun s n =>
    let v := eqStatNow (Tbl.get (0x10000000 : Reg32) s.ports.eqUse n) (Tbl.get (0 : Reg32) s.ports.eqStat n) s.fresh
    ({ s with ports := { s.ports with eqStat := Tbl.set (0 : Reg32) s.ports.eqStat n v } } : State).drawn) s

/-- RECEIVER_DETECT (Table 4.7): every 12 ms on a port in DETECT. -/
def execReceiverDetect (port : Nat) (found : Bool) (s : State) : Res :=
  evt (s.isPort port && (s.port port).lanes == .detect)
    (fun s =>
      let go := found && s.mayTrain port
      let s1 := s.modPort port (fun x => { x with found := found, lanes := if go then .training else .detect })
      if go then s1.equalise port else s1) s

/-- Highest rate code of a port's MAXRATE (Table 4.2, R645). -/
def State.maxRate (s : State) (p : Nat) : Nat :=
  match bits (mapEntry s.ports.map (grpOf p)) 23 22 with | 0 => 6 | 1 => 5 | _ => 4

/-- LINK_UP (R182, R190, R191, R199): a CXL 2.0 partner links at 32 GT/s at most; LINK_DEGRADED below the configured width or MAXRATE or for a slow CXL
partner; BIND_REFUSED for a partner linked IO_ONLY by its rate or before IDE. -/
def execLinkUp (port : Nat) (lanes : LinkLanes) (rate : Nat) (pid : PartnerId) (s : State) : Res :=
  evt (s.isPort port && (s.port port).lanes == .training && (lanes.width == 2 || lanes.width == 4 || lanes.width == 8 || lanes.width == 16) && decide (lanes.width ≤ s.maxWidth port)
      && decide (1 ≤ rate) && decide (rate ≤ s.maxRate port) && (pid.kind == 0) == s.isUp port && (pid.cxl != 2 || decide (rate ≤ 5)))
    (fun s =>
      let slow := pid.cxl != 0 && decide (rate < 5)
      let s0 := s.modPort port (fun x => { x with lanes := .l0, width := lanes.width, rate := rate, rev := lanes.rev, l0pW := 0, pid := some pid, enum := true, memActive := false, ide := false })
      let s1 := (s0.modPort port (fun x => { x with cls := (s0.arriveKind port pid).1 })).equalised port
      let s2 := if lanes.width < cfgWidth s.ports.map port ∨ rate < s.maxRate port ∨ slow then s1.pevent 7 port (lanes.width * 256 + rate) none else s1
      if slow then s2.pevent 0x10 port 1 none else if s2.ideReq port ∧ pid.cxl ≠ 0 then s2.pevent 0x10 port 2 none else s2) s

/-- IDE_ESTABLISHED (R197, R199): the mode set by PORT_SET takes effect with the keys. -/
def execIdeEstablished (port : Nat) (s : State) : Res :=
  evt (s.port port).up (fun s => s.modPort port (fun x => { x with ide := true, containNow := x.contain })) s

/-- MEMORY_ACTIVE (R217, R224): the expander's memory is ready and its CDAT read. -/
def execMemoryActive (port capacity : Nat) (s : State) : Res :=
  evt ((s.port port).up && (s.port port).enum && (s.port port).pid.any (fun i => i.kind == 1 || i.kind == 4))
    (fun s => s.modPort port (fun x => { x with memActive := true, pid := x.pid.map (fun i => { i with capacity := capacity }) })) s

/-- MEMORY_ACTIVE_TIMEOUT (R217, R220): enumeration is abandoned and the port returns to DETECT. -/
def execMemoryActiveTimeout (port : Nat) (s : State) : Res :=
  evt ((s.port port).up && (s.port port).enum && ! (s.port port).memActive && (s.port port).pid.any (fun i => i.kind == 1 || i.kind == 4))
    (fun s => s.linkDrop port) s

/-- LINK_L1_ENTRY (R207, R209): an idle link enters L1, or, with L0p, narrows to some of its lanes (log 113). -/
def execLinkL1Entry (x : IdleOp) (s : State) : Res :=
  evt ((s.port x.port).lanes == .l0 && (if x.width = 0 then (s.port x.port).aspm else (s.port x.port).l0p && decide (x.width < (s.port x.port).width)))
    (fun s => s.modPort x.port (fun y => { y with lanes := if x.width = 0 then .l1 else .l0p, l0pW := x.width })) s

/-- LINK_L1_EXIT (R207, R209): the link is in L0 with every lane; an access that waited for it goes on. -/
def execLinkL1Exit (port : Nat) (s : State) : Res :=
  evt ((s.port port).lanes == .l1 || (s.port port).lanes == .l0p) (fun s =>
    let s1 := s.modPort port (fun x => { x with lanes := .l0, l0pW := 0, l1Wait := false })
    if (s.port port).l1Wait ∧ (s.arbOf port).grant.any (fun g => g.acc.isSome) then s1.handOff port else s1) s

/-- LINK_DOWN (R219, R248): cause 1 link down, 2 Viral. -/
def execLinkDown (port cause : Nat) (s : State) : Res :=
  evt (((s.port port).up || (s.port port).lanes == .training) && (cause == 1 || cause == 2)) (fun s => s.departStart port cause) s

/-- LINK_LEVEL_RESET (R51): a PORT reset. -/
def execLinkLevelReset (port : Nat) (s : State) : Res :=
  evt (s.port port).up (fun s => s.portReset port) s

/-- IDE_INTEGRITY_FAILURE (R199, R220): a surprise departure with cause 3, which names the failure (log 98). -/
def execIdeIntegrityFailure (port : Nat) (s : State) : Res :=
  evt ((s.port port).up && (s.port port).ide) (fun s => s.departStart port 3) s

/-! ### Completion timeouts (R200 to R203) -/

/-- An access handed to a downstream port has ended. -/
def State.arbEnded (s : State) (p : Nat) (x : Access) : State := s.modArb p (fun a => { a with handed := a.handed.erase x })

/-- The port that backs a line of this module. -/
def State.backPort (s : State) (fpa : Nat) : Nat := (s.ext (extOf fpa)).port

/-- DS_CPL_TIMEOUT (R202): the access fails, CPL_TIMEOUT is reported, and the port is fenced at DS_FAIL_LIMIT. -/
def execDsCplTimeout (port fpa : Nat) (s : State) : Res :=
  evt (s.isDown port && (s.port port).up && (s.arbOf port).handed.any (fun x => lineOf x.fpa == lineOf fpa))
    (fun s => match (s.arbOf port).handed.find? (fun x => lineOf x.fpa == lineOf fpa) with
      | none => s
      | some x =>
        let s1 := (((s.txnEnd (lineOf fpa) 4).latDrop port fpa).arbEnded port x |>.accFails x true 9).modPort port (fun x => { x with dsFails := x.dsFails + 1 })
        let s2 := (s1.fault 0x0102 (s1.portLoc port) port).count 0x0E port 0 1
        if (s2.port port).dsFail ≤ (s2.port port).dsFails then s2.departStart port 4 else s2) s

/-- US_CPL_TIMEOUT (R203): a poisoned completion toward the host, the written line poisoned, the late result discarded. -/
def execUsCplTimeout (port fpa : Nat) (s : State) : Res :=
  let line := fpa / 64 * 64
  evt ((s.port port).open_.any (fun x => x.1 == line))
    (fun s => match (s.port port).open_.find? (fun x => x.1 == line) with
      | none => s
      | some x =>
        let s1 := ((s.smpEnd (.host ((s.hostAt port).getD 0)) 0 (0, lineOf line) 4).latDrop port fpa).modPort port (fun y => { y with open_ := y.open_.erase x })
        let s2 : State := { s1 with hs := { s1.hs with dead := s1.hs.dead ++ [(port, lineOf line)] } }
        let s3 := match x.2 with
          | 0 => s2.emit (.s2m port 0 line 0 true 0)
          | 1 => let w := s2.emit (.s2m port 1 line 0 false 0); if w.homed line then w.poisonMem line else w.wbHome (lineOf line) false 0 true
          | _ => s2.emit (.s2m port 5 line 0 false 0)
        ((s3.paid port (lineOf line)).fault 0x0102 (s3.portLoc port) port).count 0x0E port 0 1) s

end Sys2Proof.Machine
end

