-- ==== Sys2Proof/Machine/Cross.lean ====
section
/-! DEFINITION. The switch core's commands and events: requests entering it, resequencer holes, planes, spill read-back, port arbiters and scrub engines (chapter 3). -/
namespace Sys2Proof.Machine

/-! ### Requests entering the crossbar (R129, R130, R132, R145) -/

/-- A cell that fails its HCRC check at its ingress point: its number is taken, and it is discarded and reported there (R132). -/
def State.cellBad (s : State) (c : Cell) : State :=
  let s1 : State := { s with xbar := { s.xbar with nextSeq := Tbl.set 0 s.xbar.nextSeq c.flow ((Tbl.get 0 s.xbar.nextSeq c.flow + 1) % 4096) } }
  (s1.slotLost c.src).fault 0x0108 (s1.pointLoc c.src) 0xFF

/-- A cell enters, as its passage says (R132, R145). -/
def State.cellEnters (s : State) (c : Cell) (way : Passage) : State :=
  match way with
  | .clean => s.cellIn c
  | .corrupt far => if far then s.cellIn { c with bad := some c.dst } else s.cellBad c
  | .slow t => s.cellIn { c with slow := t }

/-- A request enters the crossbar at its ingress point, on its way to its keeper slice; its first cell crosses as `way` says. -/
def State.cross (s : State) (src : Nat) (q : QReq) (way : Passage) : State :=
  let s1 := s.sample (q.sampled src src (s.attrib q.r.src q.r.fpa))
  match reqCells src q with
  | c :: rest => rest.foldl (fun s x => s.cellIn x) (s1.cellEnters c way)
  | [] => s1

/-! ### Holes (R148) -/

/-- The cells of a flow whose numbers are passed over, still on their planes: what their loss does is done, and they carry nothing on. -/
def State.passedOver (s : State) (f e n : Nat) : State :=
  let mine := fun (c : Cell) => c.flow == f && decide (seqAhead c.seq e < n)
  let gone := (s.xbar.flying.filter (fun x => mine x.2.2)).map (fun x => x.2.2)
  gone.foldl (fun s c => s.cellLost c) ({ s with xbar := { s.xbar with flying := s.xbar.flying.map (fun x => (x.1, x.2.1, if mine x.2.2 then { x.2.2 with load := .head } else x.2.2)) } } : State)

/-- RESEQ_HOLE (R148): the hole is reported at the egress point with its flow and the numbers missing, and passed over. -/
def execReseqHole (src dst cls : Nat) (s : State) : Res :=
  let f := flowNo src dst cls
  let mine := s.xbar.held.filter (fun c => c.flow == f)
  evt (! mine.isEmpty && decide (src < 128) && decide (dst < 128) && decide (cls < 6)) (fun s =>
    let e := Tbl.get 0 s.xbar.expSeq f
    let o := mine.foldl (fun (b : Nat) c => if seqAhead c.seq e < seqAhead b e then c.seq else b) ((mine.map (fun c => c.seq)).headD e)
    let n := seqAhead o e
    let d : Reg32 := BitVec.ofNat 32 (src * 2 ^ 25 + cls * 2 ^ 22 + e * 2 ^ 10 + min n 1023)
    let s1 := ((s.report 0x0109 (s.pointLoc dst) d (if dst < 0x40 then dst else 0xFF)).count 0x14 dst 0 (b2n (decide (dst < 0x40)))).passedOver f e n
    ({ s1 with xbar := { s1.xbar with expSeq := Tbl.set 0 s1.xbar.expSeq f o, part := dropOf f s1.xbar.part } } : State).release f s1.xbar.held.length) s

/-! ### Planes (R41) -/

/-- PLANE_IDLE_GATE (R41). -/
def execPlaneIdleGate (plane : Nat) (s : State) : Res :=
  evt (decide (plane < 4) && s.running && ! s.xbar.gated.getLsbD plane && s.xbar.voq.isEmpty)
    (fun s => { s with xbar := { s.xbar with gated := s.xbar.gated ||| ((1 : BitVec 4) <<< plane) } }) s

/-- PLANE_UNGATE (R41). -/
def execPlaneUngate (plane : Nat) (s : State) : Res :=
  evt (decide (plane < 4) && s.running && s.xbar.gated.getLsbD plane)
    (fun s => { s with xbar := { s.xbar with gated := s.xbar.gated &&& ~~~((1 : BitVec 4) <<< plane) } }) s

/-! ### Spill (R152 to R160) -/

/-- Spilled cells of a point that are being read back or have been. -/
def State.spillOut (s : State) (point : Nat) : Nat := (s.xbar.spillQ.filter (fun e => e.2.2.dst == point && e.2.1 != 0)).length

/-- One spilled cell is asked for at the carve-out's expander (R153, R157). -/
def State.spillAsk (s : State) (e : Nat × Nat × Cell) : State :=
  let d := pointDie e.2.2.dst
  ({ s with xbar := { s.xbar with spillQ := s.xbar.spillQ.map (fun y => if y = e then (e.1, 1, e.2.2) else y) } } : State).spillCell d (s.spillAcc d e.1 false 0 false)

/-- Cells of a point's spill queue are asked for, oldest first, up to LOW (R153). -/
def State.spillMore (s : State) (point fuel : Nat) : State :=
  match fuel with
  | 0 => s
  | n + 1 =>
    if ¬ s.underLow (s.bulkAt point + s.spillOut point) then s
    else match s.xbar.spillQ.find? (fun e => e.2.2.dst == point && e.2.1 == 0) with
      | some e => (s.spillAsk e).spillMore point n
      | none => s

/-- SPILL_READ_BACK (R153, R160): cells return to their egress point in order, up to LOW. -/
def execSpillReadBack (point : Nat) (s : State) : Res :=
  evt (s.running && s.xbar.spillQ.any (fun e => e.2.2.dst == point && e.2.1 == 0) && s.underLow (s.bulkAt point + s.spillOut point))
    (fun s => s.spillMore point 512) s

/-! ### Port arbiters (R162 to R177) -/

/-- ARB_REQUEST (R166): granted at once when nothing stands before it, else parked; a requester with 64
parked requests has no credit and sends none. -/
def execArbRequest (port req : Nat) (write : Bool) (units : Nat) (s : State) : Res :=
  evt (s.isDown port && decide (req < 52) && decide (1 ≤ units) && decide (units ≤ 32)
      && decide (((s.arbOf port).pend.filter (fun x => x.req == req)).length < 64) && ! (s.arbOf port).unsent.any (fun x => x.req == req) && ! (s.arbOf port).fenced)
    (fun s => s.arbAsk port { req := req, write := write, units := units, since := s.now }) s

/-- ARB_GRANT (R164). -/
def execArbGrant (port : Nat) (s : State) : Res :=
  evt (s.isDown port && s.arbIdle port && (s.arbNext port).isSome) (fun s => match s.arbNext port with
    | some x => (s.arbGive port x).l1Hold port
    | none => s) s

/-- ARB_HANDOFF_DONE (R167, R209): not while the link is in L1. -/
def execArbHandoffDone (port : Nat) (s : State) : Res :=
  evt ((s.arbOf port).grant.isSome && (s.port port).lanes != .l1) (fun s => s.handOff port) s

/-- ARB_HOLD (R167): the grant is cut off where MISBEHAVE_MODE enables it, and its access fails as in Table 3.9. -/
def execArbHold (port : Nat) (s : State) : Res :=
  evt ((s.arbOf port).grant.isSome && bit (s.arbOf port).ctl.toNat 30) (fun s =>
    match (s.arbOf port).grant with
    | none => s
    | some g =>
      let s1 := ((s.modArb port Arb.rest).arbEvent port 17 g.req).count 0x11 port (2 ^ tierOf g.req) 1
      (s1.report 0x010D (s1.arbLoc port) (BitVec.ofNat 32 g.req) port).pendFails g true 9) s

/-- ARB_MASK (R168, R169): the sideband is up; where the mode permits, the requester is masked and its
grant and parked requests are gone. -/
def execArbMask (port req : Nat) (s : State) : Res :=
  evt (s.isDown port && decide (req < 52) && ! (s.arbOf port).side.getLsbD req) (fun s => s.sideUp port req) s

/-- ARB_UNMASK (R168, R177): the sideband is down again. -/
def execArbUnmask (port req : Nat) (s : State) : Res :=
  evt ((s.arbOf port).side.getLsbD req && ! s.xbar.down.getLsbD req) (fun s => s.sideDown port req) s

/-- ARB_PARK_TIMEOUT (R171): the oldest parked request of a requester is completed as an access that failed at the expander. -/
def execArbParkTimeout (port req : Nat) (s : State) : Res :=
  evt ((s.arbOf port).pend.any (fun x => x.req == req)) (fun s =>
    match (s.arbOf port).pend.find? (fun x => x.req == req) with
    | none => s
    | some x => (s.modArb port (fun a => ({ a with pend := a.pend.erase x } : Arb).refill)).pendFails x true 9) s

/-- The patrol read of a scrub engine at its position within the extents a port backs (R162). -/
def State.patrolAcc (s : State) (die port : Nat) : Access :=
  let es := (s.pool.ext.filter (fun e => e.2.port == port && e.2.state != .absent)).map (fun e => e.1)
  let pos := Tbl.get 0 s.xbar.scrubPos die
  let e := (es[pos / 2 ^ 28 % es.length]?).getD 0
  { fpa := s.glob.midx * 2 ^ 48 + e * 2 ^ 28 + pos % 2 ^ 28, port := port, dpa := (s.ext e).dpa, off := pos % 2 ^ 28, write := false, en := 0, data := 0, psn := false, kind := .patrol }

/-- SCRUB_PATROL (R162, R164): a scrub engine's patrol read is a tier C request; its position moves on.
An engine stopped by a fault, or without the queue memory of Q0 and Q1 of its die (R136), issues none. -/
def execScrubPatrol (die port : Nat) (s : State) : Res :=
  evt (decide (die < 2) && s.isDown port && s.running && ! s.xbar.scrubOff.contains die && s.diePoints die && ! (s.arbOf port).fenced
      && decide (((s.arbOf port).pend.filter (fun x => x.req == 50 + die)).length < 64))
    (fun s =>
      let x := s.patrolAcc die port
      ({ s with xbar := { s.xbar with scrubPos := Tbl.set 0 s.xbar.scrubPos die ((Tbl.get 0 s.xbar.scrubPos die + 64) % 2 ^ 52) } } : State).putCell
        { cls := 0, opc := 0, src := 0x72 + die, dst := port, addr := x.fpa, load := .acc x }) s

end Sys2Proof.Machine
end

