-- ==== Sys2Proof/Machine/WardChk.lean ====
section
/-! DEFINITION. The ward check of an access and what happens at crossbar ingress around it (R47, R427 to R437, R441). -/
namespace Sys2Proof.Machine

/-- WARD_CTL.EN of the control word in force. -/
def State.wardOn (s : State) : Bool := bit s.ward.ctlNow.toNat 0
/-- WARD_CTL.MISS_PERM of the control word in force. -/
def State.missPerm (s : State) : BitVec 3 := s.ward.ctlNow.extractLsb' 5 3

/-- A region gives its rights to a cut (R427, R428). -/
def regionPerm (r : Region) (cut : BitVec 12) : BitVec 3 :=
  if cut &&& r.cutMask = r.cut &&& r.cutMask then r.permIn else r.permOut

/-- The highest-numbered valid region of a table that contains a 256-byte block. -/
def regionAt (t : Tbl Region) (blk : Nat) : Option (Nat × Region) :=
  t.foldl (fun r e => if e.2.v && decide (e.2.base ≤ blk) && decide (blk ≤ e.2.limit) then some e else r) none

/-- The decision for an access: its rights, and the deciding region (R428). -/
def State.wardDecide (s : State) (cut : BitVec 12) (fpa : Nat) : BitVec 3 × Option Nat :=
  if ! s.wardOn then (7, none)
  else match regionAt s.ward.now (fpa / 256) with
    | some e => (regionPerm e.2 cut, some e.1)
    | none => (s.missPerm, none)

/-- A right of a permission field: 0 R, 1 W, 2 A. -/
def hasRight (p : BitVec 3) (i : Nat) : Bool := p.getLsbD i

/-- Cut of a slice; an access of no slice is not checked, and the cut is not used (R415). -/
def State.sliceCut (s : State) (sl : Option Nat) : BitVec 12 :=
  match sl.bind s.slice with | some x => x.cut | none => 0xFFF

/-- A denial at a point: counted, recorded in WARD_EVENT, and reported at most once in 1 ms per point (R437). -/
def State.deny (s : State) (sl : Option Nat) (point : Nat) (region : Option Nat) : State :=
  let d : Reg32 := match region with | some n => BitVec.ofNat 32 n | none => 0x1000
  let v : Reg32 := match region with | some n => BitVec.ofNat 32 (n * 2 ^ 8) | none => 0x80
  let s1 : State := { s with ward := { s.ward with denies := min (s.ward.denies + 1) (2 ^ 32 - 1) } }
  let s2 := (((s1.sliceCnt sl 5 1).wardEvent 23 v 0x000FFF80).count 0x0A point 0 (b2n (decide (point < 64)))).slotLost point
  let due : Bool := match Tbl.find s.ward.denyAt point with | some t => decide (t + msTicks 1 ≤ s.now) | none => true
  if due then
    let s3 : State := { s2 with ward := { s2.ward with denyAt := Tbl.put s2.ward.denyAt point s.now } }
    s3.report 0x0107 (s3.pointLoc point) d (if point < 64 then point else 0xFF)
  else s2

/-- An access admitted at its check is in flight in the epoch in force (R441). -/
def State.tag (s : State) (a : Agent) (line : Nat) : State :=
  { s with ward := { s.ward with flight := s.ward.flight ++ [(a, line, s.ward.epoch)] } }

/-- HOME_LOST at a port, at most once in 1 ms (Table 6.15). -/
def State.homeLostNote (s : State) (port : Nat) : State :=
  let due : Bool := match Tbl.find s.hier.lostAt port with | some t => decide (t + msTicks 1 ≤ s.now) | none => true
  if due then ({ s with hier := { s.hier with lostAt := Tbl.put s.hier.lostAt port s.now } } : State).fault 0x0110 (s.portLoc port) port else s

/-- BIND_MISS at a port, at most once in 1 ms (R237). -/
def State.bindMiss (s : State) (port : Nat) : State :=
  let s := (s.count 0x09 port 0 1).slotLost port
  let due : Bool := match (s.port port).missAt with | some t => decide (t + msTicks 1 ≤ s.now) | none => true
  if due then (s.modPort port (fun x => { x with missAt := some s.now })).fault 0x0103 (s.portLoc port) port else s

/-- The reports an admitted request causes at its port: a lost home, a FAILED extent once, a write to a
SUSPECT extent (R238, R302). -/
def State.ingressNotes (s : State) (port : Nat) (q : QReq) : State :=
  if ! s.homed q.r.fpa then (if s.hier.lost.contains (homeOf q.r.fpa) then s.homeLostNote port else s)
  else
    let x := s.ext (extOf q.r.fpa)
    if x.state = .failed then
      if x.told then s else (s.modExt (extOf q.r.fpa) (fun y => { y with told := true })).fault 0x0106 (s.portLoc port) port
    else if x.state = .suspect ∧ (q.kind = .wrInvFull ∨ q.kind = .wrInvPart) then s.fault 0x0105 (s.portLoc port) port
    else s

/-- A checked request enters the crossbar at a port: tagged, reported where needed, and sent to its keeper slice. -/
def State.ingress (s : State) (port : Nat) (q : QReq) (way : Passage) : State :=
  ((s.tag q.r.src (lineOf q.r.fpa)).ingressNotes port q).cross port q way

/-- What the rights leave of a request: itself, RdS in place of ownership, or nothing (Table 9.8). -/
def rightsLeave (p : BitVec 3) (k : ReqKind) : Option ReqKind :=
  match k with
  | .rds => if hasRight p 0 then some .rds else none
  | .rdx => if hasRight p 0 then (if hasRight p 1 then some .rdx else some .rds) else none
  | .upg => if hasRight p 1 then some .upg else if hasRight p 0 then some .rds else none
  | .wrInvFull | .wrInvPart => if hasRight p 1 then some k else none
  | .atomOp => if hasRight p 2 then some .atomOp else none
  | .evict => some .evict

end Sys2Proof.Machine
end

