-- ==== Sys2Proof/Machine/HostSide.lean ====
section
/-! DEFINITION. Requests of hosts, caching devices and passed-through partners at their ports, and completions of expanders (chapters 2, 4, 5, 8 and 9). -/
namespace Sys2Proof.Machine

/-! ### Translation at an upstream port -/

/-- Translation of a write-back or of a back-invalidate's answer: an entry whose removal has begun still
names the line, and so does the back-invalidate itself (R239, R646). -/
def State.backTrans (s : State) (port h hoff : Nat) : Option Nat :=
  match (s.entsOf h).find? (fun e => e.2.state != .addPending && e.2.state != .storedAdd && decide (e.2.hoffExt ≤ hoff / 2 ^ 28) && decide (hoff / 2 ^ 28 ≤ e.2.hoffExt + e.2.nm1)) with
  | some e => let x := s.entExt e.2 (hoff / 2 ^ 28); some (mkFpa x.1 x.2 hoff)
  | none => (s.hs.biAddr.find? (fun x => x.1 == port && x.2.1 == hoff / 64)).map (fun x => x.2.2 * 64)

/-- A host's requests are taken at a port: its link up, its partner attached, not fenced, ingress open. -/
def State.hostTakes (s : State) (p : Nat) : Bool :=
  s.running && s.isUp p && (s.port p).up && ! (s.port p).fenced && ! s.svc.ingressShut && (s.hostAt p).isSome

/-- The partner at a port is a host bound in HDM-DB mode. -/
def State.isDb (s : State) (p : Nat) : Bool := (s.partner p).any (fun x => x.kind == 1)

/-- Number of byte enables set. -/
def enCount (m : BitVec 64) : Nat := ((List.range 64).filter (fun i => m.getLsbD i)).length

/-! ### Past the shapers: ward check and crossbar (R407, R436) -/

/-- A denied host request completes (Table 9.9). -/
def State.hostDenied (s : State) (q : QReq) : State :=
  match q.kind with
  | .rds | .rdx => s.answer q.r.src .poison q.r.fpa 0
  | .upg => s.answer q.r.src .cmpI q.r.fpa 0
  | _ => s.answer q.r.src .cmp q.r.fpa 0

/-- Kind of an open request, as a completion timeout needs it: 0 read, 1 write, 2 ownership (R203). -/
def openKind (k : ReqKind) : Nat := match k with | .rds | .rdx => 0 | .upg => 2 | _ => 1

/-- Slots of a posting-window write: each record with true when all its bytes are enabled (R116). -/
def postSlots (en : BitVec 64) (d : Line) (whole : Bool) : List (BitVec 128 × Bool) :=
  (List.range 4).map (fun i => (d.extractLsb' (128 * i) 128, whole || en.extractLsb' (16 * i) 16 == 0xFFFF))

/-- The records of a window write in slot order, each with the record after it, or none for a record that
is discarded with ATOM_OP (R116 to R118); `skip` passes over the CONT of a CAS64. -/
def postRecords (l : List (BitVec 128 × Bool)) (skip : Bool) : List (Option (BitVec 128 × BitVec 128)) :=
  match l with
  | [] => []
  | (r, ok) :: rest =>
    let op := recOp r
    let aligned := decide (recTarget r % 8 = 0) && (op != 3 || decide (recTarget r % 16 = 0))
    let cont : Bool := rest.head?.any (fun n => n.2 && recOp n.1 == 0xF)
    if skip ∨ ¬ ok ∨ op = 0 then postRecords rest false
    else if op = 5 ∧ cont then (if aligned then some (r, (rest.head?.map (fun n => n.1)).getD 0) else none) :: postRecords rest true
    else if op ≤ 7 ∧ op ≠ 5 ∧ aligned then some (r, 0) :: postRecords rest false
    else none :: postRecords rest false

/-- One record posted by a slice enters: translation, ward check on the target, crossbar (R119, R121). -/
def State.postOne (s : State) (port sl : Nat) (x : Option (BitVec 128 × BitVec 128)) : State :=
  match x with
  | none => s.fault 0x010C (s.portLoc port) port
  | some (r, n) =>
    match s.sliceFpa sl (recTarget r) with
    | none => s.bindMiss port
    | some (e, fpa) =>
      if e.access = 1 then s.refuseRec (.post sl) (s.posterArea (.post sl)) r 4
      else
        let w := s.wardDecide (s.sliceCut (some sl)) fpa
        if hasRight w.1 2 then s.ingress port { kind := .atomOp, r := { src := .post sl, fpa := fpa, nt := false, mask := 0, data := 0 }, record := r, nextRec := n, area := s.posterArea (.post sl) } .clean
        else (s.deny (some sl) port w.2).refuseRec (.post sl) (s.posterArea (.post sl)) r 2

/-- A window write past its charge: split into records, then completed (Table 2.19). `nt` of the request
says that all its bytes are written. -/
def State.postGo (s : State) (sl port : Nat) (q : QReq) : State :=
  let s1 := (postRecords (postSlots q.r.mask q.r.data q.r.nt) false).foldl (fun s x => s.postOne port sl x) s
  (s1.sliceCnt (some sl) 1 (if q.r.nt then 64 else enCount q.r.mask)).emit (.s2m port 1 (q.r.fpa % 2 ^ 60) 0 false 0)

/-- A host request past its charge: ward check with its slice's cut, then the crossbar. -/
def State.hostGo (s : State) (sl : Option Nat) (port : Nat) (q : QReq) (way : Passage) : State :=
  match q.r.src with
  | .post n => s.postGo n port q
  | _ =>
    let w := s.wardDecide (s.sliceCut sl) q.r.fpa
    match rightsLeave w.1 q.kind with
    | none => (((s.sample (q.sampled port port sl)).smpEnd q.r.src 0 (0, lineOf q.r.fpa) 2).deny sl port w.2).hostDenied q
    | some k =>
      let q1 := { q with kind := k }
      let s1 := s.modPort port (fun x => { x with open_ := if k = .evict then x.open_ else x.open_ ++ [(q.r.fpa / 64 * 64, openKind k)] })
      let s2 := match k with
        | .rds | .rdx => s1.sliceCnt sl 0 64
        | .wrInvFull => s1.sliceCnt sl 1 64
        | .wrInvPart => s1.sliceCnt sl 1 (enCount q.r.mask)
        | _ => s1
      (if k = .evict then s2 else s2.latOpen port q.r.fpa).ingress port q1 way

/-! ### Shaping at an upstream port (R380 to R386) -/

/-- Lines a request of a shaping queue is about: its own, and the target lines of the records of a window write (R119). -/
def State.heldLines (s : State) (q : QReq) : List Nat :=
  lineOf q.r.fpa :: (match q.r.src with
    | .post sl => (postRecords (postSlots q.r.mask q.r.data q.r.nt) false).filterMap (fun x =>
        x.bind (fun r => (s.sliceFpa sl (recTarget r.1)).map (fun y => lineOf y.2)))
    | _ => [])

/-- A request of a port and line waits in the shaping queue ahead of one that follows it (R119, R386). -/
def State.lineHeld (s : State) (port : Nat) (q : QReq) : Bool :=
  s.hs.shapeQ.any (fun x => x.1 == port && (s.heldLines x.2.2).contains (lineOf q.r.fpa))

/-- SHAPE_EVENT.QFULL with its port (R385). -/
def State.qfull (s : State) (port : Nat) : State :=
  { s with shape := { s.shape with shEvent := s.shape.shEvent.raise 17 (BitVec.ofNat 32 (port * 2 ^ 18)) 0x00FC0000 } }

/-- A host request meets its shapers; `dir` is none for one that is never charged. It proceeds, or waits
in the shaping queue, or with a full queue in the receive buffer (R380 to R386). -/
def State.hostCharge (s : State) (sl : Option Nat) (port : Nat) (q : QReq) (dir : Option Nat) (way : Passage) : State :=
  let ks := match dir with | some d => s.bucketsOf sl port d | none => []
  if ¬ s.lineHeld port q ∧ ks.all (fun k => (s.bucket k).allows 64) ∧ ¬ behind s.shape.waiting ks then (s.deduct ks 64).hostGo sl port q way
  else
    let room := decide ((s.hs.shapeQ.filter (fun x => x.1 == port && x.2.1)).length < 256)
    let s1 : State := { s with
      hs := { s.hs with shapeQ := s.hs.shapeQ ++ [(port, room, q)] }
      shape := { s.shape with waiting := s.shape.waiting ++ [{ slice := sl, bkts := ks, bytes := 64, work := .host port q way }], waitUs := if ks = [] then s.shape.waitUs else addAll sl.toList s.shape.waitUs } }
    if room then s1 else s1.qfull port

/-! ### CXL.mem requests (R85, R86, R115, R236 to R238) -/

/-- A completion is owed to the host for a line (R88). -/
def State.owes (s : State) (port line : Nat) : State := { s with hs := { s.hs with owed := s.hs.owed ++ [(port, line)] } }

/-- Request kind of a host read-class message (Table 2.9). -/
def hostKind (db : Bool) (h : HostOp) : ReqKind × Bool :=
  if h.evict then (.evict, false) else if h.inv then (.upg, false) else if ¬ db ∨ h.mv = 0 then (.rds, true) else if h.mv = 2 then (.rdx, false) else (.rds, false)

/-- M2S_REQ: MemRd, MemInv and MemClnEvct of a host. -/
def execM2sReq (h : HostOp) (s : State) : Res :=
  evt (s.hostTakes h.port && decide (h.hoff < 2 ^ 46) && (s.isDb h.port || ! (h.inv || h.evict))) (fun s =>
    let hi := (s.hostAt h.port).getD 0
    let off := h.hoff / 64 * 64
    let k := hostKind (s.isDb h.port) h
    if (s.windowAt hi off).isSome then (if k.1 = .evict then s else s.emit (.s2m h.port 0 off 0 false 0))
    else match s.translate hi off with
    | none => match k.1 with
      | .evict => s
      | .upg => (s.emit (.s2m h.port 5 off 0 false 0)).bindMiss h.port
      | _ => (s.emit (.s2m h.port 0 off 0 true 0)).bindMiss h.port
    | some (n, e, fpa) =>
      let k1 : ReqKind := if e.access = 1 ∧ (k.1 = .rdx ∨ k.1 = .upg) then .rds else k.1
      let q : QReq := { kind := k1, r := { src := .host hi, fpa := fpa, nt := k.2, mask := 0, data := 0 }, record := 0, nextRec := 0 }
      let dir := match k1 with | .rds | .rdx => some 1 | _ => none
      let s1 := if k1 = .evict then s else s.owes h.port (lineOf fpa)
      s1.hostCharge (s.hostSlice hi n) h.port q dir h.way) s

/-- A host's write to a posting window (R115 to R119): charged IN to the slice that owns the window. -/
def State.postWrite (s : State) (h : HostOp) (sl : Nat) : State :=
  s.hostCharge (some sl) h.port { kind := .atomOp, r := { src := .post sl, fpa := 2 ^ 60 + h.hoff / 64 * 64, nt := ! h.ptl, mask := h.enables, data := h.data }, record := 0, nextRec := 0 } (some 2) h.way

/-- A host's write-back, open until its completion (R86, R99, R203): the DAT of an open back-invalidate, or a WbData. It crosses to the
keeper slice as a cell of class DAT. -/
def State.hostWb (s : State) (port hi fpa : Nat) (k : Bool) (d : Line) (way : Passage) : State :=
  let line := lineOf fpa
  let s1 := (s.owes port line).modPort port (fun x => { x with open_ := x.open_ ++ [(fpa / 64 * 64, 1)] })
  let s2 : State := if s.hs.biOpen.contains (port, line) then { s1 with hs := { s1.hs with asDat := addOnce (port, line) s1.hs.asDat } }
    else { s1 with hs := { s1.hs with wbOpen := s1.hs.wbOpen ++ [(port, line)] } }
  s2.cellEnters { cls := 3, opc := 0x1C, src := port, dst := 0x40 + sliceHash fpa, addr := fpa, len := 63, k := k, load := .wb (.host hi) fpa k d false } way

/-- A host's write of a class that invalidates (R237, R238, R380). -/
def State.hostWrite (s : State) (h : HostOp) (hi : Nat) : State :=
  let off := h.hoff / 64 * 64
  match s.translate hi off with
  | none => (s.emit (.s2m h.port 1 off 0 false 0)).bindMiss h.port
  | some (n, e, fpa) =>
    if e.access = 1 then (s.emit (.s2m h.port 1 fpa 0 false 0)).fault 0x0104 (s.portLoc h.port) h.port
    else
      let full := ! h.ptl
      let q : QReq := { kind := if full then .wrInvFull else .wrInvPart, r := { src := .host hi, fpa := fpa, nt := false, mask := h.enables, data := h.data }, record := 0, nextRec := 0 }
      (s.owes h.port (lineOf fpa)).hostCharge (s.hostSlice hi n) h.port q (some 2) h.way

/-- M2S_RWD: MemWr and MemWrPtl of a host. -/
def execM2sRwd (h : HostOp) (s : State) : Res :=
  evt (s.hostTakes h.port && decide (h.hoff < 2 ^ 46)) (fun s =>
    let hi := (s.hostAt h.port).getD 0
    match s.windowAt hi h.hoff with
    | some sl => s.postWrite h sl
    | none =>
      if s.isDb h.port ∧ ¬ h.ptl ∧ h.mv ≤ 1 then match s.backTrans h.port hi (h.hoff / 64 * 64) with
        | some fpa => s.hostWb h.port hi fpa (h.mv == 1) h.data h.way
        | none => (s.emit (.s2m h.port 1 (h.hoff / 64 * 64) 0 false 0)).bindMiss h.port
      else s.hostWrite h hi) s

/-- POSTING_WINDOW_WRITE (R115, R116). -/
def execPostingWindowWrite (h : HostOp) (s : State) : Res :=
  evt (s.hostTakes h.port && decide (h.hoff < 2 ^ 46) && (s.windowAt ((s.hostAt h.port).getD 0) h.hoff).isSome)
    (fun s => match s.windowAt ((s.hostAt h.port).getD 0) h.hoff with
      | some sl => s.postWrite h sl
      | none => s) s

/-- A host's answer to the back-invalidate of one line: RspS, or RspI, or RspWbPend while a write-back of the line has come and
its completion has not been sent (R86). -/
def State.biAnswer (s : State) (port hi line : Nat) (shared : Bool) : State :=
  let dp := s.hs.asDat.contains (port, line)
  let pend := s.hs.wbOpen.contains (port, line) && ! dp
  let s1 : State := { s with hs := { s.hs with
    biOpen := dropOf (port, line) s.hs.biOpen, asDat := dropOf (port, line) s.hs.asDat
    biAddr := s.hs.biAddr.filter (fun x => ¬ (x.1 = port ∧ x.2.2 = line)) } }
  let r : RspKind := if shared then .rspS else if pend then .wbPend else .rspI
  let m : MsgOp := { src := .host hi, fpa := line * 64, dp := dp, k := false, nd := false, poison := false, lmask := 0, data := 0 }
  (s1.count 0x0D port 0 (b2n (pend && ! shared))).cellIn
    { cls := 2, opc := if shared then 0x11 else if pend then 0x13 else 0x10, src := port, dst := 0x40 + sliceHash m.fpa, addr := m.fpa, dp := dp, load := .rsp m r }

/-- M2S_BIRSP (R82, R85, R86): BIRspS or BIRspI, or in its Blk form for every line of the sector whose back-invalidate is open. -/
def execM2sBirsp (port hoff : Nat) (b : BirspOp) (s : State) : Res :=
  let line? := ((s.hostAt port).bind (fun hi => s.backTrans port hi (hoff / 64 * 64))).map lineOf
  evt (s.running && (s.port port).up && s.isDb port && (match line? with | some l => s.hs.biOpen.contains (port, l) | none => false))
    (fun s => match s.hostAt port, line? with
      | some hi, some line =>
        if b.blk then [0, 1, 2, 3].foldl (fun s j => if s.hs.biOpen.contains (port, line / 4 * 4 + j) then s.biAnswer port hi (line / 4 * 4 + j) b.shared else s) s
        else s.biAnswer port hi line b.shared
      | _, _ => s) s

/-- BICONFLICT (R88): the acknowledgement follows every completion owed for the line. -/
def execBiconflict (port hoff : Nat) (s : State) : Res :=
  let line? := ((s.hostAt port).bind (fun hi => s.backTrans port hi (hoff / 64 * 64))).map lineOf
  evt (s.running && (s.port port).up && s.isDb port && line?.isSome) (fun s => match line? with
    | some line =>
      if s.hs.owed.contains (port, line) then { s with hs := { s.hs with conflicts := addOnce (port, line) s.hs.conflicts } }
      else s.emit (.s2m port 4 (line * 64) 0 false 0)
    | none => s) s

/-! ### CXL.cache requests (R196, Table 2.9) -/

/-- Request of a D2H opcode, numbered in the order of Table 2.9: RdShared, RdCurr, RdOwn, RdOwnNoData,
ItoMWr, WOWrInvF, WOWrInv, CleanEvict, CleanEvictNoData; DirtyEvict is 9. -/
def d2hKind (op : Nat) : ReqKind × Bool :=
  match op with
  | 0 => (.rds, false) | 1 => (.rds, true) | 2 => (.rdx, false) | 3 => (.upg, false)
  | 4 | 5 => (.wrInvFull, false) | 6 => (.wrInvPart, false) | _ => (.evict, false)

/-- D2H_REQ (R196, R415, R436). -/
def execD2hReq (dev op : Nat) (r : ReqOp) (s : State) : Res :=
  evt (s.running && ! s.svc.ingressShut && decide (op < 10) && decide (r.fpa < 2 ^ 52) && (match s.devPort dev with
      | some p => (s.port p).up && ! (s.port p).fenced
      | none => false)) (fun s =>
    match s.devPort dev with
    | none => s
    | some p =>
      if op = 9 then s.cellIn { cls := 3, opc := 0x1C, src := p, dst := 0x40 + sliceHash r.fpa, addr := r.fpa, len := 63, load := .wb (.dev dev) r.fpa false r.data false }
      else
        let k := d2hKind op
        let q : QReq := { kind := k.1, r := { r with src := .dev dev, nt := k.2 }, record := 0, nextRec := 0 }
        let w := s.wardDecide (Tbl.get (0xFFF : BitVec 12) s.ward.devCut dev) r.fpa
        match rightsLeave w.1 k.1 with
        | none => (((s.sample (q.sampled p p none)).smpEnd q.r.src 0 (0, lineOf q.r.fpa) 2).deny none p w.2).hostDenied q
        | some .evict => s.cross p q .clean
        | some k1 => s.ingress p { q with kind := k1 } .clean) s

/-! ### Completions of expanders (R48, R93, R193) -/

/-- The oldest access of a line, as a read or a write, that a port has been handed and its expander has not completed. -/
def State.handedAt (s : State) (port fpa : Nat) (write : Bool) : Option Access :=
  if s.isDown port && (s.port port).up then (s.arbOf port).handed.find? (fun x => lineOf x.fpa == lineOf fpa && x.write == write) else none

/-- A completion has come from an expander: its access is no longer open, and no timeout stands in a row (R202). -/
def State.memDone (s : State) (port : Nat) (x : Access) : State :=
  ((s.arbEnded port x).modPort port (fun y => { y with dsFails := 0 })).latDone port x.fpa

/-- What a completion brings crosses as a cell (Table 3.1): to the keeper slice, a spilled cell to its spill engine, a patrol read to its
scrub engine. The second copy of a write and the write of a spilled cell tell nobody. -/
def State.memCell (s : State) (port : Nat) (x : Access) (psn : Bool) (d : Line) : State :=
  let ks := 0x40 + sliceHash x.fpa
  let c : Cell := { cls := 2, opc := 0x14, src := port, dst := ks, addr := x.fpa, load := .ndr x.fpa }
  match x.kind with
  | .txn | .side | .wb => s.putCell (if x.write then c else { c with opc := 0x18, poison := psn, load := .drs x.fpa psn d })
  | .unspill => let y := s.spillSlot x.fpa; s.putCell { c with cls := 4, opc := 0, dst := 0x70 + y.1, tag := (62 + y.1) * 1024, len := 63, poison := psn, load := .back y.1 y.2 }
  | .patrol => s.putCell { c with cls := 3, opc := 0x18, dst := 0x72 + port / 32, len := 63, poison := psn, load := .head }
  | .copy | .spill => s

/-- S2M_DRS (R48, R123): a data-less completion goes to the keeper, and the data from the port straight to the requester
(State.grant). -/
def execS2mDrs (port fpa : Nat) (poison : Bool) (data : Line) (s : State) : Res :=
  evt (s.handedAt port fpa false).isSome (fun s => match s.handedAt port fpa false with
    | some x => (s.memDone port x).memCell port x poison data
    | none => s) s

/-- S2M_NDR_CMP (R93, R99). -/
def execS2mNdrCmp (port fpa : Nat) (s : State) : Res :=
  evt (s.handedAt port fpa true).isSome (fun s => match s.handedAt port fpa true with
    | some x => (s.memDone port x).memCell port x false 0
    | none => s) s

/-! ### Passed-through partners (R194, R195) -/

/-- The host a passed-through partner, or a logical device of it, is bound to. -/
def State.bridgeHost (s : State) (port ld : Nat) : Option Nat := (s.pool.bridge.find? (fun e => e.2 == port + 64 * ld)).map (fun e => e.1 / 16)

/-- A passed-through partner is at a port and attached. -/
def State.passLive (s : State) (port : Nat) : Bool :=
  s.running && (s.port port).up && ! (s.port port).fenced && (s.partner port).any (fun x => x.kind == 5 && x.timerEnd.isNone)

/-- One line of a passed-through request past its charge: translated and ward-checked as an access of its own (R47, R195, R428,
Table 9.9). -/
def State.passLine (s : State) (sl : Option Nat) (port : Nat) (q : QReq) : State :=
  let read := q.kind == .rds
  let fail := fun (s : State) => if read then s.emit (.tlp port 3 []) else s
  match s.sliceFpa (sl.getD 512) q.r.fpa with
  | none => fail (s.bindMiss port)
  | some (e, fpa) =>
    let w := s.wardDecide (s.sliceCut sl) fpa
    if (rightsLeave w.1 q.kind).isNone then fail (s.deny sl port w.2)
    else if e.access = 1 ∧ ¬ read then s.fault 0x0104 (s.portLoc port) port
    else s.ingress port { q with r := { q.r with fpa := fpa } } .clean

/-- Lines of a passed-through request past its charge. -/
def State.passGo (s : State) (sl : Option Nat) (port : Nat) (qs : List QReq) : State := qs.foldl (fun s q => s.passLine sl port q) s

/-- Bytes of a write put into a line from byte `lo` on. -/
def lineFrom (lo : Nat) (bs : List Byte) : Line :=
  bs.zipIdx.foldl (fun (r : Line) p => r ||| ((p.1.zeroExtend 512 : Line) <<< (8 * (lo + p.2)))) 0

/-- The requests for the lines of a passed-through request (R195): reads, or writes of its bytes. -/
def passLines (port addr len : Nat) (write : Bool) (data : List Byte) : List QReq :=
  (List.range ((addr % 64 + len + 63) / 64)).map (fun i =>
    let lo := if i = 0 then addr % 64 else 0
    let hi := min 64 (addr % 64 + len - 64 * i)
    let mask : BitVec 64 := BitVec.ofNat 64 (2 ^ hi - 2 ^ lo)
    let k : ReqKind := if ¬ write then .rds else if mask = allBytes then .wrInvFull else .wrInvPart
    let bs := (data.drop (64 * i + lo - addr % 64)).take (hi - lo)
    ({ kind := k, r := { src := .io port, fpa := (addr / 64 + i) * 64, nt := true, mask := mask, data := if write then lineFrom lo bs else 0 }, record := 0, nextRec := 0 } : QReq))

/-- PASSTHRU_MEM_REQUEST (R195): an address below 2^46 is taken as an offset in the host's HDM range (log 43). -/
def execPassthruMemRequest (d : LogDev) (pasid addr len : Nat) (write : Bool) (data : List Byte) (s : State) : Res :=
  evt (s.passLive d.port && (s.bridgeHost d.port d.ld).isSome && ! s.svc.ingressShut && decide (1 ≤ len) && decide (len ≤ 4096)) (fun s =>
    match s.bridgeHost d.port d.ld with
    | none => s
    | some h =>
      if 2 ^ 46 ≤ addr then (match s.hostPort h with | some p => s.emit (.tlp p 0 []) | none => s)
      else match s.sliceKey h pasid with
        | none => s.emit (.tlp d.port 1 [])
        | some n =>
          let qs := passLines d.port addr len write data
          let c := s.charge (some n) d.port (if write then 2 else 1) ((len + 63) / 64 * 64) (.pass d.port qs)
          if c.2 then c.1.passGo (some n) d.port qs else c.1) s

/-- A TLP is a configuration request, by Fmt and Type of its first byte (PRESUMED from PCI Express, log 108). -/
def isCfg (tlp : List Byte) : Bool := match tlp with | b :: _ => b == 0x04 || b == 0x05 || b == 0x44 || b == 0x45 | [] => false

/-- CXLIO_TLP (R194, R218, R265): between a passed-through partner and its host routed unchanged; toward a departed partner it is
answered Unsupported Request. A host's configuration request is answered Request Retry Status until the module is ready there. -/
def execCxlioTlp (d : LogDev) (fromHost : Bool) (tlp : List Byte) (s : State) : Res :=
  evt (s.running && (if s.isUp d.port then fromHost && (s.port d.port).up && (s.port d.port).enum && isCfg tlp
      else (s.bridgeHost d.port d.ld).isSome && (fromHost || s.passLive d.port))) (fun s =>
    if s.isUp d.port then s.emit (.tlp d.port 4 [])
    else match (s.bridgeHost d.port d.ld).bind s.hostPort with
    | none => s
    | some hp =>
      if ¬ fromHost then s.emit (.tlp hp 0 tlp)
      else if isCfg tlp ∧ (s.port hp).enum then s.emit (.tlp hp 4 [])
      else if s.passLive d.port then s.emit (.tlp d.port 0 tlp) else s.emit (.tlp hp 1 [])) s

/-- CXL_MEMORY_DEVICE_COMMAND (R185): opcodes of the CXL specification on any upstream port; the vendor
opcodes of Zorne are unsupported there. -/
def execCxlMemoryDeviceCommand (port opcode : Nat) (s : State) : Res :=
  evt (s.isUp port && (s.port port).up) (fun s => s.emit (.cxlMbx port opcode (decide (opcode < 0xC000)))) s

end Sys2Proof.Machine
end

