-- ==== Sys2Proof/Machine/Coherence.lean ====
section
/-! DEFINITION. The coherence messages of Table 2.7 as they reach a keeper slice, at the home or at the proxy (chapter 2). -/
namespace Sys2Proof.Machine

/-! ### Requests (class REQ) -/

/-- A request of a sender reaches its slice: a module of the hierarchy at the home, a present caching
agent, or an agent of this module's own; ingress is closed while the module drains (R52). -/
def State.reqFrom (s : State) (a : Agent) (fpa : Nat) : Bool :=
  s.running && decide (fpa < 2 ^ 52) && (match a with
    | .mod m => s.homed fpa && m != s.glob.midx && s.present a
    | .host _ | .dev _ => ! s.svc.ingressShut && s.present a
    | _ => ! s.svc.ingressShut)

/-- A request message of an opcode. -/
def execReq (k : ReqKind) (r : ReqOp) (s : State) : Res :=
  evt (s.reqFrom r.src r.fpa) (fun s => s.admitReq { kind := k, r := r, record := 0, nextRec := 0 }) s

/-- RDS: a read for a shared copy (R98). -/
def execRds (r : ReqOp) (s : State) : Res := execReq .rds r s

/-- RDX: a read with exclusive ownership (R98). -/
def execRdx (r : ReqOp) (s : State) : Res := execReq .rdx r s

/-- UPG: exclusive ownership of a line already held (R98, R101). -/
def execUpg (r : ReqOp) (s : State) : Res := execReq .upg r s

/-- WRINVFULL: a full-line write with invalidation (R98). -/
def execWrinvfull (r : ReqOp) (s : State) : Res := execReq .wrInvFull r s

/-- WRINVPART: a partial write with its byte mask (R98, R123). -/
def execWrinvpart (r : ReqOp) (s : State) : Res := execReq .wrInvPart r s

/-- ATOMOP: one far-atomic record (R112 to R121). -/
def execAtomop (r : ReqOp) (record nextRec : BitVec 128) (s : State) : Res :=
  evt (s.reqFrom r.src r.fpa) (fun s => s.admitReq { kind := .atomOp, r := r, record := record, nextRec := nextRec, area := s.posterArea r.src }) s

/-- EVICT: a clean holder has dropped the line; no response (R76, R98, R100). -/
def execEvict (r : ReqOp) (s : State) : Res := execReq .evict r s

/-! ### Write-backs and snoops -/

/-- WBDATA (R99, R100, R104): a write-back of an agent this slice knows. -/
def execWbdata (m : MsgOp) (s : State) : Res :=
  evt (s.running && s.wbTakes m.src m.fpa) (fun s => s.wbArrives m.src m.fpa m.k m.data m.poison) s

/-- SNPINV (R109): drop to I. -/
def execSnpinv (m : MsgOp) (s : State) : Res := evt (s.fromHome m) (fun s => s.snpTaken .inv m) s

/-- SNPSHR (R109): drop to S with memory current. -/
def execSnpshr (m : MsgOp) (s : State) : Res := evt (s.fromHome m) (fun s => s.snpTaken .shr m) s

/-- SNPDATA (R109): supply dirty data. -/
def execSnpdata (m : MsgOp) (s : State) : Res := evt (s.fromHome m) (fun s => s.snpTaken .data m) s

/-- BIRECALL (R82, R109): SnpInv for each masked line of the sector. -/
def execBirecall (m : MsgOp) (s : State) : Res := evt (s.fromHome m) (fun s => s.snpTaken .recall m) s

/-! ### Responses (class RSP) -/

/-- A response message of an opcode. -/
def execRsp (r : RspKind) (m : MsgOp) (s : State) : Res := evt (s.rspTakes r m) (fun s => s.rspArrives m r) s

/-- RSPI: now I (R82). -/
def execRspi (m : MsgOp) (s : State) : Res := execRsp .rspI m s

/-- RSPS: now S (R82). -/
def execRsps (m : MsgOp) (s : State) : Res := execRsp .rspS m s

/-- RSPO: now O, its DataO with it (R82). -/
def execRspo (m : MsgOp) (s : State) : Res := execRsp .rspO m s

/-- RSPWBPEND: the dirty data travels as an earlier WbData (R103, R104). -/
def execRspwbpend (m : MsgOp) (s : State) : Res := execRsp .wbPend m s

/-- CMP (R93, R99, R108): a requester's acknowledgement closes the transaction at the home; at the proxy a
home's completion ends a write-back of the line first, otherwise the request forwarded. -/
def execCmp (m : MsgOp) (s : State) : Res := evt (s.cmpTakes m) (fun s => s.cmpTaken m) s

/-- CMPPOISON (R81, R123): the completion of a forwarded request is poisoned. -/
def execCmppoison (m : MsgOp) (s : State) : Res := evt (s.cmpPoisonTakes m) (fun s => s.cmpPoisonTaken m) s

/-! ### Data (class DAT) -/

/-- A data message of an opcode: a holder's answer, or the home's grant of a forwarded request. -/
def execDat (opc : Nat) (g : Grant) (m : MsgOp) (s : State) : Res := evt (s.datTakes opc g m) (fun s => s.datTaken opc g m) s

/-- DATAS: the home grants S; or a holder's dirty data after SnpShr (R81). -/
def execDatas (m : MsgOp) (s : State) : Res := execDat 0x18 .dataS m s

/-- DATAE: the home grants exclusive, clean (R81). -/
def execDatae (m : MsgOp) (s : State) : Res := execDat 0x19 .dataE m s

/-- DATAM: the home grants exclusive with dirty data; or a holder's dirty data, the holder now I (R81). -/
def execDatam (m : MsgOp) (s : State) : Res := execDat 0x1A .dataM m s

/-- DATAO: a holder's dirty data after SnpData, the holder keeping O (R81). -/
def execDatao (m : MsgOp) (s : State) : Res := execDat 0x1B .none m s

/-! ### Queue and timeout -/

/-- The oldest queued request of a line at a slice. -/
def State.queuedAt (s : State) (ks fpa : Nat) : Option QReq :=
  s.keeper.cq.find? (fun q => sliceHash q.r.fpa == ks && lineOf q.r.fpa == lineOf fpa)

/-- CONFLICT_QUEUE_RESUME (R91 to R94): the oldest queued request of a line that can open a transaction does. -/
def execConflictQueueResume (ks fpa : Nat) (s : State) : Res :=
  evt (match s.queuedAt ks fpa with | some q => ! s.mustQueue q | none => false) (fun s => match s.queuedAt ks fpa with
    | some q => ({ s with keeper := { s.keeper with cq := s.keeper.cq.erase q } } : State).admitAgain q
    | none => s) s

/-- Location and port of a snoop's holder: its port, or the trunk port toward its module (R125). -/
def State.holderLoc (s : State) (a : Agent) : Loc × Nat :=
  match a with
  | .host h => match s.hostPort h with | some p => (s.portLoc p, p) | none => (s.supLoc, 0xFF)
  | .dev d => match s.devPort d with | some p => (s.portLoc p, p) | none => (s.supLoc, 0xFF)
  | .mod m => match s.trunkTo m with | some t => (s.tpLoc t, 0x40 + t) | none => (s.supLoc, 0xFF)
  | _ => (s.supLoc, 0xFF)

/-- SNOOP_TIMEOUT (R125): the holder is taken as departed for that line, and SNOOP_TIMEOUT is reported. -/
def execSnoopTimeout (fpa : Nat) (holder : Agent) (s : State) : Res :=
  evt (s.waitOf holder (lineOf fpa)).isSome (fun s => match s.waitOf holder (lineOf fpa) with
    | some w => (((s.smpEnd w.agent 1 (1, w.line / 4) 4).synthesise w).count 0x4C (sliceHash fpa) 0 1).fault 0x010B (s.holderLoc holder).1 (s.holderLoc holder).2
    | none => s) s

end Sys2Proof.Machine
end

