-- ==== Sys2Proof/Machine/DmaCmd.lean ====
section
/-! DEFINITION. DMAADM group and the DMA registers' doorbells and controls (chapter 7). -/
namespace Sys2Proof.Machine

/-! ### Channels -/

/-- Location code of a channel as DMA_CH_SET names it; a channel outside 0 to 63 has none. -/
def chanOk (ch : Nat) : Bool := decide (ch < 64)

/-- Rings a channel serves. -/
def State.ringsOfCh (s : State) (ch : Nat) : List Nat := (List.range 256).filter (fun n => (s.ring n).state != .unassigned && (s.ring n).ch == ch)

/-- A slice is frozen or on its way there. -/
def State.notActive (s : State) (sl : Option Nat) : Bool := (sl.bind s.slice).any (fun x => x.state != .active)

/-- The channel serves a background operation of firmware. -/
def State.chanHeld (s : State) (ch : Nat) : Bool := (s.chan ch).fwJob || s.pool.evac.any (fun v => v.ch == ch)

/-- DMA_CH_SET (R318, R319, R364, R376, R461): slice 0x1FF stands for none. -/
def execDmaChSet (f : Frame) (ch : Nat) (slice prio share wdog : Option Nat) (s : State) : Res :=
  command 0xC701 f (.dmaChSet f ch slice prio share wdog)
    (fun s =>
      let goal : Option Nat := slice.bind (fun n => if n = 0x1FF then none else some n)
      let moves := match slice with | some _ => goal != (s.chan ch).slice | none => false
      checks
        [(! chanOk ch, rcNotFound),
         (goal.any (fun n => (s.slice n).isNone), rcNotFound),
         (prio.any (fun n => decide (7 < n)) || share.any (fun n => decide (255 < n)) || wdog.any (fun n => decide (60000 < n)), rcParam),
         (s.chanHeld ch, rcBusy),
         (s.notActive (s.chan ch).slice || s.notActive goal, rcBusy),
         (moves && ! (s.ringsOfCh ch).isEmpty, rcBusy)])
    (fun s =>
      let f := fun (x : Chan) => { x with
        slice := match slice with
          | some n => if n = 0x1FF then none else some n
          | none => x.slice
        prio := prio.getD x.prio, share := share.getD x.share, wdog := wdog.getD x.wdog }
      (s.modCh ch f, rcOk, [])) s

/-! ### Rings -/

/-- A range of slice addresses lies wholly in addresses the slice translates (R345). -/
def State.sliceRange (s : State) (sl base size : Nat) : Bool :=
  decide (base + size ≤ 2 ^ 48) &&
  (List.range ((base + size - 1) / 2 ^ 28 - base / 2 ^ 28 + 1)).all (fun i => (s.sliceFpa sl ((base / 2 ^ 28 + i) * 2 ^ 28)).isSome)

/-- Submission rings that complete into a completion ring. -/
def State.ringsOfCq (s : State) (cq : Nat) : List Nat := (List.range 256).filter (fun n => (s.ring n).state != .unassigned && (s.ring n).cq == cq)

/-- The checks of DMA_RING_ASSIGN (R319, R320, R345 to R347, R461). -/
def State.ringCheck (s : State) (ring ch slot sqBase sqLog cq cqBase cqLog vec : Nat) : Option Nat :=
  let sl := (s.chan ch).slice
  let n := sl.getD 512
  let shared := s.ringsOfCq cq
  checks
    [(decide (255 < ring) || decide (255 < cq) || ! chanOk ch, rcNotFound),
     (sl.isNone, rcParam),
     (s.notActive sl, rcBusy),
     ((s.ring ring).state != .unassigned, rcBusy),
     (decide (15 < slot) || decide (2047 < vec), rcParam),
     (decide (sqLog < 4) || decide (16 < sqLog) || decide (cqLog < 4) || decide (16 < cqLog), rcParam),
     (decide (sqBase % 4096 ≠ 0) || decide (cqBase % 4096 ≠ 0), rcParam),
     (! s.sliceRange n sqBase (64 * 2 ^ sqLog) || ! s.sliceRange n cqBase (16 * 2 ^ cqLog), rcParam),
     ((s.sliceRings n).any (fun r => (s.ring r).slot == slot), rcBusy),
     (decide (8 ≤ (s.ringsOfCh ch).length), rcNoRes),
     (! shared.isEmpty && (s.cring cq).slice != sl, rcBusy),
     (! shared.isEmpty && ((s.cring cq).base != cqBase || (s.cring cq).log2 != cqLog), rcParam),
     (decide (8 ≤ shared.length), rcNoRes)]

/-- A completion ring zero-filled, page by page (R347). -/
def State.zeroRing (s : State) (sl base size : Nat) : State :=
  (List.range ((size + 4095) / 4096)).foldl (fun s i => match s.sliceFpa sl (base + 4096 * i) with
    | some (_, fpa) => s.emit (.poolWr fpa (min 4096 (size - 4096 * i)) 0)
    | none => s) s

/-- DMA_RING_ASSIGN (R345 to R347): a completion ring in use keeps its indices. -/
def execDmaRingAssign (f : Frame) (ring ch slot sqBase sqLog cq cqBase cqLog vec : Nat) (s : State) : Res :=
  command 0xC702 f (.dmaRingAssign f ring ch slot sqBase sqLog cq cqBase cqLog vec)
    (fun s => s.ringCheck ring ch slot sqBase sqLog cq cqBase cqLog vec)
    (fun s =>
      let sl := (s.chan ch).slice
      let fresh := (s.ringsOfCq cq).isEmpty
      let s1 := s.modRing ring (fun _ => { state := .off, ch := ch, slot := slot, base := sqBase, log2 := sqLog, cq := cq })
      let s2 := if fresh then (s1.modCring cq (fun _ => { slice := sl, base := cqBase, log2 := cqLog, vec := vec })).zeroRing (sl.getD 512) cqBase (16 * 2 ^ cqLog)
        else s1.modCring cq (fun c => { c with vec := vec })
      (s2, rcOk, [])) s

/-- DMA_RING_RELEASE (R364): only in OFF with IDLE; a completion ring no ring uses any more is free. -/
def execDmaRingRelease (f : Frame) (ring : Nat) (s : State) : Res :=
  command 0xC703 f (.dmaRingRelease f ring)
    (fun s => checks
      [(decide (255 < ring) || (s.ring ring).state == .unassigned, rcNotFound),
       ((s.ring ring).state != .off || ! s.ringIdle ring, rcBusy)])
    (fun s =>
      let cq := (s.ring ring).cq
      let c := (s.ring ring).ch
      let s1 := (s.modRing ring (fun _ => {})).modCh c (fun x => { x with pre := x.pre.filter (fun y => y.ring != ring) })
      (if (s1.ringsOfCq cq).isEmpty then s1.modCring cq (fun _ => {}) else s1, rcOk, [])) s

/-! ### Status (R375, R377) -/

/-- Code of a ring state (Table 7.8). -/
def RState.code (r : RState) : Nat := match r with | .unassigned => 0 | .off => 1 | .run => 2 | .drain => 3 | .error => 4

/-- STATE of DMA_CH_STATUS: 0 RUN, 1 STOPPING, 2 STOPPED, 3 PARKED, 4 RESET, 5 FREE (Table 7.12). -/
def State.chanState (s : State) (c : Nat) : Nat :=
  let x := s.chan c
  if x.out then 4 else if x.slice.isNone ∧ ¬ x.fwJob then 5 else if s.dma.parked then 3
  else if x.stop then (if x.begun.isEmpty then 2 else 1) else 0

/-- The paced descriptor a channel waits with, not all of whose bursts have been issued. -/
def Chan.cur (x : Chan) : Option Begun := x.begun.find? (fun b => ! b.issued)

/-- DMA_CH_STATUS (Table 7.12). -/
def State.chStatus (s : State) (c : Nat) : Nat :=
  let x := s.chan c
  let rel := match x.cur with | some b => if dPace b.desc then b.releases else 0 | none => 0
  (x.last.map (fun l => l.2)).getD 0 % 2 ^ 16 * 2 ^ 48 + (x.last.map (fun l => l.1)).getD 0xFF * 2 ^ 40 + x.slice.getD 0x1FF * 2 ^ 31
    + s.chanState c * 2 ^ 28 + b2n x.preempted * 2 ^ 27 + x.prio * 2 ^ 24 + x.share * 2 ^ 16 + min 255 rel * 2 ^ 8

/-- DMA_RING_STATUS (Table 7.12). -/
def State.ringStatus (s : State) (n : Nat) : Nat :=
  let r := s.ring n
  r.fetch % 2 ^ 16 * 2 ^ 48 + r.head % 2 ^ 16 * 2 ^ 32 + r.tail % 2 ^ 16 * 2 ^ 16 + b2n r.phase * 2 ^ 15 + r.state.code * 2 ^ 12
    + b2n (s.ringIdle n) * 2 ^ 11 + r.lastErr % 128 * 2 ^ 4

/-- DMA_CQ_STATUS (Table 7.12). -/
def State.cqStatus (s : State) (n : Nat) : Nat :=
  let c := s.cring n
  c.tail % 2 ^ 16 * 2 ^ 48 + c.head % 2 ^ 16 * 2 ^ 32 + c.outst % 2 ^ 17 * 2 ^ 15 + b2n c.phase * 2 ^ 14 + b2n c.slice.isSome * 2 ^ 13

/-- DMA_RING_CTL as it reads. -/
def State.ringCtl (s : State) (n : Nat) : Nat :=
  let r := s.ring n
  b2n r.stopOnErr * 2 + b2n (r.state == .run)

/-- A slice named by a tenant is its own (R488). -/
def tenantElse (role own slice : Nat) : Bool := role == 4 && own != slice

/-- DMA_STATUS (R377, R488): channel, ring and window state of a slice, or of the module for slice 0x1FF. -/
def execDmaStatus (f : Frame) (slice : Nat) (s : State) : Res :=
  commandR 0xC704 f (.dmaStatus f slice)
    { guard := fun role own s => checks [(tenantElse role own slice, rcRole), (slice != 0x1FF && (s.slice slice).isNone, rcNotFound)]
      run := fun _ _ s =>
        let cs := if slice = 0x1FF then List.range 64 else s.sliceChans slice
        let rs := if slice = 0x1FF then (List.range 256).filter (fun n => (s.ring n).state != .unassigned) else s.sliceRings slice
        let ws := (List.range 16).filter (fun w => match (s.win w).dfn with | some d => slice == 0x1FF || d.owner == slice | none => false)
        (s, rcOk, cs.flatMap (fun c => [c, s.chStatus c]) ++ rs.flatMap (fun n => [n, s.ringStatus n, s.cqStatus (s.ring n).cq])
          ++ ws.flatMap (fun w => [w, b2n (s.win w).activeB, (s.win w).epoch, b2n (s.win w).step.isSome])) } s

/-! ### Alias windows (R365, R366) -/

/-- The extents of this module a definition's sets name, each once per set. -/
def aliasExts (midx : Nat) (d : WinDef) : List Nat :=
  (if d.homeA = midx then (List.range d.next).map (d.fextA + ·) else []) ++ (if d.homeB = midx then (List.range d.next).map (d.fextB + ·) else [])

/-- The sets of a definition on other homes. -/
def aliasFar (midx : Nat) (d : WinDef) : List (Nat × Nat × Nat) :=
  (if d.homeA = midx then [] else [(d.homeA, d.fextA, d.next)]) ++ (if d.homeB = midx then [] else [(d.homeB, d.fextB, d.next)])

/-- Extents may belong to a set: BOUND, SUSPECT, FAILED or EVAC_SRC (R366). -/
def State.aliasState (s : State) (e : Nat) : Bool :=
  let x := (s.ext e).state
  x == .bound || x == .suspect || x == .failed || x == .evacSrc

/-- Some alias binding names a window. -/
def State.aliasBound (s : State) (w : Nat) : Bool := s.pool.ent.any (fun e => e.2.home == 15 && e.2.fext / 4096 == w)

/-- The change from one definition to another is one R366 rejects. -/
def State.aliasBusy (s : State) (w : Nat) (new : Option WinDef) : Bool :=
  let x := s.win w
  match x.dfn with
  | none => false
  | some o => match new with
    | none => s.aliasBound w || x.step.isSome
    | some d =>
      let actOld := if x.activeB then (o.homeB, o.fextB) else (o.homeA, o.fextA)
      let actNew := if x.activeB then (d.homeB, d.fextB) else (d.homeA, d.fextA)
      let inOld := if x.activeB then (o.homeA, o.fextA) else (o.homeB, o.fextB)
      let inNew := if x.activeB then (d.homeA, d.fextA) else (d.homeB, d.fextB)
      ((o.next != d.next || o.owner != d.owner || actOld != actNew) && s.aliasBound w) || (x.step.isSome && (inOld != inNew || o.next != d.next || actOld != actNew))

/-- The checks of DMA_ALIAS_SET made on this module (R365, R366, Table 5.5). -/
def State.aliasCheck (s : State) (w : Nat) (new : Option WinDef) : Option Nat :=
  match new with
  | none => checks [(decide (15 < w), rcParam), ((s.win w).dfn.isNone, rcNotFound), (s.aliasBusy w none, rcBusy)]
  | some d =>
    let es := aliasExts s.glob.midx d
    let old := match (s.win w).dfn with | some o => aliasExts s.glob.midx o | none => []
    checks
      [(decide (15 < w) || decide (d.next = 0) || decide (4096 < d.next) || decide (65536 < d.fextA + d.next) || decide (65536 < d.fextB + d.next), rcParam),
       ((s.slice d.owner).isNone, rcNotFound),
       (s.aliasBusy w (some d), rcBusy),
       ((aliasFar s.glob.midx d).any (fun x => ! s.hier.members.any (fun y => y.idx == x.1) || s.hier.lost.contains x.1), rcPeerLost),
       (es.any (fun e => ! s.aliasState e), rcParam),
       (es.any (fun e => decide (1023 + (old.filter (· == e)).length < (s.ext e).binds + (es.filter (· == e)).length)), rcNoRes)]

/-- A definition no longer counts as bindings of its extents; other homes are told (R366, R245). -/
def State.aliasUnbind (s : State) (d : WinDef) : State :=
  let s1 := (aliasFar s.glob.midx d).foldl (fun s x => s.emit (.homeReq x.1 1 x.2.1 x.2.2)) s
  (aliasExts s.glob.midx d).foldl (fun s e => s.unbind1 e) s1

/-- A window's definition written: the new extents are counted before the old ones are let go. -/
def State.aliasWrite (s : State) (w : Nat) (new : Option WinDef) : State :=
  let old := (s.win w).dfn
  let s1 : State := match new with
    | some d => (aliasExts s.glob.midx d).foldl (fun (s : State) e => s.modExt e (fun x => { x with binds := x.binds + 1 })) s
    | none => s
  let s2 : State := match old with
    | some o => s1.aliasUnbind o
    | none => s1
  (s2.modWin w (fun x => match new with
    | none => {}
    | some d => if x.dfn.isNone then { dfn := some d } else { x with dfn := some d })).bindGen

/-- DMA_ALIAS_SET (R365, R366). Sets on other homes are asked for there first (kind 6); the request
keeps the definition as two entries, set A with the owner in `hoffExt`, and set B. -/
def execDmaAliasSet (f : Frame) (win : Nat) (dfn : Option WinDef) (s : State) : Res :=
  command 0xC705 f (.dmaAliasSet f win dfn) (fun s => s.aliasCheck win dfn)
    (fun s => match dfn with
      | none => (s.aliasWrite win none, rcOk, [])
      | some d =>
        let far := aliasFar s.glob.midx d
        if far = [] then (s.aliasWrite win (some d), rcOk, [])
        else
          let a : BindReq := { hoffExt := d.owner, home := d.homeA, fext := d.fextA, nm1 := d.next - 1, access := 0, dcr := 0 }
          let b : BindReq := { hoffExt := d.owner, home := d.homeB, fext := d.fextB, nm1 := d.next - 1, access := 0, dcr := 0 }
          (s.askHomes { frame := f, op := 0xC705, arg := win, binds := [a, b], asks := far.map (fun x => { home := x.1, kind := 6, ext := x.2.1, n := x.2.2 }), done := [], tries := 0 }, rcLater, [])) s

/-- DMA_ALIAS_STATUS (R377): sets, active set, EPOCH, busy mark and alias bindings. -/
def execDmaAliasStatus (f : Frame) (win : Nat) (s : State) : Res :=
  query 0xC706 f (.dmaAliasStatus f win) (fun s => checks [(decide (15 < win), rcParam), ((s.win win).dfn.isNone, rcNotFound)])
    (fun s => match (s.win win).dfn with
      | none => []
      | some d => [d.next, d.homeA, d.fextA, d.homeB, d.fextB, d.owner, b2n (s.win win).activeB, (s.win win).epoch, b2n (s.win win).step.isSome]
        ++ (s.pool.ent.filter (fun e => e.2.home == 15 && e.2.fext / 4096 == win)).flatMap (fun e => [e.1 / 512, e.1 % 512])) s

/-! ### Doorbells and controls (R348, R351, R358 to R362) -/

/-- A doorbell of a submission ring (R348, R361). -/
def State.sqDb (s : State) (ring tail : Nat) : State :=
  let r := s.ring ring
  if r.state = .unassigned then s
  else if r.size ≤ tail then s.dmaEvent 15 ring r.ch
  else s.modRing ring (fun r => { r with tail := tail, lap := tail == r.fetch })

/-- DMA_SQ_DB (R348). -/
def execDmaSqDb (ring tail : Nat) (s : State) : Res :=
  evt (s.running && decide (ring < 256)) (fun s => s.sqDb ring (tail % 65536)) s

/-- A doorbell of a completion ring frees the entries before HEAD (R351); one that names more than is
outstanding, or an index outside the ring, changes nothing. -/
def State.cqDb (s : State) (cq head : Nat) : State :=
  let c := s.cring cq
  let freed := (head + c.size - c.head) % c.size
  if c.slice.isNone ∨ c.size ≤ head ∨ c.outst < freed then s
  else s.modCring cq (fun c => { c with head := head, outst := c.outst - freed })

/-- DMA_CQ_DB (R351). -/
def execDmaCqDb (ring head : Nat) (s : State) : Res :=
  evt (s.running && decide (ring < 256)) (fun s => s.cqDb ring (head % 65536)) s

/-- EN written (Table 7.8): 1 in OFF or ERROR gives RUN, 0 in RUN gives DRAIN. -/
def State.ringEn (s : State) (ring : Nat) (en : Bool) : State :=
  let r := s.ring ring
  if en then (if r.state = .off ∨ r.state = .error then s.modRing ring (fun r => { r with state := .run }) else s)
  else if r.state = .run then s.ringDisable ring else s

/-- DMA_RING_CTL_EN (R358, R359). -/
def execDmaRingCtlEn (ring : Nat) (en : Bool) (s : State) : Res :=
  evt (s.running && decide (ring < 256)) (fun s => s.ringEn ring en) s

/-- ABORT written: in ERROR the posted descriptors are aborted through DRAIN (R360). -/
def State.ringAbort (s : State) (ring : Nat) : State := if (s.ring ring).state = .error then s.ringDisable ring else s

/-- DMA_RING_CTL_ABORT (R360). -/
def execDmaRingCtlAbort (ring : Nat) (s : State) : Res :=
  evt (s.running && decide (ring < 256)) (fun s => s.ringAbort ring) s

/-- CH_STOP (R362). -/
def execChStop (ch : Nat) (stop : Bool) (s : State) : Res :=
  evt (s.running && chanOk ch) (fun s => s.modCh ch (fun x => { x with stop := stop })) s

end Sys2Proof.Machine
end

