-- ==== Sys2Proof/Machine/DmaEng.lean ====
section
/-! DEFINITION. The DMA engine: fetching, beginning and completing descriptors, bursts, pacing, and the table flip (chapter 7). -/
namespace Sys2Proof.Machine

/-! ### Channels at work -/

/-- Crossbar point of a channel's cluster (Table 3.1). -/
def clusterPoint (c : Nat) : Nat := 0x60 + c / 8

/-- The channel can move: in service, not parked by a brownout, not stopped for a reset (R363). -/
def State.chRuns (s : State) (c : Nat) : Bool :=
  chanOk c && s.running && ! (s.chan c).out && ! s.dma.parked && ! s.svc.ingressShut

/-- The channel's slice is ACTIVE (R420). -/
def State.chActive (s : State) (c : Nat) : Bool :=
  match (s.chan c).slice.bind s.slice with | some x => x.state == .active | none => false

/-- A begun descriptor of a channel changed, by its order number. -/
def State.setBegun (s : State) (c : Nat) (b : Begun) : State :=
  s.modCh c (fun x => { x with begun := x.begun.map (fun y => if y.num = b.num then b else y) })

/-- The descriptor stops with a status: no further burst of it is issued (R355). -/
def State.stopDesc (s : State) (c : Nat) (b : Begun) (status : Nat) : State :=
  (s.setBegun c { b with status := status, issued := true, form := none }).modCh c (fun x => { x with staging := [] })

/-! ### Freezing (R420 to R423) -/

/-- The prefetched descriptors of a ring are given back: FETCH returns to the first of them, and one on its way is not taken (R422). -/
def State.unfetch (s0 : State) (ring : Nat) : State :=
  let r := s0.ring ring
  let s := s0.modCh r.ch (fun x => { x with fetching := x.fetching.filter (fun y => y.1 != ring) })
  let n := ((s.chan r.ch).pre.filter (fun f => f.ring == ring)).length
  if n = 0 then s
  else
    let s1 := s.modRing ring (fun r => { r with fetch := (r.fetch + r.size - n % r.size) % r.size, phase := if r.fetch < n then ! r.phase else r.phase, lap := n == r.size })
    s1.modCh r.ch (fun x => { x with pre := x.pre.filter (fun f => f.ring != ring) })

/-- A FREEZING slice none of whose channels has a descriptor in progress is FROZEN, and its freezers are answered (R420, R423). -/
def State.freezeCheck (s : State) (sl : Nat) : State :=
  match s.slice sl with
  | none => s
  | some x =>
    if x.state = .freezing ∧ (s.sliceChans sl).all (fun c => (s.chan c).begun.isEmpty) then
      let s1 := (s.sliceRings sl).foldl (fun s r => s.unfetch r) s
      let s2 := s1.modSlice sl (fun y => { y with state := .frozen, freezers := [] })
      x.freezers.foldl (fun s f => s.lateReply f.1 f.2 rcOk []) s2
    else s

/-! ### Fetching and beginning (R320, R321, R337, R338, R348 to R351) -/

/-- DESCRIPTOR_FETCH (R345, R348, R350): the entry at FETCH of a posted ring, index `fetch`, is read with RdS NT=1. -/
def execDescriptorFetch (ch ring fetch : Nat) (s : State) : Res :=
  let r := s.ring ring
  evt (s.chRuns ch && s.chActive ch && r.state == .run && r.ch == ch && decide (ring < 256) && decide ((s.chan ch).pre.length + (s.chan ch).fetching.length < 1920)
      && ! (s.chan ch).fetching.any (fun y => y.1 == ring) && decide (0 < r.posted) && r.fetch == fetch) (fun s =>
    match (s.chan ch).slice.bind (fun sl => s.sliceFpa sl (r.base + 64 * r.fetch)) with
    | some (_, fpa) =>
      (s.modCh ch (fun x => { x with fetching := x.fetching ++ [(ring, lineOf fpa)] })).cross (clusterPoint ch)
        { kind := .rds, r := { src := .dma ch, fpa := lineOf fpa * 64, nt := true, mask := 0, data := 0 }, record := 0, nextRec := 0 } .clean
    | none => s) s

/-- The descriptor's opcode uses elements: COPY, FILL, CHECK, ATOMIC. -/
def moves (op : Nat) : Bool := 1 ≤ op && op ≤ 4
/-- The opcode uses source addresses. -/
def usesSrc (op : Nat) : Bool := op == 1 || op == 3 || op == 4
/-- The opcode uses destination addresses. -/
def usesDst (op : Nat) : Bool := op == 1 || op == 2

/-- BAD_DESC (Table 7.5). -/
def State.badDesc (s : State) (d : Line) : Bool :=
  let op := dOpcode d
  decide (7 ≤ op) || (moves op && dfld d 6 4 == 7) || (op == 4 && dfld d 6 4 != 4)
  || (op == 5 && (s.win (dfld d 419 416)).dfn.isNone)

/-- MISALIGNED (R338). -/
def misaligned (d : Line) : Bool :=
  let op := dOpcode d
  let es := dEs d
  let bad := fun (n : Nat) => decide (n % es ≠ 0)
  if op = 5 then decide (dfld d 175 128 % 8 ≠ 0)
  else moves op && ((usesSrc op && (bad (dfld d 111 64) || bad (dfld d 255 224) || bad (dfld d 287 256) || bad (dfld d 319 288)))
    || (usesDst op && (bad (dfld d 175 128) || bad (dfld d 351 320) || bad (dfld d 383 352) || bad (dfld d 415 384))))

/-- The status a descriptor begins with: 0, or one that completes it without any data moved. -/
def State.beginStatus (s : State) (f : Fetched) : Nat :=
  if f.psn then 7 else if ¬ f.phaseOk then 4 else if s.badDesc f.desc then 3 else if misaligned f.desc then 2 else 0

/-- A begun descriptor holds back its own ring: a FENCE, or one whose status stops the ring. -/
def State.holdsRing (s : State) (b : Begun) : Bool := dOpcode b.desc == 6 || statusStops b.status (s.ring b.ring).stopOnErr

/-- A ring may begin its next descriptor: RUN, prefetched, a completion entry free, not held back (R320, R351). -/
def State.mayBegin (s : State) (c n : Nat) : Bool :=
  (s.ring n).state == .run && (s.ring n).ch == c && (s.chan c).pre.any (fun f => f.ring == n) && decide (0 < (s.cring (s.ring n).cq).free)
  && ! (s.begunOf n).any s.holdsRing

/-- The ring a channel begins from: the next in ascending number after the one it last began from (R320). -/
def State.nextRing (s : State) (c : Nat) : Option Nat :=
  let start := match (s.chan c).last with | some l => l.1 + 1 | none => 0
  ((List.range 256).map (fun i => (start + i) % 256)).find? (s.mayBegin c)

/-- DESCRIPTOR_BEGIN (R321, R338, R349, R351, R356, R364). -/
def execDescriptorBegin (ch : Nat) (s : State) : Res :=
  evt (s.chRuns ch && s.chActive ch && ! (s.chan ch).stop && (s.chan ch).cur.isNone && (s.nextRing ch).isSome) (fun s =>
    match s.nextRing ch with
    | none => s
    | some n => match (s.chan ch).pre.find? (fun f => f.ring == n) with
      | none => s
      | some f =>
        let st := s.beginStatus f
        let op := dOpcode f.desc
        let b : Begun := { ring := n, idx := f.idx, desc := f.desc, num := s.dma.nextNum, at_ := s.now, pos := 0, done := 0, status := st, issued := st != 0 || op == 0 || op == 6, bursts := [], nburst := 0, crc := 0, applied := 0, refused := 0, taken := 0, releases := 0, recs := [], form := none, committed := false }
        let s1 := s.modCh ch (fun x => { x with begun := x.begun ++ [b], pre := x.pre.erase f, last := some (n, f.idx), wdogNow := max 1 x.wdog, staging := [] })
        let s2 := s1.modCring (s.ring n).cq (fun c => { c with reserved := c.reserved + 1 })
        { s2 with dma := { s2.dma with nextNum := s2.dma.nextNum + 1 } }) s

/-! ### Completing (R321, R337, R352, R355) -/

/-- A FENCE's earlier descriptors have completed (R337). -/
def State.fenceOk (s : State) (c : Nat) (b : Begun) : Bool :=
  (s.chan c).begun.all (fun x => decide (b.num ≤ x.num))
  && (! bit b.desc.toNat 416 || (match (s.chan c).slice with
    | some sl => (s.sliceChans sl).all (fun k => k == c || ((s.chan k).begun.all (fun x => decide (b.num < x.num)) && ! s.keeper.modWr.any (fun w => w.owner == Agent.dma k)))
    | none => true))

/-- A FLIP has begun its steps and they run on. -/
def State.flipRuns (s : State) (c : Nat) (b : Begun) : Bool :=
  s.dma.win.any (fun w => match w.2.flip with | some f => f.1 == c && f.2.1 == b.ring && f.2.2.1 == b.idx && ! w.2.told | none => false)

/-- Everything a begun descriptor waits for has happened (R352). -/
def State.begunDone (s : State) (c : Nat) (b : Begun) : Bool :=
  b.issued && b.bursts.all (fun u => u.openLines.isEmpty) && b.applied + b.refused == b.recs.length
  && (b.status != 0 || ((! s.keeper.modWr.any (fun w => w.owner == Agent.dma c)) && (dOpcode b.desc != 6 || s.fenceOk c b) && (dOpcode b.desc != 5 || ! s.flipRuns c b)))

/-- The oldest descriptor of a channel that can complete: done, and first of its ring. -/
def State.nextDone (s : State) (c : Nat) : Option Begun :=
  (s.chan c).begun.find? (fun b => s.begunDone c b && ! (s.chan c).begun.any (fun x => x.ring == b.ring && decide (x.num < b.num)))

/-- A begun descriptor completes: its entry, slice counter 7, and what waits for it. -/
def State.complete (s : State) (c : Nat) (b : Begun) : State :=
  let sl := (s.chan c).slice
  let s1 := s.descDone b.ring b.idx (dTag b.desc) b.status (s.resultOf b) (dIrq b.desc)
  let s2 := ((s1.modCh c (fun x => { x with begun := x.begun.erase b })).sliceCnt sl 7 1).count 0x5A (c / 8) 0 1
  match sl with
  | some n => s2.freezeCheck n
  | none => s2

/-- A completion event of a channel, for descriptors that meet a test. -/
def completeEvt (ch : Nat) (p : Begun → Bool) (s : State) : Res :=
  evt (s.running && (match s.nextDone ch with | some b => p b | none => false)) (fun s => match s.nextDone ch with
    | some b => s.complete ch b
    | none => s) s

/-- DESCRIPTOR_COMPLETE (R352 to R355). -/
def execDescriptorComplete (ch : Nat) (s : State) : Res := completeEvt ch (fun _ => true) s

/-- NOP: the descriptor completes DONE (R330). -/
def execNop (ch : Nat) (s : State) : Res := completeEvt ch (fun b => dOpcode b.desc == 0) s

/-- FENCE: completes after the earlier descriptors of its channel, or of its slice (R337). -/
def execFence (ch : Nat) (s : State) : Res := completeEvt ch (fun b => dOpcode b.desc == 6) s

/-- DRAIN_DONE (R359): what had not begun completes ABORTED, and the ring enters OFF. -/
def execDrainDone (ring : Nat) (s : State) : Res :=
  evt (decide (ring < 256) && (s.ring ring).state == .drain && (s.begunOf ring).isEmpty
      && ((s.drainList ring).isEmpty || decide (0 < (s.cring (s.ring ring).cq).free))) (fun s => s.drainEnd ring) s

/-! ### Forming bursts (R331 to R333, R341) -/

/-- Where an element's address leads: a status that stops the descriptor, a denial, or its FPA. -/
inductive Place where
  | bad (status : Nat)
  | denied (region : Option Nat)
  | ok (fpa : Nat)
deriving DecidableEq, Repr

/-- An element address of a slice translated and checked: UNMAPPED, FAILED_EXTENT, or for a source the
ward's R (R332, R334, R238). -/
def State.place (s : State) (sl : Nat) (a : Int) (es : Nat) (dst : Bool) : Place :=
  if a < 0 ∨ ((2 ^ 48 - es : Nat) : Int) < a then .bad 6
  else match s.sliceFpa sl a.toNat with
    | none => .bad 6
    | some (e, fpa) =>
      let x := s.ext (extOf fpa)
      if s.homed fpa ∧ x.state = .failed then .bad 8
      else if dst ∧ (e.access = 1 ∨ (s.homed fpa ∧ x.state = .suspect)) then .bad 8
      else if dst then .ok fpa
      else
        let w := s.wardDecide (s.sliceCut (some sl)) fpa
        if hasRight w.1 0 then .ok fpa else .denied w.2

/-- Elements merged into one burst from element `n`: `k` so far, up to `lim` (R333). -/
def grow (d : Line) (lim n k fuel : Nat) : Nat :=
  match fuel with
  | 0 => k
  | f + 1 =>
    let es := dEs d
    let op := dOpcode d
    let follows := fun (a : Nat → Int) => decide (a (n + k) = a n + ((k * es : Nat) : Int)) && decide (a (n + k) % 4096 ≠ 0)
    if n + k < lim ∧ (k + 1) * es ≤ 2048 ∧ (¬ usesSrc op ∨ follows (dSrc d)) ∧ (¬ usesDst op ∨ follows (dDst d)) then grow d lim n (k + 1) f else k

/-- Elements a descriptor may reach: all, or the iterations it has releases for (R341). -/
def Begun.limit (b : Begun) : Nat :=
  if dPace b.desc then min (dCount b.desc) ((b.taken + b.releases) * dN0 b.desc) else dCount b.desc

/-- A descriptor has elements to form a burst from now. -/
def Begun.canForm (b : Begun) : Bool :=
  b.form.isNone && ! b.issued && decide (b.pos < b.limit)
  && (dOpcode b.desc != 4 || decide (b.pos + 4 ≤ b.limit) || b.limit == dCount b.desc)

/-- Elements of the next burst. -/
def Begun.nextLen (b : Begun) : Nat :=
  if dOpcode b.desc = 4 then min 4 (b.limit - b.pos) else grow b.desc b.limit b.pos 1 2048

/-- Source pieces of the next burst, or why it stops. -/
def State.srcPlaces (s : State) (sl : Nat) (b : Begun) (k : Nat) : Place × List (Nat × Nat) :=
  let es := dEs b.desc
  if dOpcode b.desc = 4 then
    (List.range k).foldl (fun (r : Place × List (Nat × Nat)) i => match r.1 with
      | .ok _ => (match s.place sl (dSrc b.desc (b.pos + i)) es false with
          | .ok f => (.ok f, r.2 ++ [(f, es)])
          | p => (p, []))
      | _ => r) (.ok 0, [])
  else match s.place sl (dSrc b.desc b.pos) es false with
    | .ok f => (.ok f, [(f, k * es)])
    | p => (p, [])

/-- The burst takes the releases of the iterations it enters (R341). -/
def Begun.takeTo (b : Begun) (k : Nat) : Begun :=
  if dPace b.desc then
    let need := (b.pos + k + dN0 b.desc - 1) / dN0 b.desc
    { b with taken := max b.taken need, releases := b.releases - (need - b.taken) }
  else b

/-- A descriptor's next burst formed: its addresses translated, its source lines asked for (R326, R332, R333). -/
def State.formBurst (s : State) (c sl : Nat) (b : Begun) : State :=
  let op := dOpcode b.desc
  let k := b.nextLen
  let es := dEs b.desc
  let src := if usesSrc op then s.srcPlaces sl b k else (.ok 0, [])
  match src.1 with
  | .bad st => s.stopDesc c b st
  | .denied rg => (s.deny (some sl) (clusterPoint c) rg).stopDesc c b 5
  | .ok _ =>
    let dst := if usesDst op then s.place sl (dDst b.desc b.pos) es true else .ok 0
    match dst with
    | .bad st => s.stopDesc c b st
    | .denied _ => s
    | .ok f =>
      let fm : Form := { elems := k, bytes := k * es, srcs := src.2, dst := f }
      let s1 := s.setBegun c { b.takeTo k with form := some fm }
      fm.lines.foldl (fun s l => (s.tag (.dma c) l).cross (clusterPoint c) { kind := .rds, r := { src := .dma c, fpa := l * 64, nt := true, mask := 0, data := 0 }, record := 0, nextRec := 0 } .clean) s1

/-- A channel forms the next burst of its descriptor of an opcode. -/
def formEvt (op ch : Nat) (s : State) : Res :=
  evt (s.chRuns ch && (match (s.chan ch).cur with | some b => dOpcode b.desc == op && b.canForm | none => false) && (s.chan ch).slice.isSome)
    (fun s => match (s.chan ch).cur, (s.chan ch).slice with
      | some b, some sl => s.formBurst ch sl b
      | _, _ => s) s

/-- COPY (R331, R333): the next burst's source lines are read ahead. -/
def execCopy (ch : Nat) (s : State) : Res := formEvt 1 ch s

/-- FILL (R330, R333): the next burst is formed. -/
def execFill (ch : Nat) (s : State) : Res := formEvt 2 ch s

/-- CHECK (R335): the next burst's source lines are read ahead. -/
def execCheck (ch : Nat) (s : State) : Res := formEvt 3 ch s

/-- ATOMIC (R336): the records of the next group are read ahead. -/
def execAtomic (ch : Nat) (s : State) : Res := formEvt 4 ch s

/-! ### Issuing bursts (R324 to R328, R334 to R336, R339) -/

/-- Target point of a formed burst (R327): the port that backs it here, or the trunk port toward its home. -/
def State.target (s : State) (fpa : Nat) : Nat := if s.homed fpa then s.backPort fpa else 0x40 + (s.trunkTo (homeOf fpa)).getD 0

/-- Bandwidth W of a target in 1/256 byte per clock (R327, R328). -/
def State.targetW (s : State) (p : Nat) : Nat := if p < 64 then (s.port p).w else 17000

/-- Point, direction and bytes of a burst's charge (Table 8.1). -/
def State.burstCharge (s : State) (b : Begun) (f : Form) : Nat × Nat × Nat :=
  let op := dOpcode b.desc
  if usesDst op then (s.target f.dst, 1, f.bytes)
  else (s.target ((f.srcs.map (fun p => p.1)).headD 0), 2, if op = 4 then 64 else f.bytes)

/-- Now, in 1/16 clocks. -/
def State.now16 (s : State) : Nat := s.now * 1024

/-- The burst of a channel can begin but for its buckets: source staged, limiter passed, no charge waiting. -/
def State.burstReady (s : State) (c : Nat) : Bool :=
  s.chRuns c && (s.chan c).slice.isSome
  && (match (s.chan c).cur with
      | some b => (match b.form with
          | some f => f.lines.all (fun l => (s.chan c).staging.any (fun x => x.1 == l))
          | none => false)
      | none => false)
  && ((s.chan c).share == 0 || decide ((s.chan c).next ≤ s.now16))
  && ! s.shape.waiting.any (fun w => w.work == .burst c)

/-- The buckets of a channel's next burst allow it. -/
def State.burstAllowed (s : State) (c : Nat) : Bool :=
  match (s.chan c).cur with
  | some b => (match b.form with
      | some f =>
        let x := s.burstCharge b f
        let ks := s.bucketsOf (s.chan c).slice x.1 x.2.1
        ks.all (fun k => (s.bucket k).allows x.2.2) && ! behind s.shape.waiting ks
      | none => false)
  | none => false

/-- The channel of a cluster whose burst takes the mover: the highest priority among the ready, in rotation
after the last (R324). -/
def State.moverPick (s : State) (k : Nat) : Option Nat :=
  let start := Tbl.get 0 s.dma.rot k + 1
  let cs := ((List.range 8).map (fun i => 8 * k + (start + i) % 8)).filter (fun c => s.burstReady c && s.burstAllowed c)
  cs.foldl (fun (r : Option Nat) c => match r with
    | some x => if (s.chan c).prio < (s.chan x).prio then some c else some x
    | none => some c) none

/-- Byte `i` of a formed burst's source, from staging. -/
def Chan.byte (x : Chan) (f : Form) (i : Nat) : Byte :=
  let p := f.srcs.foldl (fun (r : Option Nat × Nat) p => match r.1 with
    | some a => (some a, r.2)
    | none => if i < r.2 + p.2 then (some (p.1 + (i - r.2)), r.2) else (none, r.2 + p.2)) (none, 0)
  match p.1 with
  | none => 0
  | some a => match x.staging.find? (fun y => y.1 == a / 64) with
    | some y => y.2.1.extractLsb' (8 * (a % 64)) 8
    | none => 0

/-- A byte at a slice address lies in a source element of a COPY (R339). -/
def inSource (d : Line) (a : Int) : Bool :=
  (List.range (dN2 d)).any (fun i2 => (List.range (dN1 d)).any (fun i1 => (List.range (dN0 d)).any (fun i0 =>
    let s := dSrc d ((i2 * dN1 d + i1) * dN0 d + i0)
    decide (s ≤ a) && decide (a < s + dEs d))))

/-- The source elements of a COPY span an interval that meets a range: only then can a byte overlap. -/
def spanMeets (d : Line) (a : Int) (n : Nat) : Bool :=
  let ext := fun (m : Nat) (st : Int) => if st < 0 then ((m : Int) * st, 0) else (0, (m : Int) * st)
  let x0 := ext (dN0 d - 1) (dstep d 224)
  let x1 := ext (dN1 d - 1) (dstep d 256)
  let x2 := ext (dN2 d - 1) (dstep d 288)
  let lo := (dfld d 111 64 : Int) + x0.1 + x1.1 + x2.1
  let hi := (dfld d 111 64 : Int) + x0.2 + x1.2 + x2.2 + dEs d
  decide (lo < a + n) && decide (a < hi)

/-- Byte `i` of a burst as it is written: copied, or the pattern; an overlapping byte of a COPY is free (R330, R339). -/
def State.outByte (s : State) (c : Nat) (b : Begun) (f : Form) (i : Nat) : Byte :=
  if dOpcode b.desc = 2 then b.desc.extractLsb' (416 + 8 * (i % dEs b.desc % 8)) 8
  else
    let a := dDst b.desc b.pos + i
    if spanMeets b.desc a 1 && inSource b.desc a then (Config.overlap s.glob.draws).extractLsb' (8 * (i % 64)) 8 else (s.chan c).byte f i

/-- The writes of a burst, line by line: mask and data (R334). -/
def State.burstLines (s : State) (c : Nat) (b : Begun) (f : Form) : List (Nat × BitVec 64 × Line) :=
  (List.range ((f.dst + f.bytes - 1) / 64 - f.dst / 64 + 1)).map (fun j =>
    let line := f.dst / 64 + j
    (List.range 64).foldl (fun (r : Nat × BitVec 64 × Line) k =>
      let a := line * 64 + k
      if f.dst ≤ a ∧ a < f.dst + f.bytes then
        (r.1, r.2.1 ||| ((1 : BitVec 64) <<< k), r.2.2 ||| (((s.outByte c b f (a - f.dst)).zeroExtend 512 : Line) <<< (8 * k)))
      else r) (line, 0, 0))

/-- One bit of CRC-32C, reflected (R335). -/
def crcBit (c : BitVec 32) : BitVec 32 := if c.getLsbD 0 then (c >>> 1) ^^^ 0x82F63B78 else c >>> 1

/-- A byte taken into a CRC register. -/
def crcByte (c : BitVec 32) (x : Byte) : BitVec 32 :=
  (List.range 8).foldl (fun r _ => crcBit r) (c ^^^ x.zeroExtend 32)

/-- CRC-32C over more bytes, from the CRC of the bytes before (0 for none) (R335). -/
def crcMore (crc : Nat) (xs : List Byte) : Nat :=
  ((xs.foldl crcByte (BitVec.ofNat 32 crc ^^^ 0xFFFFFFFF)) ^^^ 0xFFFFFFFF).toNat

/-- What a channel's rate limiter, its cluster's rotation and its counters keep of a burst begun (R324, R325, R328, R426). -/
def State.burstNotes (s : State) (c : Nat) (b : Begun) (f : Form) : State :=
  let x := s.chan c
  let tgt := s.targetW (s.burstCharge b f).1
  let nxt := if x.share = 0 then x.next else max x.next s.now16 + f.bytes * 256 * 16 * 256 / (x.share * max 1 tgt)
  let s1 := s.modCh c (fun y => { y with next := nxt, preempted := false })
  let s2 : State := { s1 with dma := { s1.dma with rot := Tbl.set 0 s1.dma.rot (c / 8) (c % 8) } }
  let lower := ((List.range 8).map (8 * (c / 8) + ·)).filter (fun k => k != c && s.burstReady k && decide (x.prio < (s.chan k).prio))
  let s3 := lower.foldl (fun s k => s.modCh k (fun y => { y with preempted := true })) s2
  let fresh := (lower.filter (fun k => ! (s.chan k).preempted)).length
  let beats := if usesDst (dOpcode b.desc) then (f.dst % 64 + f.bytes + 63) / 64 else (f.bytes + 63) / 64
  let s3 := (s3.count 0x58 (c / 8) 0 beats).count 0x59 (c / 8) 0 fresh
  let s3 := if usesDst (dOpcode b.desc) then s3.sample { point := clusterPoint c, cls := 4, op := 0, fpa := f.dst, slice := x.slice, src := clusterPoint c, agent := .dma c, key := (b.num, b.nburst), server := if s.homed f.dst then s.target f.dst else s.target f.dst + 0x28 } else s3
  let s4 := if usesDst (dOpcode b.desc) then s3.sliceCnt x.slice 2 f.bytes else s3
  if usesSrc (dOpcode b.desc) then s4.sliceCnt x.slice 3 f.bytes else s4

/-- The descriptor past a burst: position, releases, the burst's open lines, and the end of CHECK (R335). -/
def Begun.past (b : Begun) (f : Form) (lines : List Nat) (crc : Nat) : Begun :=
  let pos := b.pos + f.elems
  let ends := pos == dCount b.desc
  let fail := dOpcode b.desc == 3 && ends && bit b.desc.toNat 448 && crc != dfld b.desc 447 416
  { b with pos := pos, done := pos, issued := ends, form := none, crc := crc, nburst := b.nburst + 1
           status := if fail then 1 else b.status
           bursts := b.bursts ++ [{ num := b.nburst, elems := f.elems, openLines := lines }] }

/-- One record of an ATOMIC group enters (R119, R121, R336); a discarded one is reported at the channel. -/
def State.postDma (s : State) (c sl : Nat) (x : Option (BitVec 128 × BitVec 128)) : State :=
  match x with
  | none => s.fault 0x010C (s.chLoc c) 0xFF
  | some (r, n) =>
    let s := match (s.chan c).begun.getLast? with
      | some b => s.setBegun c { b with recs := b.recs ++ [r] }
      | none => s
    match s.sliceFpa sl (recTarget r) with
    | none => s.refuseRec (.dma c) (s.posterArea (.dma c)) r 2
    | some (e, fpa) =>
      if e.access = 1 then s.refuseRec (.dma c) (s.posterArea (.dma c)) r 4
      else
        let w := s.wardDecide (s.sliceCut (some sl)) fpa
        if hasRight w.1 2 then
          (s.tag (.dma c) (lineOf fpa)).cross (clusterPoint c) { kind := .atomOp, r := { src := .dma c, fpa := fpa, nt := false, mask := 0, data := 0 }, record := r, nextRec := n, area := s.posterArea (.dma c) } .clean
        else (s.deny (some sl) (clusterPoint c) w.2).refuseRec (.dma c) (s.posterArea (.dma c)) r 2

/-- The BLK data of a burst crosses to the egress point of its extent's port, or toward another home to the trunk port: one cell per
line, the first and the last of them marked (R49, R130, R131, Table 3.2). -/
def State.bulkSend (s : State) (c num fpa : Nat) (ls : List (Nat × BitVec 64 × Line)) : State :=
  let dst := if s.homed fpa then some (s.backPort fpa) else (s.trunkTo (homeOf fpa)).map (fun t => 0x68 + t)
  match dst with
  | none => s
  | some p => ls.zipIdx.foldl (fun s y =>
      let b : Blk := { src := .dma c, tag := c * 1024 + num % 1024, line := y.1.1, mask := y.1.2.1, data := y.1.2.2 }
      s.putCell { cls := 4, opc := 0, src := clusterPoint c, dst := p, tag := b.tag, addr := y.1.1 * 64, len := 63, first := y.2 == 0, last := y.2 + 1 == ls.length, load := .blk b }) s

/-- A burst past its charge is issued (R334 to R336, R355): a poisoned source or a denied destination stops
the descriptor and nothing of the burst is written. -/
def State.burstGo (s : State) (c : Nat) : State :=
  match (s.chan c).cur, (s.chan c).slice with
  | some b, some sl => match b.form with
    | none => s
    | some f =>
      let x := s.chan c
      let op := dOpcode b.desc
      let psn := f.lines.any (fun l => x.staging.any (fun y => y.1 == l && y.2.2))
      if psn then s.stopDesc c b 7
      else if usesDst op then
        let w := s.wardDecide (s.sliceCut (some sl)) f.dst
        if ¬ hasRight w.1 1 then (s.deny (some sl) (clusterPoint c) w.2).stopDesc c b 5
        else
          let ls := s.burstLines c b f
          let s1 := ((s.burstNotes c b f).setBegun c (b.past f (ls.map (fun y => y.1)) b.crc)).modCh c (fun y => { y with staging := [] })
          let s2 := s1.drawn.bulkSend c b.nburst f.dst ls
          ls.foldl (fun s y =>
            let full := y.2.1 == allBytes
            (s.tag (.dma c) y.1).cross (clusterPoint c) { kind := if full then .wrInvFull else .wrInvPart, r := { src := .dma c, fpa := y.1 * 64, nt := false, mask := y.2.1, data := y.2.2 }, record := 0, nextRec := 0, bulk := true } .clean) s2
      else
        let bytes := (List.range f.bytes).map (fun i => x.byte f i)
        let crc := if op = 3 then crcMore b.crc bytes else b.crc
        let s1 := ((s.burstNotes c b f).setBegun c (b.past f [] crc)).modCh c (fun y => { y with staging := [] })
        if op = 3 then s1
        else
          let recs := (List.range 4).map (fun i => if i < f.elems then
              ((List.range 16).foldl (fun (r : BitVec 128) k => r ||| (((x.byte f (16 * i + k)).zeroExtend 128 : BitVec 128) <<< (8 * k))) 0, true)
            else ((0 : BitVec 128), true))
          (postRecords recs false).foldl (fun s r => s.postDma c sl r) s1
  | _, _ => s

/-- BURST_BEGIN (R324, R328, R382): the burst that takes the mover is charged and issued; one whose buckets
do not allow it waits. -/
def execBurstBegin (ch : Nat) (s : State) : Res :=
  evt (s.burstReady ch && (! s.burstAllowed ch || s.moverPick (ch / 8) == some ch)) (fun s =>
    match (s.chan ch).cur with
    | some b => match b.form with
      | some f =>
        let x := s.burstCharge b f
        let r := s.charge (s.chan ch).slice x.1 x.2.1 x.2.2 (.burst ch)
        if r.2 then r.1.burstGo ch else r.1
      | none => s
    | none => s) s

/-! ### Request lines and watchdog (R340 to R342, R356) -/

/-- DREQ_EDGE (R341, R342): a release to every paced descriptor in progress that selects the input. -/
def execDreqEdge (n : Nat) (s : State) : Res :=
  evt (decide (n < 16) && s.running) (fun s =>
    let s0 : State := { s with dma := { s.dma with dreq := s.dma.dreq ||| ((1 : BitVec 16) <<< n) } }
    if s.dma.parked then s0
    else (List.range 64).foldl (fun s c => match (s.chan c).cur with
      | some b =>
        if dPace b.desc ∧ moves (dOpcode b.desc) ∧ dfld b.desc 11 8 = n then
          (if 255 ≤ b.releases then s.dmaEvent 12 b.ring c else s.setBegun c { b with releases := b.releases + 1 })
        else s
      | none => s) s0) s

/-- The oldest descriptor of a channel that its watchdog can stop. -/
def Chan.watched (x : Chan) : Option Begun := x.begun.find? (fun b => b.status == 0)

/-- DMA_WATCHDOG (R356, Table 7.15): the descriptor stops with WATCHDOG. A FLIP past its commit is told and
runs on; one before leaves its window unchanged. -/
def execDmaWatchdog (ch : Nat) (s : State) : Res :=
  evt (chanOk ch && s.running && ! s.dma.parked && (s.chan ch).watched.isSome && ((s.chan ch).watched != s.nextDone ch)) (fun s => match (s.chan ch).watched with
    | none => s
    | some b =>
      let f := fun (_ : Nat) (w : Window16) => match w.flip, w.step with
        | some fl, some st => if fl.1 = ch ∧ fl.2.1 = b.ring ∧ fl.2.2.1 = b.idx then (if st < 3 then { w with flip := none, step := none } else { w with told := true }) else w
        | _, _ => w
      let s1 : State := { s with dma := { s.dma with win := Tbl.mapv {} f s.dma.win, event := s.dma.event }, shape := { s.shape with waiting := s.shape.waiting.filter (fun w => ! (w.work == .burst ch && ! b.issued)) } }
      let s2 := if b.issued then s1.setBegun ch { b with status := 0xB } else s1.stopDesc ch b 0xB
      (s2.dmaEvent 13 b.ring ch).fault 0x010E (s.chLoc ch) 0xFF) s

/-! ### The table flip (R365 to R374) -/

/-- The lines of a window's set: home and module extents. -/
def setHas (d : WinDef) (b : Bool) (fpa : Nat) : Bool :=
  let h := if b then d.homeB else d.homeA
  let e := if b then d.fextB else d.fextA
  homeOf fpa == h && decide (e ≤ extOf fpa) && decide (extOf fpa < e + d.next)

/-- The epoch word of a FLIP: mapped, writable, and permitted by the ward; or the status that stops the FLIP. -/
def State.epochPlace (s : State) (sl : Nat) (d : Line) : Place :=
  match s.place sl (dfld d 175 128) 8 true with
  | .ok f => let w := s.wardDecide (s.sliceCut (some sl)) f
             if hasRight w.1 1 then .ok f else .denied w.2
  | p => p

/-- The FLIP of a channel that may take step 1: it is the oldest descriptor in progress and not started. -/
def State.flipDue (s : State) (c : Nat) : Option (Begun × Nat) :=
  match (s.chan c).begun.head?, (s.chan c).slice with
  | some b, some sl => if dOpcode b.desc = 5 ∧ ¬ b.issued ∧ (s.win (dfld b.desc 419 416)).step.isNone then some (b, sl) else none
  | _, _ => none

/-- The epoch word's write leaves: its data as a BLK cell, its header to the home keeper (Table 1.8). -/
def State.epochGo (s : State) (c fpa val : Nat) : State :=
  let l := lineOf fpa
  let m : BitVec 64 := 0xFF <<< (fpa % 64)
  let d : Line := BitVec.ofNat 512 (val % 2 ^ 64) <<< (8 * (fpa % 64))
  ((s.bulkSend c 1023 fpa [(l, m, d)]).tag (.dma c) l).cross (clusterPoint c) { kind := .wrInvPart, r := { src := .dma c, fpa := l * 64, nt := false, mask := m, data := d }, record := 0, nextRec := 0, bulk := true } .clean

/-- The epoch word of a FLIP is written past every checkpoint of a DMA write: bucket, home keeper and port arbiter (R49, R373). -/
def State.epochWrite (s : State) (c fpa val : Nat) : State :=
  let r := s.charge (s.chan c).slice (s.target fpa) 1 8 (.epoch c fpa val)
  if r.2 then r.1.epochGo c fpa val else r.1

/-- FLIP (R369, R373): step 1 of Table 7.9. -/
def execFlip (ch : Nat) (s : State) : Res :=
  evt (s.chRuns ch && (s.flipDue ch).isSome) (fun s => match s.flipDue ch with
    | none => s
    | some (b, sl) =>
      let w := dfld b.desc 419 416
      let target := bit b.desc.toNat 424
      match (s.win w).dfn with
      | none => s.stopDesc ch b 3
      | some d =>
        if d.owner ≠ sl then s.stopDesc ch b 5
        else match s.epochPlace sl b.desc with
          | .bad st => s.stopDesc ch b st
          | .denied rg => (s.deny (some sl) (clusterPoint ch) rg).stopDesc ch b 5
          | .ok fpa =>
            let s1 := s.setBegun ch { b with issued := true }
            if target = (s.win w).activeB then s1.epochWrite ch fpa (s.win w).epoch
            else s1.modWin w (fun x => { x with flip := some (ch, b.ring, b.idx, fpa, target), step := some 1, sweep := none, told := false, olds := [] })) s

/-- FLIP_PREPARE: step 2 of Table 7.9. -/
def execFlipPrepare (win : Nat) (s : State) : Res :=
  evt ((s.win win).step == some 1 && s.running && ! s.dma.parked) (fun s => s.modWin win (fun x => { x with step := some 2 })) s

/-- FLIP_COMMIT: step 3 of Table 7.9 (R370, R372). -/
def execFlipCommit (win : Nat) (s : State) : Res :=
  evt ((s.win win).step == some 2 && s.running && ! s.dma.parked) (fun s => match (s.win win).flip, (s.win win).dfn with
    | some fl, some d =>
      let old := (s.win win).activeB
      let olds := (s.keeper.txns.map (fun t => t.q)).filter (fun q => setHas d old q.r.fpa) ++ (s.keeper.cq ++ s.xbar.reqs).filter (fun q => setHas d old q.r.fpa)
      let s1 := s.modWin win (fun x => { x with step := some 3, activeB := fl.2.2.2.2, epoch := (x.epoch + 1) % 2 ^ 63, olds := olds.map (fun q => (lineOf q.r.fpa, q.r.src)) })
      s1.modCh fl.1 (fun c => { c with begun := c.begun.map (fun b => if b.ring = fl.2.1 ∧ b.idx = fl.2.2.1 then { b with committed := true } else b) })
    | _, _ => s) s

/-- Every transaction on the old set open at COMMIT has closed. -/
def State.flipDrained (s : State) (win : Nat) : Bool :=
  (s.win win).olds.all (fun x => ! s.keeper.txns.any (fun t => t.line == x.1 && t.q.r.src == x.2)
    && ! (s.keeper.cq ++ s.xbar.reqs).any (fun q => lineOf q.r.fpa == x.1 && q.r.src == x.2))

/-- FLIP_DRAIN_DONE: steps 4 and 5 of Table 7.9; the sweep recalls the old set from local hosts and devices. -/
def execFlipDrainDone (win : Nat) (s : State) : Res :=
  evt ((s.win win).step == some 3 && s.running && s.flipDrained win) (fun s => match (s.win win).dfn with
    | none => s
    | some d =>
      let old := ! (s.win win).activeB
      let x := s.sweepStart 2 win (fun fpa => setHas d old fpa) (fun a => ! a.isMod) false false
      x.1.modWin win (fun w => { w with step := some 4, sweep := some x.2 })) s

/-- FLIP_SWEEP_DONE: steps 6 and 7 of Table 7.9 (R371, R373, R374). -/
def execFlipSweepDone (win : Nat) (s : State) : Res :=
  evt ((s.win win).step == some 4 && s.running && ! s.dma.parked && (match (s.win win).sweep with | some n => s.sweepQuiet n | none => true)) (fun s =>
    match (s.win win).flip with
    | none => s
    | some fl =>
      let w := s.win win
      let s1 := match w.sweep with
        | some n => s.sweepEnd n
        | none => s
      let b? := (s1.chan fl.1).begun.find? (fun b => b.ring == fl.2.1 && b.idx == fl.2.2.1)
      let s2 := match b? with
        | some b => if w.told then s1 else s1.complete fl.1 b
        | none => s1
      (s2.epochWrite fl.1 fl.2.2.2.1 w.epoch).modWin win (fun x => { x with step := none, flip := none, sweep := none, olds := [], told := false })) s

end Sys2Proof.Machine
end

