-- ==== Sys2Proof/Machine/FaultCmd.lean ====
section
/-! DEFINITION. FAULT group and the events of the collector tree (chapter 12). -/
namespace Sys2Proof.Machine

/-- A fault record packed as Table 12.10 lays it out. -/
def FRec.pack (r : FRec) : Nat :=
  r.time * 2 ^ 192 + r.seq * 2 ^ 160 + r.loc.toNat * 2 ^ 128 + r.detail.toNat * 2 ^ 96 + r.code * 2 ^ 80 + r.reaction * 2 ^ 72
    + r.cls * 2 ^ 69 + b2n r.wire * 2 ^ 68 + b2n r.absorbed * 2 ^ 67 + b2n r.superseded * 2 ^ 66 + r.repeats * 2 ^ 48 + r.port * 2 ^ 40

/-- Every record held, protected ones included, oldest first (R563). -/
def Faults.records (f : Faults) : List FRec :=
  (f.prot.filter (fun r => ! f.log.any (fun x => x.seq == r.seq))) ++ f.log

/-- FAULT_STATUS (Table 12.12). -/
def Faults.status (f : Faults) : Nat :=
  ((f.records.getLast?.map (fun r => r.seq)).getD 0) * 2 ^ 32 + f.log.length * 2 ^ 19 + f.prot.length * 2 ^ 14 + b2n f.testClosed * 2 ^ 13

/-- ALIVE_STATUS (Table 12.12). -/
def Faults.aliveStatus (f : Faults) : Nat := b2n f.alive * 2 ^ 31 + f.stopCause * 2 ^ 28 + f.aliveHz

/-- FAULT_LOG_GET (R563): the GAP flag, then the records. -/
def execFaultLogGet (f : Frame) (fromSeq count : Nat) (s : State) : Res :=
  query 0xCC01 f (.faultLogGet f fromSeq count) (fun _ => if count = 0 ∨ 127 < count then some rcParam else none)
    (fun s =>
      b2n (decide (max fromSeq 1 ≤ s.faults.gapTo)) :: ((s.faults.records.filter (fun r => decide (fromSeq ≤ r.seq))).take count).map FRec.pack) s

/-- FAULT_STATUS (R570): register values, then counts per class and per die. -/
def execFaultStatus (f : Frame) (s : State) : Res :=
  query 0xCC02 f (.faultStatus f) (fun _ => none)
    (fun s => [s.faults.event.read.toNat, s.faults.status, s.faults.aliveStatus, s.faults.lost.read]
      ++ (List.range 6).map (fun c => (Tbl.get ({} : Cnt) s.faults.cnt c).read) ++ (List.range 7).map (fun d => Tbl.get 0 s.faults.perDie d)) s

/-- A reaction is allowed for a class (R548, R552). -/
def reactOk (c a : Nat) (irq : Bool) : Bool :=
  decide (c ≤ 4) && (a == 0 || (allowedActs c).contains a) && (decide (c < 2) || (a != 0 && irq))

/-- FAULT_REACTION_SET (R552). -/
def execFaultReactionSet (f : Frame) (byClass : Bool) (code : Nat) (pat : Loc) (action : Option Nat) (irq : Bool) (idx : Nat) (del : Bool) (s : State) : Res :=
  command 0xCC03 f (.faultReactionSet f byClass code pat action irq idx del)
    (fun s =>
      let a := action.getD 0
      if byClass then (if (del ∧ code ≤ 4) ∨ reactOk code a irq then none else some rcParam)
      else if del then (if (Tbl.find s.faults.overrides idx).isSome then none else some rcNotFound)
      else checks
        [(! s.locExists pat, rcNotFound),
         (decide (63 < idx) && decide (64 ≤ s.faults.overrides.length), rcNoRes), (decide (63 < idx), rcParam),
         (match (if code = 0xFF then none else codeClass code) with
          | some c => ! reactOk c a irq
          | none => code != 0xFF || ! (a == 0 || [2, 3, 4, 5, 6, 7].contains a), rcParam)])
    (fun s =>
      let fs := s.faults
      let r := if byClass then (if del then { fs with react := Tbl.del fs.react code } else { fs with react := Tbl.put fs.react code (action.getD 0, irq) })
        else if del then { fs with overrides := Tbl.del fs.overrides idx }
        else { fs with overrides := Tbl.put fs.overrides idx { code := code, pat := pat, action := action, irq := irq } }
      ({ s with faults := r }, rcOk, [])) s

/-- REACTION_DRYRUN (R568): class, reaction, element, the ports, trunk ports, keeper slices and channels that
would leave service, and whether the report would be lost. -/
def execReactionDryrun (f : Frame) (byClass : Bool) (code : Nat) (loc : Loc) (s : State) : Res :=
  query 0xCC04 f (.reactionDryrun f byClass code loc)
    (fun s => checks [(! s.locExists loc, rcNotFound),
      (if byClass then decide (5 < code) else (codeClass code).isNone && code != 0xFF, rcParam)])
    (fun s =>
      let c := if byClass then code else (codeClass code).getD (wireClass loc 0)
      let ch := if byClass then Tbl.get (defaultReact c) s.faults.react c else s.chosen code c loc
      let rx := reactBits ch c loc
      let a := rx.2
      let el := actElem a loc
      let out := fun (l : List Nat) => if a = 0 then 0 else maskOf l
      [c, rx.1, el.toNat, out (s.locPorts el), out (locTrunks el), out (locSlices el), out (locChans el),
       b2n (s.lostBy c loc)]) s

/-- FAULT_LOG_CLEAR (R560, R564). -/
def execFaultLogClear (f : Frame) (s : State) : Res :=
  command 0xCC05 f (.faultLogClear f) (fun _ => none)
    (fun s => ({ s with faults := { s.faults with log := [], prot := [], cnt := [], lost := {}, perDie := [] } }, rcOk, [])) s

/-- What the line card reads on ALIVE: true while it toggles, false while it is low; without SB_VIO it is low (R564, R627). -/
def State.alivePin (s : State) : Bool := s.faults.alive && s.svc.sbVio && s.glob.pstate != .off

/-- ALIVE_SET (R565, R571). -/
def execAliveSet (f : Frame) (hz : Nat) (s : State) : Res :=
  command 0xCC06 f (.aliveSet f hz) (fun _ => if hz < 100 ∨ 10000 < hz then some rcParam else none)
    (fun s => (if s.faults.alive then { s with faults := { s.faults with aliveHz := hz } } else { s with faults := { s.faults with aliveNext := some hz } }, rcOk, [])) s

/-! ### Events -/

/-- A fault stops the newest descriptor of a channel with a status (Table 12.6). -/
def State.descFault (s : State) (c status : Nat) : State :=
  let n := ((s.chan c).begun.getLast?.map (·.num)).getD 0
  s.modCh c (fun x => { x with begun := x.begun.map (fun b =>
    if b.num = n ∧ b.status = 0 then { b with status := status, issued := true } else b) })

/-- The sensor a THERM_SENSOR report names by its location (Table 14.11). -/
def sensorAt (l : Loc) : Nat :=
  if l.level = 3 then (if l.die = 0 then l.quad else 5 + l.quad)
  else if l.level = 2 then (match l.die with | 0 => 4 | 1 => 9 | 6 => 14 | d => d + 8) else 15

/-- The own handling Table 12.6 gives a fault code, besides its reaction. Which plane a PLANE_FAULT names is
taken from DETAIL[1:0] (log 13). -/
def State.ownHandling (s : State) (code : Nat) (l : Loc) (detail : Reg32) : State :=
  match code with
  | 0x0005 => (s.locPorts l).foldl (fun s p => s.modPort p (fun x => { x with linkErrs := x.linkErrs + 1 })) s
  -- the port of the lane retrains without it (R182)
  | 0x0101 => if l.level = 5 ∧ l.clu ≤ 3 then (s.locPorts l).foldl (fun s p => s.retrain p (widthBelow (l.lane - 4 * p))) s else s
  | 0x0113 => if l.clu = 4 ∧ l.unit ≤ 3 then s.resetSlice56 (4 * l.k + l.unit) else s
  | 0x0115 => if l.clu = 4 ∧ l.unit ≤ 3 then s.stopSlice (4 * l.k + l.unit) else s
  | 0x0114 => if l.clu = 5 ∧ l.unit ≤ 7 then s.descFault (8 * l.k + l.unit) 9 else s
  | 0x0202 => if l.clu = 6 then s.tpPeerLost l.k 8 else s
  | 0x0203 => if l.clu = 6 then s.tpHold l.k 4 else if l.clu ≤ 3 then (s.locPorts (mkLoc l.pkg l.die l.quad l.clu 255)).foldl (fun s p => s.portDrops p 1) s else s
  | 0x0204 => if l.clu = 5 then (locChans (mkLoc l.pkg l.die l.quad 5 255)).foldl (fun s c => if ((s.chan c).begun.any (fun b => b.bursts != [])) then s.descFault c 9 else s) s else s
  | 0x0108 => s.hcrcAt l
  | 0x0111 => s.qmemPoison l.k
  | 0x0205 => s.spillsLost l.die
  | 0x0206 => { s with xbar := { s.xbar with scrubOff := addOnce l.die s.xbar.scrubOff } }
  | 0x0207 => { s with faults := { s.faults with deaf := addOnce (mkLoc l.pkg l.die l.quad l.clu 255) s.faults.deaf } }
  | 0x0301 => { s with faults := { s.faults with deaf := addOnce (mkLoc l.pkg l.die l.quad 15 255) s.faults.deaf } }
  | 0x060A => { s with sill := { s.sill with stuck := true } }
  | 0x0703 => { s with therm := { s.therm with bad := addOnce (sensorAt l) s.therm.bad, reading := Tbl.del s.therm.reading (sensorAt l) } }
  | 0x0304 => s.planeOut (detail.toNat % 4)
  | _ => s

/-- FAULT_REPORT (R543, R546): a source reports a code; its own handling takes place even where the report is lost. -/
def execFaultReport (code : Nat) (loc : Loc) (detail : Reg32) (port : Nat) (s : State) : Res :=
  evt ((codeClass code).isSome && s.locExists loc && s.glob.pstate != .off) (fun s =>
    -- a corrected single-bit error of a stack is rewritten by the scrub engine of its switch die (Table 12.6)
    let n := b2n (code == 0x0004)
    ((s.ownHandling code loc detail).report code loc detail port).count 0x73 (if loc.die = 2 ∨ loc.die = 3 then 0 else 1) 0 n) s

/-- WIRE (R542): an invalid pair raises a report of its source's class. The event is the raise itself, so
the pair is armed when it comes. A half of plane `source` modulo 4 that reports leaves service with its plane (R151). -/
def execWire (loc : Loc) (source : Nat) (s : State) : Res :=
  evt (s.locExists loc && s.glob.pstate != .off) (fun s =>
    let s1 := s.reportC (wireClass loc source) 0x00FF loc 0 0xFF true
    if loc.level = 2 ∧ loc.die ≤ 1 ∧ source ≠ 0 ∧ source ≠ 1 ∧ source ≠ 4 then s1.planeOut (source % 4) else s1) s

/-- REACTION_WINDOW_CLOSE (R554): the element has left its old state. -/
def execReactionWindowClose (loc : Loc) (s : State) : Res :=
  evt (s.faults.windows.any (fun w => w.elem == loc)) (fun s => { s with faults := { s.faults with windows := s.faults.windows.filter (fun w => w.elem != loc) } }) s

end Sys2Proof.Machine
end

