-- ==== Sys2Proof/Machine/Session.lean ====
section
/-! DEFINITION. SESSION group: sessions, keys and lockouts (R476 to R484). -/
namespace Sys2Proof.Machine

/-- The bytes of an ASCII text. -/
def asciiBytes (t : String) : List Byte := t.toList.map (fun c => BitVec.ofNat 8 c.toNat)

/-- A 256-bit value as 32 bytes. -/
def bytes32 (v : BitVec 256) : List Byte := leBytes 32 v.toNat

/-- XPORT of R479. -/
def xportCode (x : Xport) : Nat := match x with | .cxl => 1 | .smbus => 2 | .i3c => 3 | .trunk => 4 | .sliceChan => 0

/-- The key K of a session (R479): the role's provisioned or password-derived key; for a TENANT the key of
its slice. A key never written is zero (log 2). -/
def State.sessionKey (s : State) (role slice ksrc : Nat) : BitVec 256 :=
  let k := if ksrc = 0 then Tbl.get 0 s.mbx.keys role else Tbl.get 0 s.mbx.pwKeys role
  if role = 4 then match s.slice slice with
    | some x => Config.hmac k (asciiBytes "SLICE" ++ leBytes 1 x.host ++ leBytes 4 x.pasid)
    | none => k
  else k

/-- The proof P that opens a session (R479). -/
def Session.proof (x : Session) (k : BitVec 256) : BitVec 256 :=
  Config.hmac k (asciiBytes "ZOPEN" ++ bytes32 x.nd ++ bytes32 x.nc ++ leBytes 4 x.sid ++ leBytes 1 x.role ++ leBytes 2 x.slice ++ leBytes 1 (xportCode x.xport))
/-- The module's proof D (R479). -/
def Session.answer (x : Session) (k : BitVec 256) : BitVec 256 :=
  Config.hmac k (asciiBytes "ZDEV" ++ bytes32 x.nc ++ bytes32 x.nd ++ leBytes 4 x.sid)
/-- The session key SK (R479). -/
def Session.secret (x : Session) (k : BitVec 256) : BitVec 256 :=
  Config.hmac k (asciiBytes "ZSESS" ++ bytes32 x.nd ++ bytes32 x.nc ++ leBytes 4 x.sid)

/-- A role is locked out (R484). -/
def State.lockedOut (s : State) (role : Nat) : Bool := (Tbl.find s.mbx.lockouts role).isSome

/-- OPEN_SESSION (R478): a SID, the module nonce, the salt and the iteration count. -/
def execOpenSession (f : Frame) (role slice ksrc : Nat) (nc : BitVec 256) (s : State) : Res :=
  command 0xC001 f (.openSession f role slice ksrc nc)
    (fun s => checks [(role == 0 || decide (4 < role) || decide (1 < ksrc), rcParam), (role == 4 && (s.slice slice).isNone, rcNotFound),
      (s.lockedOut role, rcLockedOut), (decide (8 ≤ s.mbx.sessions.length), rcSessLimit)])
    (fun s =>
      let x : Session := { sid := s.mbx.nextSid, role := role, slice := if role = 4 then slice else 0xFFFF, ksrc := ksrc, xport := f.xport, ep := endpointOf f, nc := nc, nd := s.fresh, authed := false, sk := 0, seqNext := 1, badMacs := 0, openedAt := s.now, lastAt := s.now }
      let m := { s.mbx with sessions := s.mbx.sessions ++ [x], nextSid := x.sid + 1 }
      (({ s with mbx := m }).drawn, rcOk, [x.sid, x.nd.toNat, s.mbx.salt.toNat, 100000])) s

/-- A failed proof: the SID is freed, the failure counted and reported, and the fifth in a row locks the role out (R478, R484). -/
def State.authFailed (s : State) (x : Session) : State :=
  let n := Tbl.get 0 s.mbx.fails x.role + 1
  let m := if n = 5 then { s.mbx with fails := Tbl.del s.mbx.fails x.role, lockouts := Tbl.put s.mbx.lockouts x.role (s.now + 1500000000) }
    else { s.mbx with fails := Tbl.put s.mbx.fails x.role n }
  (({ s with mbx := m }).dropSession x.sid).fault 0x0116 (s.dieLoc 6) 0xFF

/-- SESSION_AUTH (R478): the proof opens the session, or AUTH_FAILED. -/
def execSessionAuth (f : Frame) (sid : Nat) (proof : BitVec 256) (s : State) : Res :=
  command 0xC002 f (.sessionAuth f sid proof)
    (fun s => match s.session sid with
      | some x => if x.authed ∨ x.xport ≠ f.xport ∨ x.ep ≠ endpointOf f then some rcNoSession else none
      | none => some rcNoSession)
    (fun s => match s.session sid with
      | none => (s, rcNoSession, [])
      | some x =>
        let k := s.sessionKey x.role x.slice x.ksrc
        if proof = x.proof k then
          let s1 := s.modSession sid (fun y => { y with authed := true, sk := x.secret k, lastAt := s.now })
          ({ s1 with mbx := { s1.mbx with fails := Tbl.del s1.mbx.fails x.role } }, rcOk, [(x.answer k).toNat])
        else (s.authFailed x, rcAuth, [])) s

/-- CLOSE_SESSION (R483). -/
def execCloseSession (f : Frame) (sid : Nat) (s : State) : Res :=
  commandR 0xC003 f (.closeSession f sid)
    { guard := fun role _ s => checks [(sid != f.sid && role != 1, rcRole), ((s.session sid).isNone, rcNoSession)]
      run := fun _ _ s => (s.dropSession sid, rcOk, []) } s

/-- SESSION_LIST (R486): SID, role, endpoint and idle time in ticks of each session. -/
def execSessionList (f : Frame) (s : State) : Res :=
  query 0xC004 f (.sessionList f) (fun _ => none)
    (fun s => s.mbx.sessions.flatMap (fun x => [x.sid, x.role, (xportCode x.xport) * 256 + x.ep, s.now - x.lastAt])) s

/-- KEY_SET (R480). -/
def execKeySet (f : Frame) (role : Nat) (key : BitVec 256) (s : State) : Res :=
  command 0xC005 f (.keySet f role key) (fun _ => if role = 0 ∨ 4 < role then some rcParam else none)
    (fun s => ({ s with mbx := { s.mbx with keys := Tbl.set 0 s.mbx.keys role key } }, rcOk, [])) s

/-- PASSWORD_SET (R480): the key the requester derived, and a new salt. -/
def execPasswordSet (f : Frame) (role : Nat) (key : BitVec 256) (s : State) : Res :=
  command 0xC006 f (.passwordSet f role key) (fun _ => if role = 0 ∨ 4 < role then some rcParam else none)
    (fun s =>
      let salt : BitVec 128 := s.fresh.truncate 128
      (({ s with mbx := { s.mbx with pwKeys := Tbl.set 0 s.mbx.pwKeys role key, salt := salt } }).drawn, rcOk, [salt.toNat])) s

/-- SESSION_SET (R483). -/
def execSessionSet (f : Frame) (role secs : Nat) (s : State) : Res :=
  command 0xC007 f (.sessionSet f role secs) (fun _ => if role = 0 ∨ 4 < role ∨ secs < 30 ∨ 3600 < secs then some rcParam else none)
    (fun s => ({ s with mbx := { s.mbx with idle := Tbl.set 300 s.mbx.idle role secs } }, rcOk, [])) s

/-- SESSION_IDLE_TIMEOUT (R483). -/
def execSessionIdleTimeout (sid : Nat) (s : State) : Res :=
  evt (match s.session sid with | some x => x.authed | none => false) (fun s => s.dropSession sid) s

/-- SESSION_AUTH_EXPIRY (R478). -/
def execSessionAuthExpiry (sid : Nat) (s : State) : Res :=
  evt (match s.session sid with | some x => ! x.authed | none => false) (fun s => s.dropSession sid) s

/-- LOCKOUT_EXPIRY (R484). -/
def execLockoutExpiry (role : Nat) (s : State) : Res :=
  evt (s.lockedOut role) (fun s => ({ s with mbx := { s.mbx with lockouts := Tbl.del s.mbx.lockouts role } } : State).woken) s

end Sys2Proof.Machine
end

