-- ==== Sys2Proof/Machine/ShapeCmd.lean ====
section
/-! DEFINITION. SHAPE and GATE groups, waiting charges, and the events of time gates (chapter 8). -/
namespace Sys2Proof.Machine

/-! ### Waiting charges (R384 to R388) -/

/-- A host request is the first of its port and line in the shaping queue (R386). -/
def State.hostFirst (s : State) (port : Nat) (q : QReq) : Bool :=
  match s.hs.shapeQ.find? (fun x => x.1 == port && (s.heldLines x.2.2).contains (lineOf q.r.fpa)) with
  | some x => x.2.2 == q
  | none => true

/-- A charge's work may go as far as R386 is concerned. -/
def State.workFree (s : State) (w : Work) : Bool := match w with | .host p q _ => s.hostFirst p q | _ => true

/-- The charges that wait before one, in arrival order. -/
def chargesBefore (l : List Charge) (c : Charge) : List Charge := l.takeWhile (fun x => x != c)

/-- What a charge let go does. -/
def State.runWork (s : State) (sl : Option Nat) (w : Work) : State :=
  match w with
  | .burst c => s.burstGo c
  | .epoch c fpa v => s.epochGo c fpa v
  | .pass p qs => s.passGo sl p qs
  | .host p q way =>
    let hq := match s.hs.shapeQ.find? (fun x => x.1 == p && x.2.2 == q) with
      | some x => s.hs.shapeQ.erase x
      | none => s.hs.shapeQ
    ({ s with hs := { s.hs with shapeQ := hq } } : State).hostGo sl p q way

/-- A waiting charge may proceed (R382, R384, R386). -/
def State.mayProceed (s : State) (c : Charge) : Bool :=
  c.bkts.all (fun k => (s.bucket k).allows c.bytes) && ! behind (chargesBefore s.shape.waiting c) c.bkts && s.workFree c.work

/-- A waiting charge proceeds: its tokens are taken, and its work goes. -/
def State.proceedCharge (s : State) (c : Charge) : State :=
  let s1 : State := { s with shape := { s.shape with waiting := s.shape.waiting.erase c } }
  (s1.deduct c.bkts c.bytes).runWork c.slice c.work

/-- Charges that no bucket holds any more proceed at once (R386, R388). -/
def State.freeCharges (s : State) (fuel : Nat) : State :=
  match fuel with
  | 0 => s
  | n + 1 => match s.shape.waiting.find? (fun c => c.bkts.isEmpty && s.workFree c.work) with
    | some c => (s.proceedCharge c).freeCharges n
    | none => s

/-- Key of a bucket a command or event names: an aggregate bucket by its point. -/
def bktKey (agg : Bool) (slice bkt : Nat) : Bool × Nat := if agg then (true, bkt) else (false, 16 * slice + bkt)

/-- CHARGE_PROCEED (R382, R384): the oldest charge waiting on a bucket. -/
def execChargeProceed (agg : Bool) (slice bkt : Nat) (s : State) : Res :=
  let k := bktKey agg slice bkt
  evt (match s.shape.waiting.find? (fun c => c.bkts.contains k) with | some c => s.mayProceed c | none => false) (fun s =>
    match s.shape.waiting.find? (fun c => c.bkts.contains k) with
    | some c => (s.proceedCharge c).freeCharges (s.shape.waiting.length + 1)
    | none => s) s

/-- SHAPING_QUEUE_ENTRY (R385): the oldest request in the receive buffer enters the shaping queue. -/
def execShapingQueueEntry (port : Nat) (s : State) : Res :=
  evt (s.hs.shapeQ.any (fun x => x.1 == port && ! x.2.1) && decide ((s.hs.shapeQ.filter (fun x => x.1 == port && x.2.1)).length < 256)) (fun s =>
    match s.hs.shapeQ.findIdx? (fun x => x.1 == port && ! x.2.1) with
    | some i => { s with hs := { s.hs with shapeQ := s.hs.shapeQ.modify i (fun x => (x.1, true, x.2.2)) } }
    | none => s) s

/-! ### SHAPE group (R387 to R390, R409) -/

/-- The bucket a command names exists. -/
def State.bktExists (s : State) (agg : Bool) (slice bkt : Nat) : Bool :=
  if agg then decide (bkt < 72) else (s.slice slice).isSome && decide (bkt < 16)

/-- The cases of R390. -/
def State.bktRefused (s : State) (agg : Bool) (slice bkt : Nat) (cfg : Reg64) : Bool :=
  let old := s.bucket (bktKey agg slice bkt)
  let new : Bucket := { cfg := cfg, tok := 0 }
  (new.en && (decide (new.rate = 0) || decide (1000000 < new.rate) || decide (new.burst < 256) || decide (67108864 < new.burst)))
  || new.dir == 0 || (! agg && new.dir == 3) || (agg && new.point != bkt)
  || (! agg && new.point != 0x7F && (List.range 16).any (fun i => i != bkt && (let b := s.bucket (false, 16 * slice + i); b.point == new.point && b.dir == new.dir)))
  || (old.en && new.en && (new.point != old.point || new.dir != old.dir))

/-- The reserved bits of BKT_CFG read as zero. -/
def bktMask : Reg64 := 0xFFFFFFFE07FFFFFF

/-- A bucket's configuration written, its tokens reset as R387 says. -/
def Bucket.configure (b : Bucket) (cfg : Reg64) : Bucket :=
  let n : Bucket := { cfg := cfg &&& bktMask, tok := b.tok }
  if (n.en ∧ ¬ b.en) ∨ (b.en ∧ (n.rate ≠ b.rate ∨ n.burst ≠ b.burst)) then n.init else n

/-- SHAPE_BKT_SET (R387 to R390). -/
def execShapeBktSet (f : Frame) (agg : Bool) (slice bkt : Nat) (cfg : Reg64) (s : State) : Res :=
  command 0xC901 f (.shapeBktSet f agg slice bkt cfg)
    (fun s => checks [(! s.bktExists agg slice bkt, rcNotFound), (s.bktRefused agg slice bkt cfg || decide (0x47 < bits cfg.toNat 59 53 ∧ bits cfg.toNat 59 53 < 0x7F), rcParam)])
    (fun s =>
      let k := bktKey agg slice bkt
      let old := s.bucket k
      let new := old.configure cfg
      let s1 := s.putBucket k new
      let s2 : State := if old.en ∧ ¬ new.en then
          { s1 with shape := { s1.shape with waiting := s1.shape.waiting.map (fun c => { c with bkts := c.bkts.filter (fun x => x != k) }) } }
        else s1
      (s2.freeCharges (s2.shape.waiting.length + 1), rcOk, [])) s

/-- BKT_TOK as a 64-bit two's complement number. -/
def Bucket.tokReg (b : Bucket) : Nat := (BitVec.ofInt 64 b.tok).toNat

/-- SHAPE_BKT_GET (R409, R488). -/
def execShapeBktGet (f : Frame) (agg : Bool) (slice bkt : Nat) (s : State) : Res :=
  commandR 0xC902 f (.shapeBktGet f agg slice bkt)
    { guard := fun role own s => checks [(role == 4 && (agg || own != slice), rcRole), (! s.bktExists agg slice bkt, rcNotFound)]
      run := fun _ _ s => (s, rcOk, [(s.bucket (bktKey agg slice bkt)).cfg.toNat, (s.bucket (bktKey agg slice bkt)).tokReg]) } s

/-- SHAPE_STATUS (R409): shaping-queue occupancy per upstream port, then each bucket with charges waiting. -/
def execShapeStatus (f : Frame) (s : State) : Res :=
  query 0xC903 f (.shapeStatus f) (fun _ => none)
    (fun s =>
      let ports := ((List.range 64).filter s.isUp).flatMap (fun p => [p, (s.hs.shapeQ.filter (fun x => x.1 == p && x.2.1)).length])
      let keys := addAll (s.shape.waiting.flatMap (fun c => c.bkts)) []
      ports ++ keys.flatMap (fun k => [b2n k.1, k.2, (s.shape.waiting.filter (fun c => c.bkts.contains k)).length])) s

/-! ### GATE group (R391 to R397, R402, R406) -/

/-- A gated point: a downstream port, or a trunk port. -/
def State.gated (s : State) (point : Nat) : Bool := s.isDown point || (decide (0x40 ≤ point) && decide (point ≤ 0x47))

/-- GATE_LIST_SET: the shadow set of a point. -/
def execGateListSet (f : Frame) (point : Nat) (ctl base : Reg64) (entries : List Reg32) (s : State) : Res :=
  command 0xCA01 f (.gateListSet f point ctl base entries)
    (fun s =>
      let g : GateSet := { ctl := ctl, base := base, list := entries }
      checks
        [(! s.gated point, rcParam),
         (entries.isEmpty || decide (128 < entries.length) || entries.length != bits ctl.toNat 61 54 + 1, rcParam),
         (entries.any (fun e => bits e.toNat 23 0 == 0), rcParam),
         (decide (g.cycle < 125) || decide (12500000 < g.cycle), rcParam)])
    (fun s => (s.modGate point (fun g => { g with shadow := { ctl := ctl &&& 0xFFC0FFFFFF000000, base := base, list := entries.map (fun e => e &&& 0x07FFFFFF) } }), rcOk, [])) s

/-- The first cycle start of a free-running set at or after a time (R402). -/
def GateSet.startFrom (g : GateSet) (t : Nat) : Nat :=
  let b := g.base.toNat
  let c := max 1 (g.cycle * 8)
  if t ≤ b then b else b + (t - b + c - 1) / c * c

/-- GATE_COMMIT (R396, R406). -/
def execGateCommit (f : Frame) (point : Nat) (s : State) : Res :=
  command 0xCA02 f (.gateCommit f point)
    (fun s => checks
      [(! s.gated point, rcParam), ((s.gate point).pending.isSome, rcBusy), (! s.setOk point (s.gate point).shadow, rcParam)])
    (fun s =>
      let g := (s.gate point).shadow
      let t := if g.tsync then s.shape.mtime + 2000 else g.startFrom (s.shape.mtime + 2000)
      (s.modGate point (fun x => { x with pending := some (g, t) }), rcOk, [])) s

/-- A gate set as GATE_GET returns it. -/
def GateSet.report (g : GateSet) : List Nat := [g.ctl.toNat, g.base.toNat, g.list.length] ++ g.list.map (fun e => e.toNat)

/-- GATE_GET: the set in force and the shadow set. -/
def execGateGet (f : Frame) (point : Nat) (s : State) : Res :=
  query 0xCA03 f (.gateGet f point) (fun s => checks [(! s.gated point, rcParam)])
    (fun s => (s.gate point).now.report ++ (s.gate point).shadow.report ++ [b2n (s.gate point).pending.isSome]) s

/-- GATE_TSYNC_SET (R404): LOSS in 100 microsecond steps, 1 ms to 6.5 s. -/
def execGateTsyncSet (f : Frame) (loss : Nat) (s : State) : Res :=
  command 0xCA05 f (.gateTsyncSet f loss) (fun _ => checks [(decide (loss < 10) || decide (65000 < loss), rcParam)])
    (fun s => ({ s with shape := { s.shape with loss := loss } }, rcOk, [])) s

/-! ### Cycles and TSYNC (R402 to R406) -/

/-- The groups the entry in force opens at a point, as bits: 0 latency, 1 bulk, 2 management. -/
def State.openGroups (s : State) (point : Nat) : Nat :=
  b2n (s.groupOpen point 0) + 2 * b2n (s.groupOpen point 1) + 4 * b2n (s.groupOpen point 2)

/-- Entry 0 begins at a point at a time. -/
def State.restart (s : State) (point t : Nat) : State :=
  s.modGate point (fun g => { g with entry := 0, start := t, entryAt := t, shut := false })

/-- A transfer still under way after its group has closed is counted (R399, R405). -/
def State.overrunCheck (before after : State) (point : Nat) : State :=
  match (after.arbOf point).grant with
  | none => after
  | some x =>
    let g := if tierOf x.req = 0 then 0 else 1
    if decide (point < 64) && before.groupOpen point g && ! after.groupOpen point g then
      (after.modGate point (fun y => { y with overrun := min 65535 (y.overrun + 1) })).gateEvent 13 point
    else after

/-- The pending set of a point takes force at a time (R406). -/
def State.swapGate (s : State) (point t : Nat) : State :=
  match (s.gate point).pending with
  | none => s
  | some p => ((s.modGate point (fun g => { g with now := p.1, pending := none })).restart point t).gateEvent 16 point

/-- GATE_SWAP (R406): a free-running set at its swap time. -/
def execGateSwap (point : Nat) (s : State) : Res :=
  evt (match (s.gate point).pending with | some p => ! p.1.tsync && decide (p.2 ≤ s.shape.mtime) && s.shape.running | none => false)
    (fun s => match (s.gate point).pending with
      | some p => s.overrunCheck (s.swapGate point p.2) point
      | none => s) s

/-- The cycle start of a gate that MTIME has reached: of the free-running times of R402, or one cycle after the last (R403). -/
def State.cycleDue (s : State) (point : Nat) : Option Nat :=
  let g := s.gate point
  let c := max 1 (g.now.cycle * 8)
  if ¬ g.now.en then none
  else if g.now.tsync then (if g.start + c ≤ s.shape.mtime then some (g.start + (s.shape.mtime - g.start) / c * c) else none)
  else
    let b := g.now.base.toNat
    let t := b + (s.shape.mtime - b) / c * c
    if b ≤ s.shape.mtime ∧ g.start < t then some t else none

/-- CYCLE_START (R402, R403, R410). -/
def execCycleStart (point : Nat) (s : State) : Res :=
  evt (s.shape.running && (s.cycleDue point).isSome) (fun s => match s.cycleDue point with
    | some t => s.overrunCheck (s.restart point t) point
    | none => s) s

/-- GATE_ENTRY (R393): the next entry of the list takes force once the one in force has lasted its interval. -/
def execGateEntry (point : Nat) (s : State) : Res :=
  let g := s.gate point
  evt (s.shape.running && g.now.en && decide (g.entry + 1 < g.now.spans.length)
      && (match g.now.spans[g.entry]? with | some e => decide (g.entryAt + 8 * e.2 ≤ s.shape.mtime) | none => false))
    (fun s => s.overrunCheck (s.modGate point (fun g => match g.now.spans[g.entry]? with
      | some e => { g with entry := g.entry + 1, entryAt := g.entryAt + 8 * e.2 }
      | none => g)) point) s

/-- An accepted TSYNC edge at one point: a pending swap whose 2 microseconds are over, or a new cycle (Table 8.6). -/
def State.tsyncAt (s : State) (point : Nat) : State :=
  let g := s.gate point
  let s1 := match g.pending with
    | some p => if p.1.tsync ∧ p.2 ≤ s.shape.mtime then s.swapGate point s.shape.mtime
      else if g.now.en ∧ g.now.tsync then s.restart point s.shape.mtime else s
    | none => if g.now.en ∧ g.now.tsync then s.restart point s.shape.mtime else s
  s.overrunCheck s1 point

/-- TSYNC (R403): accepted 1 microsecond or more after the last accepted edge, otherwise TSYNC_EARLY. -/
def execTsync (s : State) : Res :=
  evt (s.running && s.shape.running) (fun s =>
    if s.shape.edgeAt.any (fun t => decide (s.now < t + 25)) then { s with shape := { s.shape with event := s.shape.event.raise 14 0 0 } }
    else
      let s1 := (s.shape.gate.map (fun e => e.1)).foldl (fun s p => s.tsyncAt p) s
      { s1 with shape := { s1.shape with stamp := (s.shape.mtime + 2 ^ 64 - 64) % 2 ^ 64, edgeAt := some s.now } }) s

/-- TSYNC_LOSS (R404). -/
def execTsyncLoss (s : State) : Res :=
  evt (s.running && s.shape.running) (fun s => { s with shape := { s.shape with event := s.shape.event.raise 15 0 0 } }) s

end Sys2Proof.Machine
end

