-- ==== Sys2Proof/Machine/SliceCmd.lean ====
section
/-! DEFINITION. SLICE group, slice images, dirty logs, and the slice channel (chapter 9). -/
namespace Sys2Proof.Machine

/-! ### Creating and changing slices (R413, R414, R417 to R419) -/

/-- Slices with a non-zero PASID. -/
def State.taggedSlices (s : State) : Nat := (s.slices.filter (fun e => e.2.pasid != 0)).length

/-- No number is left for a slice with a non-zero PASID (R413). -/
def State.sliceFull (s : State) : Bool := decide (464 ≤ s.taggedSlices) || s.freeSlice.isNone

/-- SLICE_CREATE (R413, R460). -/
def execSliceCreate (f : Frame) (host pasid : Nat) (s : State) : Res :=
  command 0xC601 f (.sliceCreate f host pasid)
    (fun s => (s.hostCheck host).orElse (fun _ => checks
      [(pasid == 0 || decide (2 ^ 20 ≤ pasid), rcParam), ((s.sliceKey host pasid).isSome, rcBusy), (s.sliceFull, rcNoRes)]))
    (fun s => (s.addSlice host pasid, rcOk, s.freeSlice.toList)) s

/-- An entry may be named in a BINDMASK: it exists and is not being removed (R414). -/
def State.maskable (s : State) (h n : Nat) : Bool :=
  decide (n < 512) && (match Tbl.find s.pool.ent (512 * h + n) with | some e => e.state != .removing | none => false)

/-- An entry is named in another slice's BINDMASK. -/
def State.maskedElse (s : State) (sl h n : Nat) : Bool :=
  s.slices.any (fun e => e.1 != sl && e.2.host == h && e.2.mask.contains n)

/-- The cases in which SLICE_SET is answered INVALID_PARAM (R414). -/
def State.maskBad (s : State) (sl : Nat) (x : Slice) (m : List Nat) : Bool :=
  x.pasid == 0 || m.any (fun n => ! s.maskable x.host n || s.maskedElse sl x.host n)

/-- SLICE_SET (R414, R417, R460). -/
def execSliceSet (f : Frame) (slice : Nat) (mask : Option (List Nat)) (userCounters : Option Bool) (s : State) : Res :=
  command 0xC602 f (.sliceSet f slice mask userCounters)
    (fun s => match s.slice slice with
      | none => some rcNotFound
      | some x => (s.hostCheck x.host).orElse (fun _ => checks
        [(mask.any (fun m => s.maskBad slice x m), rcParam), (mask.isSome && x.log.isSome, rcBusy)]))
    (fun s =>
      let f := fun (x : Slice) => { x with mask := (match mask with | some m => addAll m [] | none => x.mask), userCnt := userCounters.getD x.userCnt }
      (s.modSlice slice f, rcOk, [])) s

/-- A slice still holds something SLICE_DESTROY waits for (R419). -/
def State.sliceHolds (s : State) (n : Nat) (x : Slice) : Bool :=
  ! (s.sliceRings n).isEmpty || (List.range 16).any (fun b => (s.bucket (false, 16 * n + b)).en) || ! (s.sliceChans n).isEmpty || x.log.isSome

/-- SLICE_DESTROY (R419). -/
def execSliceDestroy (f : Frame) (slice : Nat) (s : State) : Res :=
  command 0xC603 f (.sliceDestroy f slice)
    (fun s => match s.slice slice with
      | none => some rcNotFound
      | some x => checks [(x.pasid == 0, rcParam), (s.sliceHolds slice x, rcBusy)])
    (fun s => (s.releaseSlice slice, rcOk, [])) s

/-- Code of a slice state (Table 9.3). -/
def SState.code (x : SState) : Nat := match x with | .active => 0 | .freezing => 1 | .frozen => 2

/-- Slice counters 0 to 7 as a slice reads them. -/
def Slice.counters (x : Slice) : List Nat := (List.range 8).map (fun i => (Tbl.get ({} : Cnt) x.cnt i).read)

/-- SLICE_STATUS (R460, R488, R537): state, resources and counters; counters read zero while USER_COUNTERS = 0. -/
def execSliceStatus (f : Frame) (slice : Nat) (s : State) : Res :=
  commandR 0xC604 f (.sliceStatus f slice)
    { guard := fun role own s => checks [(tenantElse role own slice, rcRole), ((s.slice slice).isNone, rcNotFound)]
      run := fun _ _ s => (s, rcOk, match s.slice slice with
        | none => []
        | some x => [slice, x.host, x.pasid, x.cut.toNat, x.state.code, b2n x.userCnt, b2n x.log.isSome, maskOf x.mask, x.window.getD (2 ^ 64 - 1), x.area.getD (2 ^ 64 - 1), b2n x.chan.isSome, maskOf (s.sliceChans slice)]
          ++ (if x.userCnt then x.counters else List.replicate 8 0)
          ++ (s.sliceRings slice).flatMap (fun r => [(s.ring r).slot, r])) } s

/-- SLICE_COUNTER_CLEAR (R417, R488). -/
def execSliceCounterClear (f : Frame) (slice : Nat) (s : State) : Res :=
  commandR 0xC613 f (.sliceCounterClear f slice)
    { guard := fun role own s => checks
        [(tenantElse role own slice, rcRole), ((s.slice slice).isNone, rcNotFound), (role == 4 && (s.slice slice).any (fun x => ! x.userCnt), rcRole)]
      run := fun _ _ s => (s.modSlice slice (fun x => { x with cnt := [] }), rcOk, []) } s

/-- A posting window is free to take: its unit is covered by no valid entry of the host, and it is no other slice's (R418). -/
def State.windowOk (s : State) (sl : Nat) (x : Slice) (w : Nat) : Bool :=
  decide (w % 4096 = 0) && decide (w < 2 ^ 46) && (s.entryAt x.host (w / 2 ^ 28)).isNone
    && ! s.slices.any (fun e => e.1 != sl && e.2.host == x.host && e.2.window == some w)

/-- SLICE_WINDOW_SET (R417, R418); a setting not given stays. -/
def execSliceWindowSet (f : Frame) (slice : Nat) (window area : Option Nat) (s : State) : Res :=
  command 0xC609 f (.sliceWindowSet f slice window area)
    (fun s => match s.slice slice with
      | none => some rcNotFound
      | some x => checks
        [(window.any (fun w => ! s.windowOk slice x w), rcParam),
         (area.any (fun a => decide (a % 4096 ≠ 0) || ! s.sliceRange slice a 4096), rcParam)])
    (fun s => (s.modSlice slice (fun x => { x with window := window.orElse (fun _ => x.window), area := area.orElse (fun _ => x.area) }), rcOk, [])) s

/-! ### Freezing and thawing (R420 to R423, R459) -/

/-- The execution of a freeze: a FROZEN slice answers at once, another when it is FROZEN. -/
def State.freezeCmd (s : State) (f : Frame) (op slice : Nat) : State × Nat × List Nat :=
  if (s.slice slice).any (fun x => x.state == .frozen) then (s, rcOk, [])
  else ((s.modSlice slice (fun x => { x with state := .freezing, freezers := x.freezers ++ [(f, op)] })).freezeCheck slice, rcLater, [])

/-- NOT_FOUND for a slice that does not exist. -/
def State.noSlice (s : State) (slice : Nat) : Option Nat := if (s.slice slice).isNone then some rcNotFound else none

/-- SLICE_FREEZE (R420 to R423, R459). -/
def execSliceFreeze (f : Frame) (slice : Nat) (s : State) : Res :=
  command 0xC605 f (.sliceFreeze f slice) (fun s => s.noSlice slice) (fun s => s.freezeCmd f 0xC605 slice) s

/-- SLICE_FREEZE_V1 (R487). -/
def execSliceFreezeV1 (f : Frame) (slice : Nat) (s : State) : Res :=
  command 0xD041 f (.sliceFreezeV1 f slice) (fun s => s.noSlice slice) (fun s => s.freezeCmd f 0xD041 slice) s

/-- A thaw's answer without effect: no such slice, or FREEZING (R459). -/
def State.thawCheck (s : State) (slice : Nat) : Option Nat :=
  match s.slice slice with
  | none => some rcNotFound
  | some x => if x.state = .freezing then some rcBusy else none

/-- A slice is ACTIVE again; its rings and channels go on from where they stand (R459). -/
def State.thaw (s : State) (slice : Nat) : State := s.modSlice slice (fun x => { x with state := .active })

/-- SLICE_THAW (R459). -/
def execSliceThaw (f : Frame) (slice : Nat) (s : State) : Res :=
  command 0xC606 f (.sliceThaw f slice) (fun s => s.thawCheck slice) (fun s => (s.thaw slice, rcOk, [])) s

/-- SLICE_THAW_V1 (R487). -/
def execSliceThawV1 (f : Frame) (slice : Nat) (s : State) : Res :=
  command 0xD044 f (.sliceThawV1 f slice) (fun s => s.thawCheck slice) (fun s => (s.thaw slice, rcOk, [])) s

/-! ### Images (R456 to R458) -/

/-- A field of an image at a byte offset. -/
def imgAt (off v : Nat) : Nat := v * 2 ^ (8 * off)

/-- The 8-byte binding range of an entry in Table 5.7 format, HOME and FEXT zero. -/
def rangeWord (e : Ent) : Nat := Ent.pack { e with home := 0, fext := 0 }

/-- What bytes 0x0040 to 0x007F of an image hold (Table 9.14): window and area, with 1 where they are set, and the slice channel. -/
def State.imageHeld (s : State) (slice : Nat) (x : Slice) : List Nat :=
  let opt := fun (o : Option Nat) => match o with | some v => [1, v] | none => [0, 0]
  let ch := match x.chan with
    | none => [0]
    | some c => [1, c.reqBase, c.reqLog, c.repBase, c.repLog, c.reqTail, c.reqHead, b2n c.reqPhase, c.repTail, c.repHead, b2n c.repPhase]
  opt x.window ++ opt x.area ++ ch

/-- What ring slot `j` of a slice holds for an image (Table 9.14): nothing where no ring has the slot. -/
def State.imageRing (s : State) (slice j : Nat) : List Nat :=
  match (s.sliceRings slice).find? (fun n => (s.ring n).slot == j) with
  | none => []
  | some n =>
    let r := s.ring n
    let q := s.cring r.cq
    [r.base, r.log2, r.head, r.tail, b2n r.phase, r.state.code, b2n r.stopOnErr, q.vec, (s.sliceChans slice).findIdx (fun c => c == r.ch),
      q.base, q.log2, q.tail, q.head, b2n q.phase]

/-- The blocks at 0x0040 to 0x057F of an image (Table 9.14): the window, area and channel, sixteen ring slots, sixteen channel slots,
each a free value of what it holds (log 54). -/
def State.imageBlocks (s : State) (slice : Nat) (x : Slice) : Nat :=
  let block := fun (at' bytes : Nat) (l : List Nat) => imgAt at' (Config.imageBlock l % 2 ^ (8 * bytes))
  let all := fun (f : Nat → Nat) => ((List.range 16).map f).foldl (fun a b => a + b) 0
  block 0x40 64 (0 :: s.imageHeld slice x) + all (fun j => block (0x80 + 64 * j) 64 (1 :: s.imageRing slice j))
    + all (fun j => block (0x480 + 16 * j) 16 (2 :: match (s.sliceChans slice)[j]? with
      | some c => [(s.chan c).prio, (s.chan c).share, (s.chan c).wdog]
      | none => []))

/-- Bytes 0x0000 to 0x3FDF of an image, the CRC apart (Table 9.14). -/
def State.imageBody (s : State) (slice : Nat) (x : Slice) (sealed : Bool) : Nat :=
  let es := ((s.entsOf x.host).filter (fun e => e.2.admits && (x.pasid == 0 || x.mask.contains e.1))).map (fun e => rangeWord e.2)
  let sum := fun (base step : Nat) (l : List Nat) => (l.zipIdx.map (fun p => imgAt (base + step * p.2) p.1)).foldl (fun a b => a + b) 0
  imgAt 0 0x4D495653 + imgAt 4 2 + imgAt 6 (b2n sealed + 2 * b2n x.log.isSome + 4) + imgAt 8 16384 + imgAt 0xC (s.glob.serial % 2 ^ 64)
    + imgAt 0x14 (x.pasid % 2 ^ 20 + x.host % 64 * 2 ^ 20) + imgAt 0x18 x.cut.toNat + imgAt 0x1A (b2n x.userCnt)
    + s.imageBlocks slice x
    + sum 0x580 16 ((List.range 16).map (fun b => (s.bucket (false, 16 * slice + b)).cfg.toNat))
    + sum 0x680 8 x.counters + sum 0x1000 8 es

/-- Bytes `a` up to `b` of a number, least significant first. -/
def bytesFrom (v a b : Nat) : List Byte := (List.range (b - a)).map (fun i => BitVec.ofNat 8 (v / 2 ^ (8 * (a + i))))

/-- The image of a slice: its body with the CRC-32C, and the seal under the hierarchy key where one is set. -/
def State.image (s : State) (slice : Nat) (x : Slice) : Nat :=
  let v := s.imageBody slice x s.hier.key.isSome
  let v1 := v + imgAt 0x1C (crcMore 0 (bytesFrom v 0x40 0x3FE0))
  match s.hier.key with
  | none => v1
  | some k => v1 + imgAt 0x3FE0 (Config.hmac k (bytesFrom v1 0 0x3FE0)).toNat

/-- A save's answer without effect: no such slices, a slice not FROZEN, or an address its owner does not translate. -/
def State.saveCheck (s : State) (slice : Nat) (owner : Option Nat) (addr : Nat) : Option Nat :=
  match s.slice slice, owner.bind s.slice with
  | some x, some _ => checks [(x.state != .frozen, rcParam), (! s.sliceRange (owner.getD 512) addr 16384, rcParam)]
  | _, _ => some rcNotFound

/-- The image written to the owner's memory, page by page. -/
def State.saveTo (s : State) (slice owner addr : Nat) : State :=
  match s.slice slice with
  | none => s
  | some x =>
    let v := s.image slice x
    [0, 1, 2, 3, 4].foldl (fun s i =>
      -- an address that is not on a page boundary cuts the image into five pieces
      let a := if i = 0 then addr else (addr / 4096 + i) * 4096
      let b := min (addr + 16384) ((addr / 4096 + i + 1) * 4096)
      if b ≤ a then s
      else match s.sliceFpa owner a with
        | some (_, fpa) => s.emit (.poolWr fpa (b - a) (v / 2 ^ (8 * (a - addr)) % 2 ^ (8 * (b - a))))
        | none => s) s

/-- SLICE_SAVE (R456). -/
def execSliceSave (f : Frame) (slice owner addr : Nat) (s : State) : Res :=
  command 0xC607 f (.sliceSave f slice owner addr) (fun s => s.saveCheck slice (some owner) addr) (fun s => (s.saveTo slice owner addr, rcOk, [])) s

/-- The owner slice of SLICE_SAVE_V1: the PASID 0 slice of the session's host (Table 10.6). -/
def State.callerSlice (s : State) (f : Frame) : Option Nat :=
  match f.xport with
  | .cxl => (s.hostAt f.port).bind (fun h => s.sliceKey h 0)
  | _ => none

/-- SLICE_SAVE_V1 (R487). -/
def execSliceSaveV1 (f : Frame) (slice addr : Nat) (s : State) : Res :=
  command 0xD042 f (.sliceSaveV1 f slice addr) (fun s => s.saveCheck slice (s.callerSlice f) addr)
    (fun s => (s.saveTo slice ((s.callerSlice f).getD 512) addr, rcOk, [])) s

/-- A channel is free for SLICE_RESTORE. -/
def State.chanFree (s : State) (c : Nat) : Bool := chanOk c && (s.chan c).slice.isNone && ! s.chanHeld c && ! (s.chan c).out

/-- The entry of a host that matches a range of an image, and that no other slice has (R414, R457). -/
def State.matchEnt (s : State) (host : Nat) (r : Nat × Nat × Nat) : Option Nat :=
  ((s.entsOf host).find? (fun e => e.2.state == .valid && e.2.hoffExt == r.1 && e.2.nm1 == r.2.1 && e.2.access == r.2.2
    && ! s.maskedElse 512 host e.1)).map (·.1)

/-- Submission and completion rings free for SLICE_RESTORE, ascending. -/
def State.freeRings (s : State) : List Nat := (List.range 256).filter (fun n => (s.ring n).state == .unassigned)
/-- Completion rings no ring uses. -/
def State.freeCrings (s : State) : List Nat := (List.range 256).filter (fun n => (s.ringsOfCq n).isEmpty)

/-- A field of a saved ring or channel slot: ring [page slot, base, log2, HEAD, TAIL, SQ phase, STATE,
STOP_ON_ERR, vector, channel slot, completion base, log2, tail, head, phase]; channel [PRIO, SHARE, WDOG]. -/
def slotFld (l : List Nat) (i : Nat) : Nat := l.getD i 0

/-- The cases in which SLICE_RESTORE has no effect (R457, R460). -/
def State.restoreCheck (s : State) (host pasid addr : Nat) (chmap : Option (List Nat)) (img : Image) : Option Nat :=
  (s.hostCheck host).orElse (fun _ => checks
    [((s.sliceKey host pasid).isSome, rcBusy),
     (chmap.any (fun l => l.any (fun c => ! s.chanFree c)), rcBusy),
     (pasid == 0 || decide (2 ^ 20 ≤ pasid), rcParam),
     (! img.magicOk || img.version != 2 || img.size != 16384 || ! img.crcOk || (img.seald && ! img.sealOk), rcParam),
     (! s.sliceRange ((s.sliceKey host 0).getD 512) addr 16384, rcParam),
     (chmap.any (fun l => l.length != img.chans.length || decide (¬ l.Nodup)), rcParam),
     (img.ranges.any (fun r => (s.matchEnt host r).isNone), rcParam),
     (img.rings.any (fun r => decide (img.chans.length ≤ slotFld r 9) || decide (15 < slotFld r 0)), rcParam),
     (s.sliceFull, rcNoRes),
     (chmap.isNone && decide (((List.range 64).filter (fun c => s.chanFree c)).length < img.chans.length), rcNoRes),
     (decide (s.freeRings.length < img.rings.length) || decide (s.freeCrings.length < img.rings.length), rcNoRes)])

/-- A saved value of an image a predecessor wrote: zero stands for the reset value (R458). -/
def orReset (img : Image) (v reset : Nat) : Nat := if ¬ img.sv8650 ∧ v = 0 then reset else v

/-- STATE of a saved ring. -/
def savedState (n : Nat) : RState := match n with | 2 => .run | 3 => .drain | 4 => .error | _ => .off

/-- The rings of an image restored, each with its submission and completion ring number. -/
def State.restoreRings (s : State) (sl : Nat) (chs : List Nat) (img : Image) : State :=
  let bases := addAll (img.rings.map (fun r => slotFld r 10)) []
  let cqOf := fun r => s.freeCrings.getD (bases.findIdx (fun b => b == slotFld r 10)) 0
  (img.rings.zip s.freeRings).foldl (fun s p =>
    let r := p.1
    let g : Ring := { state := savedState (slotFld r 6), ch := chs.getD (slotFld r 9) 0, slot := slotFld r 0, base := slotFld r 1, log2 := slotFld r 2, fetch := slotFld r 3, head := slotFld r 3, tail := slotFld r 4, phase := slotFld r 5 == 1, stopOnErr := slotFld r 7 == 1, cq := cqOf r, drainTail := slotFld r 4 }
    let n := 2 ^ slotFld r 11
    let q : CRing := { slice := some sl, base := slotFld r 10, log2 := slotFld r 11, tail := slotFld r 12, head := slotFld r 13, outst := (slotFld r 12 + n - slotFld r 13) % n, phase := slotFld r 14 == 1, vec := slotFld r 8 }
    (s.modRing p.2 (fun _ => g)).modCring (cqOf r) (fun _ => q)) s

/-- The slice channel of an image; a request ring of size zero stands for none. -/
def imgChan (img : Image) : Option SChan :=
  if img.chanReqLog = 0 then none
  else some { reqBase := img.chanReqBase, reqLog := img.chanReqLog, repBase := img.chanRepBase, repLog := img.chanRepLog, vec := 0, reqTail := img.chanReqTail, reqHead := img.chanReqHead, reqPhase := img.chanReqPhase, repTail := img.chanRepTail, repHead := img.chanRepHead, repPhase := img.chanRepPhase, repUsed := (img.chanRepTail + 2 ^ img.chanRepLog - img.chanRepHead) % 2 ^ img.chanRepLog, peers := [], zornes := [] }

/-- A slice restored from an image on named channels (R458). -/
def State.restoreSlice (s : State) (host pasid : Nat) (chs : List Nat) (img : Image) : State :=
  match s.freeSlice with
  | none => s
  | some n =>
    let cnts := img.counters.zipIdx.foldl (fun (t : Tbl Cnt) p => Tbl.set ({} : Cnt) t p.2 { count := BitVec.ofNat 48 p.1.1, ovf := p.1.2 }) []
    let x : Slice := { newSlice host pasid with state := .frozen, mask := addAll (img.ranges.filterMap (fun r => s.matchEnt host r)) [], userCnt := img.userCounters, window := img.window, area := img.area, chan := imgChan img, cnt := cnts }
    let s1 : State := { s with slices := Tbl.put s.slices n x }
    let s2 := (chs.zip img.chans).foldl (fun s p => s.modCh p.1 (fun c =>
      { c with slice := some n, prio := orReset img (slotFld p.2 0) 7 % 8, share := slotFld p.2 1 % 256, wdog := orReset img (slotFld p.2 2) 100 })) s1
    let s3 := s2.restoreRings n chs img
    let s4 := img.buckets.zipIdx.foldl (fun s p =>
      let cfg := BitVec.ofNat 64 (orReset img p.1.toNat ({} : Bucket).cfg.toNat)
      if p.2 < 16 then s.putBucket (false, 16 * n + p.2) (({} : Bucket).configure cfg) else s) s3
    if s4.locked 1 then s4
    else { s4 with ward := { s4.ward with stSlice := Tbl.put s4.ward.stSlice n (BitVec.ofNat 12 (orReset img img.cut.toNat 0xFFF)) } }

/-- SLICE_RESTORE (R457, R458). -/
def execSliceRestore (f : Frame) (host pasid addr : Nat) (chmap : List Nat) (img : Image) (s : State) : Res :=
  command 0xC608 f (.sliceRestore f host pasid addr chmap img) (fun s => s.restoreCheck host pasid addr (some chmap) img)
    (fun s => (s.restoreSlice host pasid chmap img, rcOk, s.freeSlice.toList)) s

/-- SLICE_RESTORE_V1 (R487): the lowest free channels, in ascending slot order. -/
def execSliceRestoreV1 (f : Frame) (host pasid addr : Nat) (img : Image) (s : State) : Res :=
  command 0xD043 f (.sliceRestoreV1 f host pasid addr img) (fun s => s.restoreCheck host pasid addr none img)
    (fun s => (s.restoreSlice host pasid (((List.range 64).filter (fun c => s.chanFree c)).take img.chans.length) img, rcOk, s.freeSlice.toList)) s

/-! ### Dirty logs (R451 to R455) -/

/-- Bytes of one log buffer for a number of extents. -/
def logBytes (n : Nat) : Nat := 8192 * n

/-- LOG_START (R451, R452, R453). -/
def execLogStart (f : Frame) (slice owner buf0 buf1 : Nat) (s : State) : Res :=
  command 0xC610 f (.logStart f slice owner buf0 buf1)
    (fun s => match s.slice slice, s.slice owner with
      | some x, some _ =>
        let n := logBytes (s.sliceExts slice).length
        checks
          [(x.log.isSome, rcBusy),
           (decide (buf0 % 4096 ≠ 0) || decide (buf1 % 4096 ≠ 0), rcParam),
           (! s.sliceRange owner buf0 n || ! s.sliceRange owner buf1 n, rcParam)]
      | _, _ => some rcNotFound)
    (fun s =>
      let es := s.sliceExts slice
      let g : DLog := { owner := owner, buf0 := buf0, buf1 := buf1, second := false, exts := es, bits := [] }
      ((s.modSlice slice (fun x => { x with log := some g })).emits ((s.remoteRuns es).map (fun r => Out.homeReq r.1 3 r.2.1 r.2.2)), rcOk, [])) s

/-- The inactive buffer of a log zero-filled, page by page (R454). -/
def State.zeroLog (s : State) (g : DLog) : State :=
  (List.range (2 * g.exts.length)).foldl (fun s i => match s.sliceFpa g.owner ((if g.second then g.buf0 else g.buf1) + 4096 * i) with
    | some (_, fpa) => s.emit (.poolWr fpa 4096 0)
    | none => s) s

/-- LOG_HARVEST (R454): it answers once its barrier, its recalls and the homes asked are done. -/
def execLogHarvest (f : Frame) (slice : Nat) (zero rcl : Bool) (s : State) : Res :=
  command 0xC611 f (.logHarvest f slice zero rcl)
    (fun s => if (s.slice slice).any (fun x => x.log.isSome) then none else some rcNotFound)
    (fun s => match (s.slice slice).bind (fun x => x.log) with
      | none => (s, rcOk, [0])
      | some g =>
        let rs := s.remoteRuns g.exts
        let s0 := if zero then s.zeroLog g else s
        let q : HomeReq := { frame := f, op := 0xC611, arg := slice, binds := [], asks := rs.map (fun r => { home := r.1, kind := if rcl then 8 else 7, ext := r.2.1, n := r.2.2 }), done := [], tries := 0 }
        let s1 := if rs.isEmpty then s0 else s0.askHomes q
        let h : Harvest := { frame := some f, slice := slice, back := (0, 0, 0), rcl := rcl, begun := false, sweep := none, bits := 0, remote := rs.map (fun r => r.1) }
        ({ s1 with mbx := { s1.mbx with harvests := s1.mbx.harvests ++ [h] } }, rcLater, [])) s

/-- LOG_STOP (R455). -/
def execLogStop (f : Frame) (slice : Nat) (s : State) : Res :=
  command 0xC612 f (.logStop f slice)
    (fun s => if (s.slice slice).any (fun x => x.log.isSome) then none else some rcNotFound)
    (fun s => (s.logOff slice, rcOk, [])) s

/-! ### The slice channel (R447 to R450) -/

/-- A size of a slice channel ring, and its place. -/
def State.chanRing (s : State) (slice base log2 : Nat) : Bool :=
  decide (2 ≤ log2) && decide (log2 ≤ 10) && decide (base % 4096 = 0) && s.sliceRange slice base (256 * 2 ^ log2)

/-- SLICE_CHAN_SET (R447). -/
def execSliceChanSet (f : Frame) (slice reqBase reqLog repBase repLog vec : Nat) (s : State) : Res :=
  command 0xC60A f (.sliceChanSet f slice reqBase reqLog repBase repLog vec)
    (fun s => match s.slice slice with
      | none => some rcNotFound
      | some x => checks
        [(x.chan.isSome, rcBusy),
         (! s.chanRing slice reqBase reqLog || ! s.chanRing slice repBase repLog || decide (2047 < vec), rcParam)])
    (fun s =>
      let c : SChan := { reqBase := reqBase, reqLog := reqLog, repBase := repBase, repLog := repLog, vec := vec, reqTail := 0, reqHead := 0, reqPhase := true, repTail := 0, repHead := 0, repPhase := true, repUsed := 0, peers := [], zornes := [] }
      ((s.modSlice slice (fun x => { x with chan := some c })).zeroRing slice repBase (256 * 2 ^ repLog), rcOk, [])) s

/-- The slice channel of a slice. -/
def State.schan (s : State) (slice : Nat) : Option SChan := (s.slice slice).bind (fun x => x.chan)
/-- The slice channel of a slice changed. -/
def State.modSchan (s : State) (slice : Nat) (f : SChan → SChan) : State := s.modSlice slice (fun x => { x with chan := x.chan.map f })

/-- A byte list as a little-endian number. -/
def packBytes (l : List Byte) : Nat := l.foldr (fun b r => b.toNat + r * 256) 0

/-- SLICE_CHAN_GET (R450): the PEER requests that wait, oldest first, at most 15 in one frame. -/
def execSliceChanGet (f : Frame) (slice : Nat) (s : State) : Res :=
  query 0xC60B f (.sliceChanGet f slice) (fun s => if (s.schan slice).isNone then some rcNotFound else none)
    (fun s => match s.schan slice with
      | none => []
      | some c => (c.peers.take 15).flatMap (fun p => [p.1, p.2.1, p.2.2.length, packBytes p.2.2])) s

/-- SLICE_CHAN_PUT (R450): the reply of a waiting PEER request, into the entry reserved for it. -/
def execSliceChanPut (f : Frame) (slice tag status len : Nat) (payload : List Byte) (s : State) : Res :=
  command 0xC60C f (.sliceChanPut f slice tag status len payload)
    (fun s => match s.schan slice with
      | none => some rcNotFound
      | some c => checks [(! c.peers.any (fun p => p.1 == tag), rcNotFound), (decide (240 < len) || payload.length != len, rcParam)])
    (fun s =>
      let op := match (s.schan slice).bind (fun c => c.peers.find? (fun p => p.1 == tag)) with | some p => p.2.1 | none => 0
      let s1 := s.modSchan slice (fun c => { c with peers := c.peers.eraseP (fun p => p.1 == tag) })
      (s1.schReply slice tag op status len (packBytes payload) false, rcOk, [])) s

/-- SCH_REQ_DB (R449): a doorbell of a FREEZING or FROZEN slice is recorded in the same way (R420). -/
def execSchReqDb (slice tail : Nat) (s : State) : Res :=
  evt (s.running && (s.schan slice).any (fun c => decide (tail < 2 ^ c.reqLog))) (fun s => s.modSchan slice (fun c => { c with reqTail := tail })) s

/-- SCH_REP_DB (R450): the replies before HEAD are free; one that names more than were written changes nothing. -/
def execSchRepDb (slice head : Nat) (s : State) : Res :=
  let freed := fun (c : SChan) => (head + 2 ^ c.repLog - c.repHead) % 2 ^ c.repLog
  evt (s.running && (s.schan slice).any (fun c => decide (head < 2 ^ c.repLog) && decide (freed c + c.peers.length + c.zornes.length ≤ c.repUsed)))
    (fun s => s.modSchan slice (fun c => { c with repHead := head, repUsed := c.repUsed - freed c })) s

/-- SLICE_CHANNEL_REQUEST (R449, R450): the request at the head is consumed with a reply entry reserved, once
an earlier ZORNE command has been answered. A
malformed one is answered; a ZORNE command is served next in the TENANT role; a PEER one waits for manager software. -/
def execSliceChannelRequest (slice : Nat) (phase cls : Bool) (opcode tag len : Nat) (payload : List Byte) (s : State) : Res :=
  evt (s.glob.pstate == .active && (s.slice slice).any (fun x => x.state == .active)
      && (s.schan slice).any (fun c => c.zornes.isEmpty && c.reqHead != c.reqTail && decide (c.repUsed < 2 ^ c.repLog)))
    (fun s =>
      let bad := (s.schan slice).any (fun c => phase != c.reqPhase) || decide (240 < len)
      let s1 := s.modSchan slice (fun c =>
        let h := (c.reqHead + 1) % 2 ^ c.reqLog
        { c with reqHead := h, reqPhase := if h = 0 then ! c.reqPhase else c.reqPhase, repUsed := c.repUsed + 1 })
      if bad then s1.schReply slice tag opcode rcParam 0 0 cls
      else if cls then s1.modSchan slice (fun c => { c with zornes := c.zornes ++ [(tag, opcode)] })
      else (s1.modSchan slice (fun c => { c with peers := c.peers ++ [(tag, opcode, payload.take len)] })).summary 2 0) s

end Sys2Proof.Machine
end

