-- ==== Sys2Proof/Machine/WardCmd.lean ====
section
/-! DEFINITION. WARD group, the commit of ward tables, and the ward registers as they read (chapter 9). -/
namespace Sys2Proof.Machine

/-! ### Registers of Table 9.12 -/

/-- WARD_DRAIN: the oldest epoch of an access in flight (R442). -/
def State.wardDrain (s : State) : Nat :=
  let w := s.ward
  let age := w.flight.foldl (fun m x => max m ((w.epoch + 2 ^ 32 - x.2.2) % 2 ^ 32)) 0
  (w.epoch + 2 ^ 32 - age) % 2 ^ 32

/-- WARD_STATUS.SPAN: epochs in flight. -/
def State.wardSpan (s : State) : Nat := (s.ward.epoch + 2 ^ 32 - s.wardDrain) % 2 ^ 32

/-- A commit waits at step 1 for an epoch to drain (R440). -/
def State.wardHeld (s : State) : Bool := ! s.ward.accepted.isEmpty && ! s.ward.checked && ! s.ward.copying && decide (15 ≤ s.wardSpan)

/-- WARD_STATUS. -/
def State.wardStatus (s : State) : Nat :=
  b2n (! s.ward.accepted.isEmpty || s.ward.copying) * 2 ^ 63 + b2n s.wardHeld * 2 ^ 62 + b2n s.ward.copying * 2 ^ 61
    + min s.wardSpan 15 * 2 ^ 56 + s.ward.denies

/-- WARD_AUDIT. -/
def State.wardAudit (s : State) : Nat :=
  s.ward.flagged.length * 2 ^ 51 + s.ward.flagged.headD 0 * 2 ^ 32 + s.ward.auditEpoch

/-! ### Regions and cuts (R427, R438, R416) -/

/-- A region's fields fit Table 9.7. -/
def regionFits (r : Region) : Bool := decide (r.base ≤ r.limit) && decide (r.limit < 2 ^ 44)

/-- WARD_REGION_SET (R427, R438, Table 9.10 step 4). -/
def execWardRegionSet (f : Frame) (n : Nat) (r : Region) (s : State) : Res :=
  command 0xC801 f (.wardRegionSet f n r)
    (fun s => checks [(decide (4096 ≤ n) || ! regionFits r, rcParam), (s.ward.copying, rcBusy)])
    (fun s =>
      let w := s.ward
      ({ s with ward := { w with shadow := Tbl.set {} w.shadow n r, bank0 := Tbl.set {} w.bank0 n r, bank1 := Tbl.set {} w.bank1 n r } }, rcOk, [])) s

/-- A region packed as Table 9.7. -/
def regionPack (r : Region) : Nat :=
  b2n r.v * 2 ^ 127 + r.cut.toNat * 2 ^ 115 + r.cutMask.toNat * 2 ^ 103 + r.permIn.toNat * 2 ^ 100 + r.permOut.toNat * 2 ^ 97
    + r.base % 2 ^ 44 * 2 ^ 44 + r.limit % 2 ^ 44

/-- WARD_REGION_GET (R460): the region in force and in shadow. -/
def execWardRegionGet (f : Frame) (n : Nat) (s : State) : Res :=
  query 0xC802 f (.wardRegionGet f n) (fun _ => if 4096 ≤ n then some rcParam else none)
    (fun s => [regionPack (Tbl.get ({} : Region) s.ward.now n), regionPack (Tbl.get ({} : Region) s.ward.shadow n)]) s

/-- WARD_CUT_SET (R416, R438): the cut of a slice, or of the device caching agent with a device index. -/
def execWardCutSet (f : Frame) (device : Bool) (idx : Nat) (cut : BitVec 12) (s : State) : Res :=
  command 0xC803 f (.wardCutSet f device idx cut)
    (fun s => if device then (if 16 ≤ idx then some rcParam else none) else s.noSlice idx)
    (fun s =>
      (if device then { s with ward := { s.ward with stDev := Tbl.put s.ward.stDev idx cut } }
       else { s with ward := { s.ward with stSlice := Tbl.put s.ward.stSlice idx cut } }, rcOk, [])) s

/-! ### Commits (R439, R440) -/

/-- The epoch the next commit asked for will produce. -/
def State.nextEpoch (s : State) : Nat := (s.ward.epoch + 1 + s.ward.accepted.length) % 2 ^ 32

/-- TARGET of WARD_COMMIT written, all copies. -/
def State.setTarget (s : State) (t : Nat) : State :=
  { s with ward := { s.ward with tgt0 := Tri.all (BitVec.ofNat 64 t), tgt1 := Tri.all (BitVec.ofNat 64 t) } }

/-- A commit accepted at step 1: its TARGET is the next epoch (R439). -/
def State.wardAccept (s : State) (target : Nat) : State :=
  let s1 := s.setTarget target
  { s1 with ward := { s1.ward with accepted := s1.ward.accepted ++ [target] } }

/-- A commit request: accepted, or refused with REFUSED set as its one effect (R439). -/
def State.wardRequest (s : State) (target : Nat) : State :=
  if target = s.nextEpoch then s.wardAccept target else s.wardEvent 22 0 0

/-- WARD_COMMIT (R439, R444). -/
def execWardCommit (f : Frame) (target : Nat) (s : State) : Res :=
  command 0xC804 f (.wardCommit f target) (fun _ => none)
    (fun s => (s.wardRequest target, if target = s.nextEpoch then rcOk else rcParam, [])) s

/-- WARD_COMMIT written: ignored and flagged while the WARD group is locked (R444, R513). -/
def State.wardCommitWrite (s : State) (target : Nat) (go : Bool) : State :=
  if s.locked 1 then (s.wardEvent 21 0 0).globEvent 20
  else if go then s.wardRequest (target % 2 ^ 32)
  else s.setTarget (target % 2 ^ 32)

/-- WARD_COMMIT_GO (R439, R444, R513): a write of WARD_COMMIT. -/
def execWardCommitGo (target : Nat) (go : Bool) (s : State) : Res :=
  evt s.running (fun s =>
s.wardCommitWrite target go) s

/-- The cut a slice will have after the commit. -/
def State.cutToBe (s : State) (sl : Nat) : BitVec 12 := (Tbl.find s.ward.stSlice sl).getD (s.sliceCut (some sl))

/-- A region is DMA-reachable and has a boundary off a 4 KiB boundary (R434). -/
def State.flags (s : State) (r : Region) : Bool :=
  r.v && (r.base % 16 != 0 || (r.limit + 1) % 16 != 0)
    && (List.range 64).any (fun c => match (s.chan c).slice with | some sl => regionPerm r (s.cutToBe sl) != 0 | none => false)

/-- The flagged regions of the table to be committed, ascending (R435). -/
def State.auditList (s : State) : List Nat := (s.ward.shadow.filter (fun e => s.flags e.2)).map (fun e => e.1)

/-- WARD_COMMIT_CHECK (R440 step 2, R434, R435): an oldest commit that is not held and behind no copying. -/
def execWardCommitCheck (s : State) : Res :=
  evt (s.running && ! s.ward.accepted.isEmpty && ! s.ward.checked && ! s.ward.copying && ! s.wardHeld) (fun s =>
    let w := s.ward
    if w.bank0 = w.shadow ∧ w.bank1 = w.shadow then
      { s with ward := { w with checked := true, flagged := s.auditList, auditEpoch := (w.epoch + 1) % 2 ^ 32 } }
    else s.wardRefuse) s

/-- Staged cuts take effect (R416, R440 step 3). -/
def State.applyCuts (s : State) : State :=
  let s1 := s.ward.stSlice.foldl (fun s e => s.modSlice e.1 (fun x => { x with cut := e.2 })) s
  { s1 with ward := { s1.ward with devCut := s1.ward.stDev.foldl (fun t e => Tbl.put t e.1 e.2) s1.ward.devCut, stSlice := [], stDev := [] } }

/-- WARD_SWITCH (R440 step 3, R461): both replicas swap banks, staged cuts and WARD_CTL take effect, and
WARD_EPOCH advances. -/
def execWardSwitch (s : State) : Res :=
  evt (s.running && s.ward.checked) (fun s =>
    let s1 := s.applyCuts
    let w := s1.ward
    let s2 := { s1 with ward := { w with now := w.bank0, bank0 := w.now, bank1 := w.now, ctlNow := w.ctl0.maj, epoch := (w.epoch + 1) % 2 ^ 32, accepted := w.accepted.drop 1, checked := false, copying := true } }
    if s2.ward.flagged.isEmpty then s2 else s2.wardEvent 20 0 0) s

/-- WARD_COPY_DONE (R440 step 4, R45): the new table is in the inactive banks and the master's shadow. -/
def execWardCopyDone (s : State) : Res :=
  evt (s.running && s.ward.copying) (fun s =>
    { s with ward := { s.ward with shadow := s.ward.now, bank0 := s.ward.now, bank1 := s.ward.now, copying := false } }) s

/-- WARD_STATUS_GET (R460): the registers of Table 9.12, the voted ones voted by the read (R15), and the flagged regions. -/
def execWardStatusGet (f : Frame) (s : State) : Res :=
  command 0xC805 f (.wardStatusGet f) (fun _ => none)
    (fun s => let s := s.tvFixAll [4, 5, 6, 7]
      (s, rcOk, [s.ward.ctl0.maj.toNat, s.ward.tgt0.maj.toNat % 2 ^ 32 * 2 ^ 32, s.ward.epoch, s.wardDrain, s.wardStatus, s.wardAudit, s.ward.event.read.toNat]
      ++ s.ward.flagged)) s

end Sys2Proof.Machine
end

