-- ==== Sys2Proof/Machine/TrunkRx.lean ====
section
/-! DEFINITION. Events of trunk lanes and links, and the receiving side of a trunk port (chapter 6). -/
namespace Sys2Proof.Machine

/-! ### What an INIT_CREDIT, AUTH_CHAL or RESUME carries -/

/-- Role byte of INIT_CREDIT: 1 manager, 2 worker, 0 undeclared and preferring MANAGER; an MA that has
been a worker since its last MODULE reset acts as one (R4, R306). -/
def State.roleByte (s : State) : Nat :=
  if s.glob.hrole = 1 then 1 else if s.glob.hrole = 0 ∧ s.glob.isMA ∧ s.hier.prefMgr ∧ ¬ s.hier.wasWorker then 0 else 2

/-- The twelve cumulative counts a receiver returns, header and data by class. -/
def Trunk.counts (x : Trunk) : List Nat := (List.range 12).map (fun i => Tbl.get 0 x.ret i)

/-- INIT_CREDIT sent (Table 6.10). -/
def State.sendInit (s : State) (t : Nat) : State :=
  (s.modTp t (fun x => { x with crdSent := x.ret, ownInit := (s.glob.midx, s.roleByte) })).emit (.control t 1 ([s.glob.serial, s.glob.midx, s.roleByte] ++ (s.tp t).counts))

/-- RESUME sent (Table 6.10). -/
def State.sendResume (s : State) (t : Nat) : State :=
  (s.modTp t (fun x => { x with crdSent := x.ret })).emit (.control t 5 ([((s.tp t).linkId.getD 0).toNat, (s.tp t).exp] ++ (s.tp t).counts))

/-- AUTH_CHAL sent (Table 6.10). -/
def State.sendChal (s : State) (t : Nat) : State := s.emit (.control t 2 [((s.tp t).nonceOwn.getD 0).toNat])

/-- The module takes part in trunk traffic. -/
def State.trunkLive (s : State) (t : Nat) : Bool := decide (t < 8) && s.glob.pstate == .active

/-! ### Training and alignment (R270, R279, R288 to R290) -/

/-- The trunk lane units of a trunk port. -/
def tpLanes (t : Nat) : List Nat := [4 * t, 4 * t + 1, 4 * t + 2, 4 * t + 3]

/-- TLANE_EQ_STATUS of a lane as training leaves it: PEAK where it overrides, and adapted values, which are free,
elsewhere; logical lane, corrections and the last margin scan are as before (Table 6.1, log 83). -/
def teqStatNow (use old : Reg32) (on : Bool) (r : BitVec 256) : Reg32 :=
  let peak := if bit use.toNat 31 then min 36 (bits use.toNat 29 24) else bits r.toNat 15 0 % 37
  BitVec.ofNat 32 (peak * 2 ^ 24 + b2n on * 2 ^ 23 + bits r.toNat 16 16 * 2 ^ 22) ||| (old &&& 0x003FFFFF)

/-- The trunk lanes of a trunk port as training leaves them; a fast retrain keeps the coefficients they last used (R290). -/
def State.trunkTrained (s : State) (t : Nat) (on : Bool) : State :=
  (tpLanes t).foldl (fun s l =>
    let old := Tbl.get (0 : Reg32) s.ports.teqStat l
    let v := if (s.tp t).fast then (old &&& 0xFF7FFFFF) ||| BitVec.ofNat 32 (b2n on * 2 ^ 23)
      else teqStatNow (Tbl.get (0x14000000 : Reg32) s.ports.teqCtl l) old on s.fresh
    ({ s with ports := { s.ports with teqStat := Tbl.set (0 : Reg32) s.ports.teqStat l v } } : State).drawn) s

/-- TRUNK_TRAIN_DONE (R270, R289, R290): precoding is in use where both partners requested it; a held link
retrains in HOLD. -/
def execTrunkTrainDone (tp : Nat) (precode : Bool) (s : State) : Res :=
  evt (s.trunkLive tp && ((s.tp tp).state == .train || (s.tp tp).state == .hold)) (fun s =>
    let on := precode && (tpLanes tp).all (fun l => ! bit (Tbl.get (0x14000000 : Reg32) s.ports.teqCtl l).toNat 22)
    (s.trunkTrained tp on).modTp tp (fun x => { x with state := if x.state = .train then .align else x.state, precode := on, tx := .tl0, rx := .tl0, lock := 0, lanePos := [], missed := [], mcount := [], fast := false })) s

/-- TRUNK_TRAIN_TIMEOUT (R288, R290): training starts again, with full equalisation. -/
def execTrunkTrainTimeout (tp : Nat) (s : State) : Res :=
  evt (s.trunkLive tp && ((s.tp tp).state == .train || (s.tp tp).state == .hold)) (fun s =>
    s.modTp tp (fun x => { x with precode := false, lock := 0, lanePos := [], missed := [], mcount := [], fast := false })) s

/-- Four lanes aligned: each holds marker lock, together they carry the four logical lanes, and their last
markers bear one MCOUNT (R279). -/
def Trunk.aligned (x : Trunk) : Bool :=
  x.lock == 0xF && decide (((List.range 4).map (fun l => Tbl.get 4 x.lanePos l)).Nodup)
    && [1, 2, 3].all (fun l => Tbl.find x.mcount l == Tbl.find x.mcount 0)

/-- TRUNK_ALIGN_DONE (R279, R289, R300): to INIT, sending INIT_CREDIT; a held link sends RESUME. A link whose skew, in
nanoseconds, exceeds 80 stays in ALIGN. -/
def execTrunkAlignDone (a : AlignOp) (s : State) : Res :=
  evt (decide (a.skew ≤ 80) && s.trunkLive a.tp && ((s.tp a.tp).state == .align || (s.tp a.tp).state == .hold) && (s.tp a.tp).aligned) (fun s =>
    if (s.tp a.tp).state = .hold then s.sendResume a.tp
    else (s.modTp a.tp (fun x => { x with state := .init })).sendInit a.tp) s

/-- Bit of a lane in LANE_LOCK. -/
def laneBit (lane : Nat) : BitVec 4 := (1 : BitVec 4) <<< lane

/-- LANE_MARKER (R274, R278, R279): a good marker gives its lane marker lock and ends the wait of a waking
receiver; a bad one is ignored, and the third missed in a row loses the lock. -/
def execLaneMarker (tp lane : Nat) (mcrcOk : Bool) (logical mcount midx : Nat) (s : State) : Res :=
  evt (s.trunkLive tp && decide (lane < 4) && decide (midx < 16) && (s.tp tp).state != .off && (s.tp tp).state != .train && (s.tp tp).rx != .tl3) (fun s =>
    if mcrcOk then
      let v := Tbl.get (0 : Reg32) s.ports.teqStat (4 * tp + lane)
      let w := (v &&& 0xFFCFFFFF) ||| BitVec.ofNat 32 (logical % 4 * 2 ^ 20)
      let s1 : State := { s with ports := { s.ports with teqStat := Tbl.set 0 s.ports.teqStat (4 * tp + lane) w } }
      s1.modTp tp (fun x =>
        let lock := x.lock ||| laneBit lane
        { x with lock := lock, missed := Tbl.set 0 x.missed lane 0, lanePos := Tbl.put x.lanePos lane (logical % 4), mcount := Tbl.put x.mcount lane (mcount % 65536), rx := if x.rx = .tl1 ∧ lock = 0xF then .tl0 else x.rx })
    else if (s.tp tp).rx = .tl1 then s
    else
      let n := Tbl.get 0 (s.tp tp).missed lane + 1
      let s1 := s.modTp tp (fun x => { x with missed := Tbl.set 0 x.missed lane (min 3 n), lock := if 3 ≤ n then x.lock &&& ~~~(laneBit lane) else x.lock })
      if 3 ≤ n then s1.tpHold tp 3 else s1) s

/-! ### Roles and joining, as a link comes up (R267, R306, R308) -/

/-- The module declares itself P0 (R306, R3). -/
def State.becomeP0 (s : State) : State :=
  { s with glob := { s.glob with hrole := 1, midx := 0 }, hier := { s.hier with members := [{ idx := 0, serial := s.glob.serial }], joined := true } }

/-- Another trunk port that joins the same pair of modules. -/
def State.twinOf (s : State) (t serial : Nat) : Bool :=
  (List.range 8).any (fun u => u != t && ((s.tp u).state == .active || (s.tp u).state == .hold || (s.tp u).state == .auth) && (s.tp u).peerSer == serial)

/-- What two undeclared modules, or an undeclared one and a manager, settle as a link reaches INIT (R4, R306). -/
def State.settleRoles (s : State) (serial role : Nat) : State :=
  if s.glob.hrole ≠ 0 then s
  else if role = 1 then { s with glob := { s.glob with hrole := 2 } }
  else if role = 0 ∧ s.roleByte = 0 then (if s.glob.serial < serial then s.becomeP0 else { s with glob := { s.glob with hrole := 2 } })
  else s

/-- A link may leave INIT: one of its modules is P0, or both are workers that hold an index and that P0 has admitted, this one
by its word and the other as a member (R268, R308). -/
def State.mayAuth (s : State) (idx role : Nat) : Bool :=
  (s.glob.hrole == 1) != (role == 1)
    || (s.glob.hrole == 2 && role == 2 && s.glob.midx != 15 && idx != 15 && s.hier.admitted && s.hier.members.any (fun m => m.idx == idx))

/-- A link in INIT goes on to AUTH with a fresh nonce and AUTH_CHAL where it may (Table 6.12). -/
def State.initGo (s : State) (t idx role : Nat) : State :=
  if s.mayAuth idx role then
    ((s.drawn).modTp t (fun x => { x with state := .auth, nonceOwn := some s.fresh, noncePeer := none, verified := false })).sendChal t
  else s

/-- INIT_CREDIT (R267, R288, R291, R292, R301, R306): in HOLD the peer is lost; in INIT its identity and credits are
taken, and the link goes to AUTH, waits, or stops. -/
def execInitCredit (tp serial idx role : Nat) (counts : List Nat) (s : State) : Res :=
  evt (s.trunkLive tp && ((s.tp tp).state == .init || (s.tp tp).state == .hold)) (fun s =>
    if (s.tp tp).state = .hold then s.tpPeerLost tp 7
    else
      let last := counts.zipIdx.foldl (fun (t : Tbl Nat) p => if p.2 < 12 then Tbl.set 0 t p.2 (p.1 % credMod (p.2 % 2)) else t) []
      let s1 := s.modTp tp (fun x => { x with peerSer := serial, peerIdx := idx % 16, peerRole := role, peerInit := (idx % 16, role), lastRet := last })
      if (s1.tp tp).stopped then s1
      else if s1.twinOf tp serial then (s1.modTp tp (fun x => { x with stopped := true })).hierEvent 5 serial
      else if s1.glob.hrole = 1 ∧ role = 1 then (s1.modTp tp (fun x => { x with stopped := true })).hierEvent 4 serial
      else
        let s2 := s1.settleRoles serial role
        -- P0 by its own word, or by the settling of two undeclared modules
        let boss := decide (role = 1) || (decide (role = 0) && s2.glob.hrole == 2 && s.glob.hrole == 0)
        let s2 := if boss then s2.modTp tp (fun x => { x with p0 := true, peerIdx := 0 }) else s2
        s2.initGo tp (idx % 16) (if boss then 1 else role)) s

/-! ### Authentication (R307) -/

/-- AUTH fails: AUTH_FAIL, its event and TRUNK_AUTH; without a key the cause is NO_KEY (R288, R307). -/
def State.authFails (s : State) (t : Nat) : State :=
  ((s.modTp t (fun x => { x with state := .authFail, authFails := min 3 (x.authFails + 1), noKey := s.hier.key.isNone, verified := false })).trunkEvent t 16 0 false).fault 0x010F (s.tpLoc t) 0xFF

/-- AUTH_RESP of one side (R307): the nonce of its peer, its own, the serials, its index and role. -/
def authResp (key : BitVec 256) (nPeer nOwn : BitVec 256) (serOwn serPeer idx role : Nat) : BitVec 256 :=
  Config.hmac key (bytes32 nPeer ++ bytes32 nOwn ++ leBytes 8 serOwn ++ leBytes 8 serPeer ++ leBytes 1 idx ++ leBytes 1 role)

/-- LINK_ID of a link, from the nonces in the order of the serials (R307). -/
def linkIdOf (key : BitVec 256) (nLower nHigher : BitVec 256) : BitVec 64 :=
  (Config.hmac key (asciiBytes "LINK" ++ bytes32 nLower ++ bytes32 nHigher)).extractLsb' 0 64

/-- The MODULE partner of a trunk port (Table 5.1). -/
def State.modulePartner (s : State) (t : Nat) : State :=
  let x : Partner := { kind := 6, index := 0xFF, serial := some (s.tp t).peerSer, cert := none, capacity := 0, timerEnd := none, leftAt := 0, leaving := false, cause := 0, pindex := 0 }
  { s with pool := { s.pool with partner := Tbl.put s.pool.partner (0x40 + t) x } }

/-- ARRIVE of the MODULE partner of a trunk port: width 4, rate code 0x80 (R308 step 6, R645). -/
def State.moduleArrives (s : State) (t : Nat) : State := (s.modulePartner t).pevent 1 (0x40 + t) (4 * 256 + 0x80) none

/-- The index P0 gives a worker: the one reserved for its serial, else the lowest of 1 to 8 neither held nor reserved (R308, R310). -/
def State.freeMidx (s : State) (serial : Nat) : Option Nat :=
  match s.hier.reserved.find? (fun r => r.1 == serial) with
  | some r => some r.2.1
  | none => (List.range 9).find? (fun i => i != 0 && ! s.hier.members.any (fun m => m.idx == i) && ! s.hier.reserved.any (fun r => r.2.1 == i))

/-- P0 runs a join from step 2 on (R308), or keeps the worker waiting while another join runs (R309). -/
def State.joinStart (s : State) (t serial : Nat) : State :=
  match s.hier.join, s.freeMidx serial with
  | none, some i =>
    let h : Hier := { s.hier with join := some { tp := t, serial := serial, idx := i, admitted := s.hier.autoAdmit, since := s.now }, reserved := s.hier.reserved.filter (fun r => r.1 != serial), members := s.hier.members ++ [{ idx := i, serial := serial }], lost := dropOf i s.hier.lost }
    let s1 := ({ s with hier := h } : State).modTp t (fun x => { x with peerIdx := i })
    let s2 := s1.emit (.hierMsg t (s1.hierMsgOf 1 i serial))
    -- the members learn of a worker admitted at once
    if s2.hier.autoAdmit then s2.toMembers 2 i serial else s2
  | _, _ => { s with hier := { s.hier with joinWait := addOnce (t, serial) s.hier.joinWait } }

/-- The link is ACTIVE (R288, R289, R308): its LINK_ID is agreed; at P0 the worker's join runs; between workers
the peer is a member again. -/
def State.linkActive (s : State) (t : Nat) : State :=
  let x := s.tp t
  let own := x.nonceOwn.getD 0
  let peer := x.noncePeer.getD 0
  let id := match s.hier.key with
    | some k => if s.glob.serial < x.peerSer then linkIdOf k own peer else linkIdOf k peer own
    | none => 0
  let s1 := s.modTp t (fun x => { x with state := .active, linkId := some id, authFails := 0, verified := true, lastPay := s.now, uncorr := [], replays := [] })
  if s.glob.hrole = 1 then s1.joinStart t x.peerSer
  else { s1 with hier := { s1.hier with lost := dropOf x.peerIdx s1.hier.lost } }

/-- Both sides are verified: the peer's answer is good, and its challenge has been answered. -/
def Trunk.bothVerified (x : Trunk) : Bool := x.verified && x.noncePeer.isSome

/-- AUTH_CHAL (R287, R307): each is answered with AUTH_RESP; without a key AUTH fails. -/
def execAuthChal (tp : Nat) (nonce : BitVec 256) (s : State) : Res :=
  evt (s.trunkLive tp && ((s.tp tp).state == .auth || (s.tp tp).state == .active)) (fun s => match s.hier.key with
    | none => if (s.tp tp).state = .auth then s.authFails tp else s
    | some k =>
      let x := s.tp tp
      let a := authResp k nonce (x.nonceOwn.getD 0) s.glob.serial x.peerSer x.ownInit.1 x.ownInit.2
      let s1 := (s.modTp tp (fun x => { x with noncePeer := some nonce })).emit (.control tp 3 [a.toNat])
      if (s1.tp tp).state = .auth ∧ (s1.tp tp).bothVerified then s1.linkActive tp else s1) s

/-- AUTH_RESP (R307): the peer's HMAC is checked; the link goes ACTIVE, or to AUTH_FAIL. -/
def execAuthResp (tp : Nat) (hmac : BitVec 256) (s : State) : Res :=
  evt (s.trunkLive tp && (s.tp tp).state == .auth && (s.tp tp).noncePeer.isSome) (fun s => match s.hier.key with
    | none => s.authFails tp
    | some k =>
      let x := s.tp tp
      if hmac = authResp k (x.nonceOwn.getD 0) (x.noncePeer.getD 0) x.peerSer s.glob.serial x.peerInit.1 x.peerInit.2 then
        (s.modTp tp (fun x => { x with verified := true })).linkActive tp
      else s.authFails tp) s

/-- AUTH_FAIL_RETRY (R288): the link trains again, but not after three failures in a row. -/
def execAuthFailRetry (tp : Nat) (s : State) : Res :=
  evt (s.trunkLive tp && (s.tp tp).state == .authFail && decide ((s.tp tp).authFails < 3)) (fun s => s.tpClear tp) s

/-! ### Flits (R282 to R297) -/

/-- A receiver asks for a replay from E, not again until E is accepted or 2 microseconds have passed (R296). -/
def State.askReplay (s : State) (t : Nat) : State :=
  let x := s.tp t
  if x.reqAt.any (fun a => decide (s.now < a + usTicks 2)) then s
  else ((s.wakeTx t).modTp t (fun x => { x with reqAt := some s.now })).emit (.control t 4 [x.exp])

/-- ACK and credit update of a flit whose CRC is correct (R296). -/
def State.flitNotes (s : State) (fl : FlitOp) : State :=
  s.modTp fl.tp (fun x => (x.acked (fl.ack % 4096)).credited fl.cls (b2n fl.dataKind) fl.count)

/-- A flit lost to an uncorrectable codeword or a failing CRC (R296, R298). -/
def State.flitBad (s : State) (t : Nat) : State :=
  ((s.modTp t (fun x => { x with uncorr := x.uncorr ++ [s.now] })).count 0x64 t 0 1).askReplay t

/-- Credits of a class and kind the receiver still holds out: returned less taken. -/
def Trunk.room (x : Trunk) (cls kind : Nat) : Nat :=
  (Tbl.get 0 x.ret (2 * cls + kind) + credMod kind - Tbl.get 0 x.taken (2 * cls + kind)) % credMod kind

/-- A message finds the credits of its class at the receiver (R294). -/
def Trunk.roomFor (x : Trunk) (m : TrunkMsg) : Bool :=
  decide ((trunkNeed m).1 ≤ x.room m.cls 0) && decide ((trunkNeed m).2 ≤ x.room m.cls 1)

/-- Counts of a table advanced by what a message takes. -/
def bumpCounts (t : Tbl Nat) (m : TrunkMsg) : Tbl Nat :=
  let add := fun (t : Tbl Nat) kind n => Tbl.set 0 t (2 * m.cls + kind) ((Tbl.get 0 t (2 * m.cls + kind) + n) % credMod kind)
  add (add t 0 (trunkNeed m).1) 1 (trunkNeed m).2

/-- A message accepted from a trunk as a cell of its trunk point: to the keeper slice of its line, to the downstream port of a BLK write,
or to the management endpoint (Table 3.1). -/
def State.rxCell (s : State) (t : Nat) (m : TrunkMsg) : Option Cell :=
  let c : Cell := { cls := m.cls, opc := m.op, src := 0x68 + t, dst := 0x40 + sliceHash m.addr, tag := m.tag, addr := m.addr, len := m.len, poison := m.poison
                    nt := m.nt, nd := m.nd, k := m.k, first := m.first, last := m.last, dp := m.dp, load := .rx m }
  match m.cls with
  | 4 => if s.homed m.addr ∧ s.isDown (s.backPort m.addr) then
      some { c with dst := s.backPort m.addr, load := .blk { src := .mod m.srcm, tag := m.tag, line := lineOf m.addr, mask := m.mask, data := m.data, psn := m.poison } }
    else none
  | 5 => some { c with dst := s.mgtPoint (t / 4), first := true, last := true }
  | _ => some { c with first := true, last := true }

/-- A message accepted in sequence: it takes its credits, and its cell enters the ingress queue of the trunk point; its credits return when
the cell crosses (R293). -/
def State.acceptMsg (s : State) (t : Nat) (m : TrunkMsg) : State :=
  let s1 := (s.modTp t (fun x => { x with exp := (x.exp + 1) % 4096, reqAt := none, taken := bumpCounts x.taken m, lastPay := s.now, buffered := x.buffered ++ [(m.cls, (trunkNeed m).1, (trunkNeed m).2)] })).count 0x61 t 0 1
  match s1.rxCell t m with
  | some c => s1.putCell c
  | none => s1

/-- PAYLOAD_FLIT (R292 to R296, R301): accepted in sequence, discarded, or a credit overrun that loses the peer. -/
def execPayloadFlit (fl : FlitOp) (msg : TrunkMsg) (s : State) : Res :=
  evt (s.trunkLive fl.tp && (s.tp fl.tp).state == .active && (s.tp fl.tp).rx == .tl0) (fun s =>
    if ¬ fl.ok then s.flitBad fl.tp
    else
      let s1 := s.flitNotes fl
      let x := s1.tp fl.tp
      if fl.seq % 4096 ≠ x.exp then s1.askReplay fl.tp
      else if 6 ≤ msg.cls then s1.modTp fl.tp (fun x => { x with exp := (x.exp + 1) % 4096, reqAt := none, lastPay := s.now })
      else if ¬ x.roomFor msg then (s1.tpPeerLost fl.tp 8).fault 0x0202 (s1.tpLoc fl.tp) 0xFF
      else s1.acceptMsg fl.tp msg) s

/-- NULL_FLIT (R277, R296): its ACK and credit update; one of an IDLE codeword that the elastic buffer deletes is not seen, and one
the buffer inserts is no flit of the peer's. -/
def execNullFlit (x : NullOp) (s : State) : Res :=
  evt (s.trunkLive x.fl.tp && (s.tp x.fl.tp).state == .active && (s.tp x.fl.tp).rx == .tl0) (fun s =>
    if x.deleted then s else if x.fl.ok then s.flitNotes x.fl else s.flitBad x.fl.tp) s

/-- REPLAY_REQ (R297): E - 1 is acknowledged, and the sender rewinds to E. -/
def execReplayReq (tp seq : Nat) (s : State) : Res :=
  evt (s.trunkLive tp && (s.tp tp).state == .active) (fun s =>
    (s.modTp tp (fun x => x.acked ((seq + 4095) % 4096))).rewind tp (seq % 4096)) s

/-- REPLAY_TIMEOUT (R297): the oldest unacknowledged flit starts a rewind to itself. -/
def execReplayTimeout (tp : Nat) (s : State) : Res :=
  evt (s.trunkLive tp && (s.tp tp).state == .active && ! (s.tp tp).replay.isEmpty) (fun s =>
    match (s.tp tp).replay with
    | e :: _ => s.rewind tp e.1
    | [] => s) s

/-! ### Links that go down, hold and resume (R298 to R305) -/

/-- RESUME (R300, R301): with the agreed LINK_ID the link is ACTIVE again, its counts and expected SEQ taken; else,
or in the last tick of LINK_HOLD, the peer is lost. -/
def execResume (tp : Nat) (linkId : BitVec 64) (seq : Nat) (counts : List Nat) (lastTick : Bool) (s : State) : Res :=
  evt (s.trunkLive tp && (s.tp tp).state == .hold && (s.tp tp).aligned) (fun s =>
    if lastTick then s.tpPeerLost tp (s.tp tp).cause
    else if (s.tp tp).linkId ≠ some linkId then s.tpPeerLost tp 7
    else
      let last := counts.zipIdx.foldl (fun (t : Tbl Nat) p => if p.2 < 12 then Tbl.set 0 t p.2 (p.1 % credMod (p.2 % 2)) else t) (s.tp tp).lastRet
      let s1 := s.modTp tp (fun x => ({ x with state := .active, holdEnd := none, lastRet := last, reqAt := none, lastPay := s.now } : Trunk).acked ((seq + 4095) % 4096))
      (s1.trunkEvent tp 18 0 false).rewind tp (seq % 4096)) s

/-- LINK_SLEEP (R299, R304, R317): the link goes down with cause sleep. -/
def execLinkSleep (tp cause : Nat) (s : State) : Res :=
  evt (s.trunkLive tp && (s.tp tp).state == .active && decide (cause < 256)) (fun s => s.tpHold tp 9) s

/-- RESET (R301, R305, R317): the peer is lost at once. -/
def execReset (tp idx : Nat) (s : State) : Res :=
  evt (s.trunkLive tp && ((s.tp tp).state == .active || (s.tp tp).state == .hold || (s.tp tp).state == .auth || (s.tp tp).state == .init) && decide (idx < 16)) (fun s => s.tpPeerLost tp 6) s

/-- SLEEP1_CODEWORD (R274): the receiver holds its CDR and suspends supervision. -/
def execSleep1Codeword (tp : Nat) (s : State) : Res :=
  evt (s.trunkLive tp && (s.tp tp).state == .active && (s.tp tp).rx == .tl0) (fun s => s.modTp tp (fun x => { x with rx := .tl1, missed := [] })) s

/-- TL1_IDLE_ENTRY (R273, R274): with IDLE_EN and no PAYLOAD flit for 10 microseconds in either direction the transmitter
sends an IDLE codeword with SLEEP1 and enters TL1. -/
def execTl1IdleEntry (tp : Nat) (s : State) : Res :=
  evt (s.trunkLive tp && (s.tp tp).state == .active && (s.tp tp).tx == .tl0 && bit (s.tp tp).ctl.toNat 30
      && decide ((s.tp tp).lastPay + usTicks 10 ≤ s.now))
    (fun s => (s.emit (.codeword tp 0)).modTp tp (fun x => { x with tx := .tl1 })) s

/-- WAKE_SEQUENCE (R274): the receiver locks on it and waits for the marker; a transmitter in TL1 leaves it at once. -/
def execWakeSequence (tp : Nat) (s : State) : Res :=
  evt (s.trunkLive tp && (s.tp tp).state == .active && (s.tp tp).rx == .tl1) (fun s =>
    (s.modTp tp (fun x => { x with lock := 0 })).wakeTx tp) s

/-- WAKE_LOCK_TIMEOUT (R274): no marker lock within 1 microsecond takes the link down with cause marker. -/
def execWakeLockTimeout (tp : Nat) (s : State) : Res :=
  evt (s.trunkLive tp && (s.tp tp).state == .active && (s.tp tp).rx == .tl1 && (s.tp tp).lock != 0xF) (fun s => s.tpHold tp 3) s

/-- ERROR_WINDOW_EVAL (R298, Table 6.14): a count at its threshold within the window takes the link down. -/
def execErrorWindowEval (tp : Nat) (s : State) : Res :=
  evt (s.trunkLive tp && (s.tp tp).state == .active && (s.tp tp).rx == .tl0) (fun s =>
    let c := (s.tp tp).errCtl.toNat
    let span := usTicks (10 * bits c 9 0)
    let fresh := fun (l : List Nat) => l.filter (fun t => decide (s.now < t + span))
    let s1 := s.modTp tp (fun x => { x with uncorr := fresh x.uncorr, replays := fresh x.replays })
    if bits c 31 22 ≤ (s1.tp tp).uncorr.length then s1.tpHold tp 1
    else if bits c 21 10 ≤ (s1.tp tp).replays.length then s1.tpHold tp 2
    else s1) s

/-- CDR_LOSS (R299): outside TL1 the link goes down. -/
def execCdrLoss (tp lane : Nat) (s : State) : Res :=
  evt (s.trunkLive tp && decide (lane < 4) && (s.tp tp).rx == .tl0 && (s.tp tp).state != .off) (fun s =>
    (s.modTp tp (fun x => { x with lock := x.lock &&& ~~~(laneBit lane) })).tpHold tp 4) s

/-- TREFCLK_LOSS (R269, R299): the trunk links of the die go down; a receiver in TL1 has the rule suspended (R274). -/
def execTrefclkLoss (die : Nat) (s : State) : Res :=
  evt (s.glob.pstate == .active && decide (die < 2)) (fun s =>
    ([0, 1, 2, 3].map (4 * die + ·)).foldl (fun s t => if (s.tp t).rx = .tl1 then s else s.tpHold t 5) s) s

/-- LINK_HOLD_EXPIRY (R301): the peer is lost. -/
def execLinkHoldExpiry (tp : Nat) (s : State) : Res :=
  evt (s.trunkLive tp && (s.tp tp).state == .hold) (fun s => s.tpPeerLost tp (s.tp tp).cause) s

/-- CONTROL_FLIT_REPEAT (R287): INIT_CREDIT, AUTH_CHAL or RESUME goes out again until its answer arrives. -/
def execControlFlitRepeat (tp : Nat) (s : State) : Res :=
  evt (s.trunkLive tp) (fun s => match (s.tp tp).state with
    | .init => s.sendInit tp
    | .auth => if (s.tp tp).verified then s else s.sendChal tp
    | .hold => if (s.tp tp).aligned then s.sendResume tp else s
    | _ => s) s

/-- TR_CPL_TIMEOUT (R302, R303): a request sent to a home that was lost ends with poison toward its requester. -/
def execTrCplTimeout (fpa : Nat) (src : Agent) (s : State) : Res :=
  evt (! s.homed fpa && (s.txn (lineOf fpa)).any (fun t => t.stage == .fwd && t.psn && t.q.r.src == src))
    (fun s => match s.txn (lineOf fpa) with
      | some t => s.proxyGrant t .poison 0
      | none => s) s

end Sys2Proof.Machine
end

