-- ==== Sys2Proof/Machine/HierCmd.lean ====
section
/-! DEFINITION. HIER group, and the joining and leaving of modules (chapter 6). -/
namespace Sys2Proof.Machine

/-! ### Commands (Table 6.19) -/

/-- HIER_STATUS (R316): role and index, the members, the state of each trunk link with its peer, the reserved indices. -/
def execHierStatus (f : Frame) (s : State) : Res :=
  query 0xCB01 f (.hierStatus f) (fun _ => none)
    (fun s => [s.glob.hrole, s.glob.midx] ++ s.hier.members.flatMap (fun m => [m.idx, m.serial])
      ++ (List.range 8).flatMap (fun t => [(s.tp t).state.ctorIdx, (s.tp t).peerIdx, (s.tp t).peerSer])
      ++ s.hier.reserved.flatMap (fun r => [r.1, r.2.1])) s

/-- HIER_KEY_SET (R307): the key is stored in flash. -/
def execHierKeySet (f : Frame) (key : BitVec 256) (s : State) : Res :=
  command 0xCB02 f (.hierKeySet f key) (fun _ => none) (fun s => ({ s with hier := { s.hier with key := some key } }, rcOk, [])) s

/-- The settings of HIER_SET in force; one not given stays. -/
def State.hierSettings (s : State) (rolePref autoAdmit : Option Bool) (meshTimeout trCpl : Option Nat) : State :=
  { s with hier := { s.hier with prefMgr := rolePref.getD s.hier.prefMgr, autoAdmit := autoAdmit.getD s.hier.autoAdmit, meshMs := meshTimeout.getD s.hier.meshMs, trCplMs := trCpl.getD s.hier.trCplMs } }

/-- HIER_SET (R303, R306, R309, R316): P0 distributes the settings to every member. -/
def execHierSet (f : Frame) (rolePref : Option Bool) (autoAdmit : Option Bool) (meshTimeout trCpl : Option Nat) (s : State) : Res :=
  command 0xCB03 f (.hierSet f rolePref autoAdmit meshTimeout trCpl)
    (fun s =>
      let s1 := s.hierSettings rolePref autoAdmit meshTimeout trCpl
      checks
        [(meshTimeout.any (fun n => decide (n < 100) || decide (10000 < n)), rcParam),
         (trCpl.any (fun n => decide (n < 2) || decide (128 < n)), rcParam),
         (! s1.timeoutsOk || ! s1.gatesOk, rcParam)])
    (fun s =>
      let s1 := s.hierSettings rolePref autoAdmit meshTimeout trCpl
      (if s1.glob.hrole = 1 then s1.toMembers 6 0 0 else s1, rcOk, [])) s

/-- HIER_ADMIT (R308 step 3). -/
def execHierAdmit (f : Frame) (serial : Nat) (s : State) : Res :=
  command 0xCB04 f (.hierAdmit f serial)
    (fun s => if s.hier.join.any (fun j => j.serial == serial && ! j.admitted) then none else some rcNotFound)
    (fun s =>
      let s1 : State := { s with hier := { s.hier with join := s.hier.join.map (fun j => { j with admitted := true }) } }
      (s1.toMembers 2 ((s.hier.join.map (fun j => j.idx)).getD 0) serial, rcOk, [])) s

/-- HIER_REMOVE (R313): the other members are asked for bindings that stand against it; then step 1 of Table 6.17. -/
def execHierRemove (f : Frame) (idx : Nat) (s : State) : Res :=
  command 0xCB05 f (.hierRemove f idx)
    (fun s => checks
      [(idx == s.glob.midx || ! s.hier.members.any (fun m => m.idx == idx) || s.hier.lost.contains idx, rcNotFound),
       (s.opRunning 11 || s.hier.join.any (fun j => j.idx == idx) || s.pool.homeReqs.any (fun q => q.op == 0xCB05), rcBusy), (s.bindsHome idx, rcBusy)])
    (fun s =>
      let others := (s.hier.members.map (fun m => m.idx)).filter (fun m => m != s.glob.midx && ! s.hier.lost.contains m)
      (s.askHomes { frame := f, op := 0xCB05, arg := idx, binds := [], asks := others.map (fun m => { home := m, kind := 9, ext := idx, n := 0 }), done := [], tries := 0 }, rcLater, [])) s

/-- The remote line cache of a leaving worker: dirty lines are written back, the rest evicted (Table 6.17 step 2). -/
def State.rlcFlush (s : State) : State :=
  s.keeper.rlc.foldl (fun s c => if c.dirty then (s.rlcDrop c.line).wbHome c.line false c.data false else (s.rlcDrop c.line).evictHome c.line) s

/-- Every home keeper recalls any holding of a leaving worker (Table 6.17 step 3). -/
def State.leaveSweep (s : State) (idx : Nat) : State :=
  (s.sweepStart 8 idx (fun fpa => s.homed fpa) (fun a => a == .mod idx) false false).1

/-- The snoops of a leave's sweep have all answered. -/
def State.leaveQuiet (s : State) (idx : Nat) : Bool := s.keeper.sweeps.all (fun w => ! (w.why == 8 && w.arg == idx) || s.sweepQuiet w.num)

/-- A peer has left as planned: DEPART_PLANNED, no poison, its index is free (Table 6.17 step 4). -/
def State.memberLeft (s : State) (idx : Nat) : State :=
  let s0 := s.forgetAgent (.mod idx)
  let s1 : State := { s0 with keeper := { s0.keeper with sweeps := s0.keeper.sweeps.filter (fun w => ! (w.why == 8 && w.arg == idx)) }, hier := { s0.hier with members := s0.hier.members.filter (fun m => m.idx != idx), lost := dropOf idx s0.hier.lost } }
  match s1.trunkTo idx with
  | none => s1
  | some t =>
    let s2 := (((s1.pevent 3 (0x40 + t) 0 none).modTp t (fun x => { x with cause := 10 })).trunkEvent t 19 10 true).tpClear t
    { s2 with pool := { s2.pool with partner := Tbl.del s2.pool.partner (0x40 + t) } }

/-- P0's HIER_REMOVE has ended with the worker's leave. -/
def State.removeEnds (s : State) (idx serial : Nat) : State :=
  let s1 : State := { s with hier := { s.hier with remove := none } }
  if s.hier.remove.any (fun r => r.1 == idx) then ((s1.posOp 11 4).endOp 11 0 none).hierEvent 6 serial else s.hierEvent 6 serial

/-- The worker itself leaves: LEAVE on every link, its lanes go to TL3, and it belongs to no hierarchy (Table 6.17 step 4). -/
def State.leaveSelf (s : State) : State :=
  let s1 := (List.range 8).foldl (fun s t =>
    let s' := if (s.tp t).state = .active then s.emit (.control t 7 [s.glob.midx]) else s
    (s'.tpClear t).modTp t (fun x => { x with state := .off, cause := 10 })) s
  { s1 with glob := { s1.glob with hrole := 0, midx := 15 }, hier := { s1.hier with members := [], remove := none, admitted := false, joined := false, lost := [], wasWorker := true } }

/-- HIER_REMOVE_STEP_DONE (R313): the next step of the leave starts. At P0 steps 1 and 2 are waited for, step 3 is
its own sweep, step 4 ends with the worker's LEAVE; at the worker step 2 ends in its own leave. -/
def execHierRemoveStepDone (s : State) : Res :=
  evt (match s.hier.remove with
      | none => false
      | some (i, n) => if i = s.glob.midx then (s.keeper.wbs.filter (fun w => w.1 == .mod s.glob.midx)).isEmpty else decide (n < 3) && (n != 2 || s.leaveQuiet i)) (fun s =>
    match s.hier.remove with
    | none => s
    | some (i, n) =>
      if i = s.glob.midx then s.leaveSelf
      else
        let s1 := ({ s with hier := { s.hier with remove := some (i, n + 1) } } : State).posOp 11 (n + 1)
        if n = 1 then s1.leaveSweep i else s1) s

/-- HIER_FORGET (R310). -/
def execHierForget (f : Frame) (idx : Nat) (s : State) : Res :=
  command 0xCB06 f (.hierForget f idx)
    (fun s => if s.hier.reserved.any (fun r => r.2.1 == idx) then none else some rcNotFound)
    (fun s => ({ s with hier := { s.hier with reserved := s.hier.reserved.filter (fun r => r.2.1 != idx) } }, rcOk, [])) s

/-- HIER_TRUNK_DISABLE (R316, R317): EN = 0; the peer of a link that is not redundant is lost. -/
def execHierTrunkDisable (f : Frame) (tp : Nat) (s : State) : Res :=
  command 0xCB07 f (.hierTrunkDisable f tp) (fun _ => if 8 ≤ tp then some rcNotFound else none)
    (fun s =>
      let s1 := if (s.tp tp).stopped ∧ (s.tp tp).state = .init then s.modTp tp (fun x => { x with peerIdx := 15 }) else s
      (s1.tpDisable tp, rcOk, [])) s

/-- HIER_TRUNK_ENABLE (R288, R289): EN = 1, and AUTH_FAIL is cleared. -/
def execHierTrunkEnable (f : Frame) (tp : Nat) (s : State) : Res :=
  command 0xCB08 f (.hierTrunkEnable f tp) (fun _ => if 8 ≤ tp then some rcNotFound else none) (fun s => (s.tpEnable tp, rcOk, [])) s

/-! ### Events -/

/-- MANAGER_DECLARE (R3, R4, R306): an MA that prefers MANAGER, and has not been a worker since its last MODULE reset, declares
itself P0 when no trunk peer has reported a manager. -/
def execManagerDeclare (s : State) : Res :=
  evt (s.glob.pstate == .active && s.glob.isMA && s.hier.prefMgr && ! s.hier.wasWorker && s.glob.hrole == 0
      && ! (List.range 8).any (fun t => (s.tp t).peerRole == 1 && (s.tp t).state != .off && (s.tp t).state != .train))
    (fun s => s.becomeP0) s

/-- The next worker that waits at step 2 of a join goes on (R309). -/
def State.joinNext (s : State) : State :=
  match s.hier.joinWait with
  | [] => s
  | w :: rest => ({ s with hier := { s.hier with joinWait := rest } } : State).joinStart w.1 w.2

/-- The expanders of this module added to its own pool (R246, R308 step 5). -/
def State.addExpanders (s : State) : State :=
  (s.pool.partner.filter (fun e => e.2.kind == 3 && e.2.timerEnd.isNone && ! e.2.leaving)).foldl
    (fun s e => if s.addable e.1 = 0 ∨ s.pool.adding.any (fun a => a.1 == e.1) then s else s.addCapacity e.1 false) s

/-- Every other member of a worker has an ACTIVE link to it. -/
def State.meshed (s : State) : Bool :=
  s.hier.members.all (fun m => m.idx == s.glob.midx || s.liveTrunks.any (fun t => (s.tp t).peerIdx == m.idx))

/-- MESH_COMPLETE (R308 steps 4 to 6): at P0 the join ends with JOINED and the next one runs; at the worker its
capacity is added to its own pool. -/
def execMeshComplete (s : State) : Res :=
  evt (s.glob.pstate == .active && (if s.glob.hrole = 1 then s.hier.join.any (fun j => j.admitted && (s.tp j.tp).state == .active)
      else s.glob.hrole == 2 && s.glob.midx != 15 && s.hier.admitted && ! s.hier.joined && s.meshed))
    (fun s => match s.hier.join with
      | some j =>
        let s1 := (({ s with hier := { s.hier with join := none } } : State).moduleArrives j.tp).toMembers 3 j.idx j.serial
        (s1.hierEvent 1 j.serial).joinNext
      | none =>
        let s1 : State := { s with hier := { s.hier with joined := true, joinFailed := none } }
        (s1.liveTrunks.foldl (fun s t => s.moduleArrives t) s1).addExpanders) s

/-- A worker's join has failed: its links close until its retry, and its index is given back (R309). -/
def State.joinFails (s : State) : State :=
  let s1 := (List.range 8).foldl (fun s t => if (s.tp t).state = .off then s else (s.tpClear t).modTp t (fun x => { x with state := .off, cause := 11 })) s
  { s1 with glob := { s1.glob with midx := 15 }, hier := { s1.hier with members := [], admitted := false, joined := false, joinFailed := some s1.now } }

/-- P0's join has failed: MESH_INCOMPLETE, the worker is told, its index is reserved again, and the next join runs (R309). -/
def State.joinLost (s : State) (j : Join) : State :=
  let tmr := (Tbl.get ({} : PSet) s.pool.pset (0x40 + j.tp)).timer
  let s0 := s.emit (.hierMsg j.tp (s.hierMsgOf 7 j.idx j.serial))
  let s1 := (s0.forgetAgent (.mod j.idx)).tpClear j.tp
  let h : Hier := { s1.hier with join := none, members := s1.hier.members.filter (fun m => m.idx != j.idx), reserved := s1.hier.reserved ++ [(j.serial, j.idx, s1.now + msTicks tmr)] }
  (({ s1 with hier := h } : State).hierEvent 2 j.serial).joinNext

/-- MESH_TIMEOUT (R309): the join fails with MESH_INCOMPLETE; at P0 the index returns to reserved. -/
def execMeshTimeout (s : State) : Res :=
  evt (s.glob.pstate == .active && (if s.glob.hrole = 1 then s.hier.join.any (fun j => j.admitted) else s.glob.hrole == 2 && s.glob.midx != 15 && ! s.hier.joined))
    (fun s => match s.hier.join with
      | some j => s.joinLost j
      | none => s.joinFails) s

/-- JOIN_RETRY (R309): the worker's trunk ports train again. -/
def execJoinRetry (s : State) : Res :=
  evt (s.glob.pstate == .active && s.glob.hrole == 2 && s.hier.joinFailed.isSome) (fun s =>
    (List.range 8).foldl (fun s t => s.tpStart t) { s with hier := { s.hier with joinFailed := none } }) s

/-- Member list of a message, with this module among it. -/
def membersOf (m : HierMsg) : List Member := m.members.map (fun x => { idx := x.1, serial := x.2 })

/-- The settings P0 distributes (R303, R316). -/
def State.takeSettings (s : State) (m : HierMsg) : State :=
  { s with hier := { s.hier with autoAdmit := m.autoAdmit, meshMs := m.meshTimeout, trCplMs := m.trCpl } }

/-- Links to other workers that waited in INIT leave it where they now may (R268, R308). -/
def State.initAll (s : State) : State :=
  (List.range 8).foldl (fun s t => let x := s.tp t; if x.state = .init ∧ ¬ x.stopped then s.initGo t x.peerIdx x.peerRole else s) s

/-- What a worker does with a message of P0, by kind: 1 index, members and settings; 2 a worker admitted; 3 a worker
joined; 4 a leave announced; 6 settings; 7 its own join failed (log 19). -/
def State.fromP0 (s : State) (m : HierMsg) : State :=
  match m.kind with
  | 1 =>
    -- no worker takes index P0 (R5)
    if m.idx % 16 = 0 then s else
    let s1 := s.takeSettings m
    let s2 : State := { s1 with glob := { s1.glob with hrole := 2, midx := m.idx % 16 }, hier := { s1.hier with members := membersOf m, admitted := s1.hier.autoAdmit, joined := false, lost := [] } }
    -- a link to another worker may now leave INIT
    (((List.range 8).filter (fun t => (s2.tp t).state == .init)).foldl (fun s t => s.sendInit t) s2).initAll
  | 2 => ({ s with hier := { s.hier with members := membersOf m, admitted := s.hier.admitted || m.idx == s.glob.midx, lost := dropOf m.idx s.hier.lost } } : State).initAll
  | 3 =>
    let s1 : State := { s with hier := { s.hier with members := membersOf m } }
    if m.idx = s.glob.midx then s1
    else match s1.trunkTo m.idx with
      | some t => s1.moduleArrives t
      | none => s1
  | 4 =>
    if m.idx = s.glob.midx then ({ s with hier := { s.hier with remove := some (m.idx, 1) } } : State).rlcFlush
    else s.leaveSweep m.idx
  | 6 => s.takeSettings m
  | 7 => if m.idx = s.glob.midx then s.joinFails else s
  | _ => s

/-- A worker has told P0 that it lost another: a join that either is part of fails (Table 6.20), otherwise SPLIT (R312). -/
def State.splitTold (s : State) (m : HierMsg) (sender : Nat) : State :=
  match s.hier.join.filter (fun j => j.idx == m.idx || j.idx == sender) with
  | some j => s.joinLost j
  | none => s.hierEvent 3 m.serial

/-- HIERARCHY_CONTROL (R308, R312, R313, R316): a worker follows P0; P0 raises SPLIT for a pair a worker names. -/
def execHierarchyControl (tp : Nat) (m : HierMsg) (s : State) : Res :=
  evt (s.trunkLive tp && (s.tp tp).state == .active && decide (m.idx < 16)) (fun s =>
    if s.glob.hrole = 1 then (if m.kind = 5 then s.splitTold m (s.tp tp).peerIdx else s)
    else if (s.tp tp).p0 then s.fromP0 m
    else s) s

/-- LEAVE (R313, Table 6.17 step 4). -/
def execLeave (tp idx : Nat) (s : State) : Res :=
  evt (s.trunkLive tp && (s.tp tp).state == .active && (s.tp tp).peerIdx == idx) (fun s =>
    let serial := (s.tp tp).peerSer
    let s1 := s.memberLeft idx
    if s.glob.hrole = 1 then s1.removeEnds idx serial else s1) s

end Sys2Proof.Machine
end

