-- ==== Sys2Proof/Machine/Power.lean ====
section
/-! DEFINITION. Sill, brownout, metering, module power states, start-up, and the POWER commands but the thermal ones (chapter 13). -/
namespace Sys2Proof.Machine

/-! ### Fields of SILL_CTL and SILL_LIMITS -/

/-- RAMP_MS of a SILL_CTL value. -/
def ctlRamp (c : Nat) : Nat := bits c 55 48
/-- COOL_S of a SILL_CTL value. -/
def ctlCool (c : Nat) : Nat := bits c 44 39
/-- FAST_A of a SILL_LIMITS value. -/
def limFast (l : Nat) : Nat := bits l 31 24

/-- Every SILL_CTL field lies in its range (Table 13.11). -/
def ctlOk (c : Nat) : Bool :=
  decide (4 ≤ ctlRamp c) && decide (ctlRamp c ≤ 64) && decide (2 ≤ ctlCool c) && decide (ctlCool c ≤ 60)
  && decide (300 ≤ bits c 31 22) && decide (bits c 31 22 ≤ 450) && decide (760 ≤ bits c 21 12) && decide (bits c 21 12 ≤ 900)

/-- Every SILL_LIMITS field lies in its range. -/
def limOk (l : Nat) : Bool :=
  decide (60 ≤ bits l 63 56) && decide (bits l 63 56 ≤ 160) && decide (5 ≤ bits l 47 40) && decide (bits l 47 40 ≤ 100)
  && decide (20 ≤ limFast l) && decide (limFast l ≤ 40)

/-- RAMP_MS x FAST_A is at least 150 (R583). -/
def rampOk (c l : Nat) : Bool := decide (150 ≤ ctlRamp c * limFast l)

/-- The fields of SILL_CTL; the others read as zero. -/
def ctlMask : Reg64 := 0x80FFFF80FFFFF000
/-- The fields of SILL_LIMITS. -/
def limMask : Reg64 := 0xFF00FF00FF000000

/-- The clock of a port or DMA cluster is gated: C0 to C3 with no lane of a link that is up, C5 with no descriptor begun (Table 1.3). -/
def State.clockGated (s : State) (k c : Nat) : Bool :=
  let l := s.cluLoc k c
  if c ≤ 3 then ! (s.locPorts l).any (fun p => (s.port p).up)
  else c == 5 && (locChans l).all (fun n => (s.chan n).begun.isEmpty && (s.chan n).pre.isEmpty)

/-- SILL_CTL in force. -/
def State.sillCtl (s : State) : Nat := s.sill.ctl.maj.toNat
/-- SILL_LIMITS in force. -/
def State.sillLim (s : State) : Nat := s.sill.limits.maj.toNat

/-! ### PFW_N and brownout (R593 to R598, Table 13.6) -/

/-- A port with a partner bound to it: it stays up through a brownout (R211). -/
def State.boundPort (s : State) (p : Nat) : Bool :=
  match s.partner p with | some x => x.timerEnd.isNone && ! x.leaving | none => false

/-- Steps 2 to 4 of Table 13.6: DMA parks, lanes of ports not bound go DEEP, the caches are written back. -/
def State.brownStart (s : State) : State :=
  let s1 : State := { s with sill := { s.sill with brownFrom := s.glob.pstate, brownStep := 4 }, glob := { s.glob with pstate := .brownout }, dma := { s.dma with parked := true } }
  let s2 := (List.range 64).foldl (fun (s : State) p => if s.isPort p ∧ ¬ s.boundPort p then s.modPort p (fun x => { x with lanes := .deep, found := false, width := 0, rate := 0, rev := false, l0pW := 0, enum := false, pid := none }) else s) s1
  s2.writeBack

/-- PFW_N asserted for a cause (R593): 1 undervoltage, 2 OV, 3 trip, 4 EN. In READY and ACTIVE it begins a
brownout (R595). -/
def State.pfwAssert (s : State) (cause : Nat) : State :=
  if s.sill.pfw then s
  else
    let s1 := ({ s with sill := { s.sill with pfw := true, pfwCause := cause } }.emit (.pin .pfwN false)).sillEvent 21
    let s2 := s1.fault 0x0608 (s.dieLoc 6) 0xFF
    if s.glob.pstate = .ready ∨ s.glob.pstate = .active then s2.brownStart else s2

/-- The transistor turns off in ON (R593, R599). -/
def State.turnOff (s : State) (cause : Nat) : State :=
  { s with sill := { s.sill with turnedOff := true, recharge := false } }.pfwAssert cause

/-- SILL_BROWNOUT (R595): V_IN has fallen below PFW_TH. -/
def execSillBrownout (s : State) : Res :=
  evt (s.glob.pstate != .off && ! s.sill.pfw) (fun s => s.pfwAssert 1) s

/-- Step 5 of Table 13.6: LINK_SLEEP goes out, trunk lanes enter TL3, and GPF goes to every bound expander. With EN = 0
written the transistor turns off (R606). -/
def State.brownSleep (s : State) : State :=
  let s1 := (List.range 8).foldl (fun (s : State) t =>
    let s' := if (s.tp t).state = .active then (s.emit (.control t 6 [1])).tpHold t 9 else s
    s'.modTp t (fun x => { x with tx := .tl3, rx := .tl3 })) s
  let ex := (s1.pool.partner.filter (fun e => e.2.kind == 3 && e.2.timerEnd == none)).map (·.1)
  let s2 := s1.emits (ex.map (fun p => Out.gpf p false))
  let off := s2.sill.offAfter && ! s2.sill.stuck
  let sl := { s2.sill with brownStep := 6, gpfExps := addAll ex s2.sill.gpfExps, offAfter := s2.sill.offAfter && ! off, turnedOff := s2.sill.turnedOff || off, state := if off then .disabled else s2.sill.state }
  ({ s2 with sill := sl } : State).gpfAnswer

/-- BROWNOUT_SLEEP (Table 13.6 steps 5 and 6): a MODULE reset that waited takes effect, else step 5 is carried out. -/
def execBrownoutSleep (s : State) : Res :=
  evt (s.glob.pstate == .brownout && s.sill.brownStep == 4) (fun s =>
    if s.sill.resetWaits.isSome then ({ s with sill := { s.sill with brownStep := 5 } } : State).mrTrigger (s.sill.resetWaits.getD false)
    else s.brownSleep) s

/-- The lanes that went DEEP return to DETECT: by a bring-up where the whole group went down (R211, R217). -/
def State.lanesBack (s : State) : State :=
  (List.range 16).foldl (fun s g =>
    let ps := s.groupPorts g
    if ps = [] then s
    else if ps.all (fun p => (s.port p).lanes == .deep) then s.startGroup g
    else s.leaveDeep g) s

/-- PFW_RELEASE (R593, R598): V_IN has been good for 10 ms. -/
def execPfwRelease (s : State) : Res :=
  evt (s.sill.pfw && s.sill.state == .on && ! s.sill.turnedOff && (s.glob.pstate != .brownout || decide (5 ≤ s.sill.brownStep))) (fun s =>
    let s1 := ({ s with sill := { s.sill with pfw := false, pfwCause := 0 } }.emit (.pin .pfwN true)).sillEvent 20
    if s1.glob.pstate = .brownout then
      let s2 : State := { s1 with glob := { s1.glob with pstate := s1.sill.brownFrom }, sill := { s1.sill with brownStep := 0 }, dma := { s1.dma with parked := false } }
      if s2.glob.pstate = .active then
        (List.range 8).foldl (fun s t => if (s.tp t).state = .off then s.tpStart t else s.modTp t (fun x => { x with tx := .tl0, rx := .tl0 })) s2.lanesBack
      else s2
    else s1) s

/-! ### Global Persistent Flush (R597) -/

/-- GPF_REQUEST (R597): outside brownout the caches write back without parking DMA and GPF goes to every
bound expander; in brownout it waits for the flush of Table 13.6. -/
def execGpfRequest (port : Nat) (s : State) : Res :=
  evt (s.isUp port && (s.port port).up && (s.glob.pstate == .active || s.glob.pstate == .brownout)) (fun s =>
    let s1 : State := { s with sill := { s.sill with gpfHosts := addOnce port s.sill.gpfHosts } }
    if s1.glob.pstate = .brownout then s1.gpfAnswer
    else
      let s2 := s1.writeBack
      let ex := (s2.pool.partner.filter (fun e => e.2.kind == 3 && e.2.timerEnd == none)).map (·.1)
      (({ s2 with sill := { s2.sill with gpfExps := addAll ex s2.sill.gpfExps } }).emits (ex.map (fun p => Out.gpf p false))).gpfAnswer) s

/-- GPF_COMPLETION (R597): an expander has completed the flush. -/
def execGpfCompletion (port : Nat) (s : State) : Res :=
  evt (s.sill.gpfExps.contains port) (fun s => ({ s with sill := { s.sill with gpfExps := dropOf port s.sill.gpfExps } }).gpfAnswer) s

/-! ### The Sill state machine (Table 13.2) -/

/-- SSTATE of Table 13.2. -/
def SillState.code (x : SillState) : Nat :=
  match x with | .disabled => 0 | .wait => 1 | .qual => 2 | .ramp => 3 | .on => 4 | .cool => 5 | .latched => 6 | .ovOff => 7

/-- Sill can act: the AON domain runs. -/
def State.aon (s : State) : Bool := s.glob.pstate != .off

/-- The Sill controller runs: the AON domain does, and no SILL_CTRL fault holds the transistor as it is (Table 13.12). -/
def State.sillRuns (s : State) : Bool := s.aon && ! s.sill.stuck

/-- FEED_CHANGE (R575). -/
def execFeedChange (feedB : Bool) (st : Nat) (s : State) : Res :=
  evt (s.aon && decide (st ≤ 5) && (if feedB then s.sill.feedB else s.sill.feedA) != st) (fun s =>
    let s1 : State := if feedB then { s with sill := { s.sill with feedB := st } } else { s with sill := { s.sill with feedA := st } }
    (s1.sillEvent 19).fault 0x0606 (s.dieLoc 6) 0xFF) s

/-- QUAL_START. -/
def execQualStart (s : State) : Res :=
  evt (s.sillRuns && s.sill.state == .wait) (fun s => { s with sill := { s.sill with state := .qual } }) s

/-- The ramp starts with the RAMP_MS in force (R578, R609). -/
def State.rampStart (s : State) : State := { s with sill := { s.sill with state := .ramp, rampMs := ctlRamp s.sillCtl } }

/-- QUAL_DONE (R576, R580). -/
def execQualDone (s : State) : Res := evt (s.sillRuns && s.sill.state == .qual) State.rampStart s

/-- QUAL_LEAVES_RANGE (R576). -/
def execQualLeavesRange (s : State) : Res :=
  evt (s.sillRuns && s.sill.state == .qual) (fun s => { s with sill := { s.sill with state := .wait } }) s

/-- POWER_GOOD (R577, R607): ON; from STANDBY start-up begins with the D6 self-test. -/
def execPowerGood (s : State) : Res :=
  evt (s.sillRuns && s.sill.state == .ramp) (fun s =>
    let sl := { s.sill with state := .on, turnedOff := false, recharge := false }
    { s with sill := if s.glob.pstate = .standby then { sl with selfTest := false } else sl }) s

/-- A trip (R584 to R586): LAST_TRIP, the fault, the cool-down; in ON the transistor turns off. -/
def State.trip (s : State) (kind code : Nat) : State :=
  let wasOn := s.sill.state == .on
  let ce := s.now + 25000000 * ctlCool s.sillCtl
  let s1 : State := { s with sill := { s.sill with state := .cool, lastTrip := kind, coolEnd := some ce } }
  let s2 := (s1.sillEvent 23).fault code (s.dieLoc 6) 0xFF
  if wasOn then s2.turnOff 3 else s2

/-- SILL_SOA (R581, R582): in RAMP, or in ON during a recharge. -/
def execSillSoa (s : State) : Res :=
  evt (s.sillRuns && (s.sill.state == .ramp || (s.sill.state == .on && s.sill.recharge))) (fun s => s.trip 3 0x0604) s

/-- SILL_FAST_TRIP (R585). -/
def execSillFastTrip (s : State) : Res :=
  evt (s.sillRuns && (s.sill.state == .ramp || s.sill.state == .on)) (fun s => if s.sill.state = .ramp then s.trip 4 0x0601 else s.trip 1 0x0602) s

/-- SILL_SLOW_TRIP (R584): armed in ON, masked during a recharge (R582). -/
def execSillSlowTrip (s : State) : Res :=
  evt (s.sillRuns && s.sill.state == .on && ! s.sill.recharge) (fun s => s.trip 2 0x0603) s

/-- COOL_END (R586). -/
def execCoolEnd (s : State) : Res :=
  evt (s.sillRuns && s.sill.state == .cool) (fun s =>
    if s.sill.retry = 0 then (({ s with sill := { s.sill with state := .latched, coolEnd := none } }).sillEvent 22).fault 0x0607 (s.dieLoc 6) 0xFF
    else { s with sill := { s.sill with state := .qual, retry := s.sill.retry - 1, coolEnd := none } }) s

/-- RETRY_RELOAD (R586). -/
def execRetryReload (s : State) : Res :=
  evt (s.aon && s.sill.state == .on) (fun s => { s with sill := { s.sill with retry := s.retries } }) s

/-- SILL_OV (R590). -/
def execSillOv (s : State) : Res :=
  evt (s.sillRuns && (s.sill.state == .ramp || s.sill.state == .on)) (fun s =>
    let wasOn := s.sill.state == .on
    let s1 := (({ s with sill := { s.sill with state := .ovOff } }).sillEvent 18).fault 0x0605 (s.dieLoc 6) 0xFF
    if wasOn then s1.turnOff 2 else s1) s

/-- OV_RECOVER (R576, R612). -/
def execOvRecover (s : State) : Res := evt (s.sillRuns && s.sill.state == .ovOff) State.rampStart s

/-- BULK_RECHARGE (R582). -/
def execBulkRecharge (s : State) : Res :=
  evt (s.sillRuns && s.sill.state == .on && ! s.sill.turnedOff) (fun s => { s with sill := { s.sill with recharge := true, rampMs := ctlRamp s.sillCtl } }) s

/-- BULK_RECHARGE_END (R582). -/
def execBulkRechargeEnd (s : State) : Res :=
  evt (s.sillRuns && s.sill.state == .on && s.sill.recharge) (fun s => { s with sill := { s.sill with recharge := false } }) s

/-- SILL_CTL.EN written (R576, R586, R606): 0 disables, after the brownout in READY and ACTIVE; 0 to 1 enters WAIT
with the retry count reloaded. -/
def State.sillEn (s : State) (en : Bool) : State :=
  let was := bit s.sillCtl 63
  let c := (s.sill.ctl.maj &&& 0x7FFFFFFFFFFFFFFF) ||| (if en then 0x8000000000000000 else 0)
  let s1 : State := { s with sill := { s.sill with ctl := Tri.all c } }
  if en = was ∨ s.sill.stuck then s1
  else if en then { s1 with sill := { s1.sill with retry := s1.retries, state := if s1.sill.state = .on then .on else .wait, offAfter := false } }
  else if s1.glob.pstate = .ready ∨ s1.glob.pstate = .active then ({ s1 with sill := { s1.sill with offAfter := true } }).pfwAssert 4
  else if s1.glob.pstate = .brownout ∧ s1.sill.brownStep < 5 then { s1 with sill := { s1.sill with offAfter := true } }
  else
    let s2 : State := { s1 with sill := { s1.sill with state := .disabled, coolEnd := none, recharge := false } }
    -- the transistor turning off in ON asserts PFW_N (R593)
    if s1.sill.state = .on then s2.turnOff 4 else s2

/-- SILL_CTL_EN: the register write of R606, ignored while the POWER group is locked (R513). -/
def execSillCtlEn (en : Bool) (s : State) : Res :=
  evt (s.aon && s.glob.pstate != .moduleReset) (fun s => if s.locked 0 then s.globEvent 19 else s.sillEn en) s

/-! ### COLD reset (R588, Table 1.11) -/

/-- What survives a COLD reset: flash, fuses and straps; the queue and what has been sent are the model's own. -/
def State.cold (s : State) : State :=
  let c := (s.opsCut).bankCut
  let r : State := State.reset
  let g := { r.glob with isMA := c.glob.isMA, serial := c.glob.serial, pstate := .off, draws := c.glob.draws }
  let m := { r.mbx with keys := c.mbx.keys, pwKeys := c.mbx.pwKeys, salt := c.mbx.salt, smbus := c.mbx.smbusFlash, smbusFlash := c.mbx.smbusFlash, edges := c.mbx.edges, journal := c.mbx.journal, journalBase := c.mbx.journalBase, ops := c.mbx.ops }
  let h := { r.hier with key := c.hier.key, prefMgr := c.hier.prefMgr, autoAdmit := c.hier.autoAdmit, meshMs := c.hier.meshMs, trCplMs := c.hier.trCplMs }
  let p := { r.ports with map := c.ports.flash, flash := c.ports.flash, refOk := c.ports.refOk, refLost := c.ports.refLost }
  let sl := { r.sill with start := c.sill.start, goal := c.sill.start, feedA := c.sill.feedA, feedB := c.sill.feedB }
  { r with glob := g, mbx := m, hier := h, ports := p, sill := sl, fw := c.fw, svc := { r.svc with rstN := c.svc.rstN, sbVio := c.svc.sbVio }, out := c.out, pending := c.pending }

/-- COLD_RESET (R588, R625): the module goes OFF; PFW_N and ALIVE are low. -/
def execColdReset (s : State) : Res :=
  .next (if s.glob.pstate = .off then s else s.cold.emits [.pin .pfwN false, .pin .alive false])

/-- COLD_RELEASE (R588, R602): STANDBY, Sill in WAIT with the retry count loaded. -/
def execColdRelease (s : State) : Res :=
  evt (s.glob.pstate == .off) (fun s =>
    ({ s with glob := { s.glob with pstate := .standby }, sill := { s.sill with state := .wait, retry := s.retries } }).emit (.pin .pfwN true)) s

/-- POL_STOP (R599): V_BULK below 32.5 V after turn-off. The converters stop; the module is in STANDBY as after a
MODULE reset without write-back and without a reload of the retry count. -/
def execPolStop (s : State) : Res :=
  evt (s.sill.turnedOff && s.sill.pol) (fun s =>
    let s1 := s.moduleCut
    let s2 := s1.mrRelease
    { s2 with glob := { s2.glob with pstate := .standby }, svc := { s2.svc with mr := .idle, thermHold := [] }
              sill := { s2.sill with pol := false, brownStep := 0, resetWaits := none, goal := s2.sill.start, gpfHosts := [], gpfExps := [], selfTest := false } }) s

/-! ### Start-up (R607, Table 13.9) -/

/-- SELF_TEST_DONE (R607): ALIVE starts and the cores boot, and the converters start unless RST_N holds them or
START_STATE is STANDBY; a failure is ROOT_SELFTEST. -/
def execSelfTestDone (pass : Bool) (s : State) : Res :=
  evt (s.sill.state == .on && s.glob.pstate == .standby && ! s.sill.selfTest) (fun s =>
    if pass then
      let s1 : State := { s.aliveOn with sill := { s.sill with selfTest := true } }
      let s2 := if s1.svc.coldBoot then s1.coreBoot 1 else { s1 with svc := { s1.svc with coresRun := true } }
      { s2 with sill := { s2.sill with pol := s2.svc.rstN && s2.sill.goal != .standby } }
    else s.fault 0x0502 (mkLoc s.pk 15 15 15 255) 0xFF) s

/-- STARTUP_READY (R607): READY, then the state start-up is heading to. -/
def execStartupReady (s : State) : Res :=
  evt (s.glob.pstate == .standby && s.sill.pol && s.sill.state == .on && s.svc.rstN && s.svc.pll0 && s.svc.pll1) (fun s => s.enterReady.toGoal) s

/-! ### Metering (R600, R601) -/

/-- METER_UPDATE. Voltages come in 10 mV units and currents in mA. A failed self-check holds P and the
accumulator (Table 13.12). -/
def execMeterUpdate (va vb vin vbulk ia ib iin : Nat) (ok : Bool) (s : State) : Res :=
  evt s.aon (fun s =>
    let sat := fun n => min n 65535
    let p := if ok then sat vin * sat iin / 100 else s.sill.power
    let e := if ok then s.sill.energyRem + p else s.sill.energyRem
    let sl := { s.sill with volt := BitVec.ofNat 64 (sat va * 2 ^ 48 + sat vb * 2 ^ 32 + sat vin * 2 ^ 16 + sat vbulk), curr := BitVec.ofNat 64 (sat ia * 2 ^ 48 + sat ib * 2 ^ 32 + sat iin * 2 ^ 16), updates := (s.sill.updates + 1) % 2 ^ 32, power := p, energy := (s.sill.energy + e / 10) % 2 ^ 64, energyRem := e % 10 }
    let s1 : State := { s with sill := sl }
    if ok then s1 else s1.fault 0x0609 (s.dieLoc 6) 0xFF) s

/-! ### POWER commands (Table 13.13) -/

/-- PSTATE of Table 11.3; OFF has no code. -/
def PState.code (p : PState) : Nat :=
  match p with | .off => 0 | .standby => 1 | .ready => 2 | .active => 3 | .brownout => 4 | .moduleReset => 5 | .stopped => 6

/-- COOL_LEFT in 0.1 s units. -/
def State.coolLeft (s : State) : Nat := match s.sill.coolEnd with | some e => (e - s.now) / 2500000 | none => 0

/-- A feed conducts (CARRY): the feeds OK or OV, the other one carrying alone where only one is. When both are,
which of them conducts is not stated: a free value (R574, log 15). -/
def State.carry (s : State) : Nat :=
  let ok := fun f => f == 2 || f == 3
  match ok s.sill.feedA, ok s.sill.feedB with
  | true, true => 1 + s.freeNat % 3
  | a, b => b2n a + 2 * b2n b

/-- SILL_STATUS (Table 13.11). -/
def State.sillStatus (s : State) : Nat :=
  s.sill.state.code * 2 ^ 60 + s.sill.retry * 2 ^ 57 + s.sill.feedA * 2 ^ 54 + s.sill.feedB * 2 ^ 51 + s.carry * 2 ^ 49 + b2n s.sill.pfw * 2 ^ 48
    + s.sill.pfwCause * 2 ^ 44 + s.sill.lastTrip * 2 ^ 40 + s.coolLeft % 65536 * 2 ^ 24

/-- POWER_STATUS (R611); the voted registers are voted by the read (R15). -/
def execPowerStatus (f : Frame) (s : State) : Res :=
  command 0xCD01 f (.powerStatus f) (fun _ => none)
    (fun s => let s := s.tvFixAll [2, 3]
      (s.drawn, rcOk, [s.sillCtl, s.sillLim, s.sillStatus, s.sill.event.read.toNat, s.sill.volt.toNat, s.sill.curr.toNat,
      s.sill.updates * 2 ^ 32 + s.sill.power, s.sill.energy, s.glob.pstate.code, s.sill.start.code])) s

/-- POWER_SET (R583, R609, R611). EN written here acts as R606 says. -/
def execPowerSet (f : Frame) (ctl limits : Reg64) (s : State) : Res :=
  command 0xCD02 f (.powerSet f ctl limits)
    (fun _ => if ctlOk ctl.toNat ∧ limOk limits.toNat ∧ rampOk ctl.toNat limits.toNat then none else some rcParam)
    (fun s =>
      let was := s.sill.ctl.maj &&& 0x8000000000000000
      let c := (ctl &&& ctlMask &&& 0x7FFFFFFFFFFFFFFF) ||| was
      let s1 : State := { s with sill := { s.sill with ctl := Tri.all c, limits := Tri.all (limits &&& limMask) } }
      (s1.sillEn (bit ctl.toNat 63), rcOk, [])) s

/-- Something exists that forbids leaving ACTIVE or READY (R603). -/
def State.inUse (s : State) : Bool :=
  ! s.pool.ent.isEmpty || ! s.pool.bridge.isEmpty
  || s.pool.ext.any (fun e => e.2.state != .free && e.2.state != .absent && e.2.state != .scrub)
  || s.slices.any (fun x => x.2.pasid != 0) || (List.range 8).any (fun t => (s.tp t).state != .off)

/-- ACTIVE is left: every port is disabled and its partner departs as planned; lanes go DEEP, trunk lanes TL3 (R603). -/
def State.leaveActive (s : State) : State :=
  let s1 := (List.range 64).foldl (fun (s : State) p => if s.isPort p then (s.departPlanned p).modPort p (fun x => { x with enabled := false, lanes := .deep }) else s) s
  let s2 := (List.range 8).foldl (fun (s : State) t => s.modTp t (fun x => { x with state := .off, tx := .tl3, rx := .tl3 })) s1
  { s2 with glob := { s2.glob with pstate := .ready }, hier := { s2.hier with activeAt := none } }

/-- READY is left for STANDBY: the dies are turned off (R603); sessions and GLOBAL_LOCK are kept. -/
def State.leaveReady (s : State) : State :=
  let s1 := s.diesReset false
  { s1 with glob := { s1.glob with pstate := .standby }, sill := { s1.sill with pol := false } }

/-- POWER_STATE_SET (R602, R603, R605, R612). -/
def execPowerStateSet (f : Frame) (target : Nat) (persist : Bool) (s : State) : Res :=
  command 0xCD03 f (.powerStateSet f target persist)
    (fun s => checks [(! [1, 2, 3].contains target, rcParam), (s.glob.pstate == .brownout, rcBusy),
      (target != 3 && s.running && s.inUse, rcBusy),
      (target != 1 && s.glob.pstate == .standby && (s.sill.state != .on || ! s.sill.selfTest), rcNotReady)])
    (fun s =>
      let t : PState := if target = 1 then .standby else if target = 2 then .ready else .active
      let s0 : State := { s with sill := { s.sill with goal := t, start := if persist then t else s.sill.start } }
      let s1 : State := match s0.glob.pstate, t with
        | .active, .ready => s0.leaveActive
        | .active, .standby => s0.leaveActive.leaveReady
        | .ready, .active => s0.enterActive
        | .ready, .standby => s0.leaveReady
        | .standby, .ready => { s0 with sill := { s0.sill with pol := s0.svc.rstN } }
        | .standby, .active => { s0 with sill := { s0.sill with pol := s0.svc.rstN } }
        | _, _ => s0
      (s1, rcOk, [])) s

/-- ENERGY_CLEAR (R601). -/
def execEnergyClear (f : Frame) (s : State) : Res :=
  command 0xCD04 f (.energyClear f) (fun _ => none)
    (fun s => ({ s with sill := { s.sill with energy := 0, energyRem := 0 } }, rcOk, [])) s

end Sys2Proof.Machine
end

