-- ==== Sys2Proof/Machine/ModuleCmd.lean ====
section
/-! DEFINITION. MODULE group but the resets and registers, forwarding over the trunk, and MCTP control messages (chapter 10). -/
namespace Sys2Proof.Machine

/-- Version of the running image, of a staged one, and the active bank. -/
def State.fwVersions (s : State) : List Nat :=
  let a := if s.fw.bank0.state = .active then 0 else 1
  let o := s.bank (1 - a)
  [(s.bank a).version, if o.state = .staged ∨ o.state = .pending then o.version else 0, a]

/-- The fields of MODULE_IDENTIFY (R7, R486): the part number as SV8650 and its variant, 1 for -MA and 0 for -WA, revision,
serial number, firmware versions and active bank, mailbox version, payload limit, index and role. -/
def State.identity (s : State) : List Nat :=
  [0x8650, b2n s.glob.isMA, 0xB1, s.glob.serial] ++ s.fwVersions ++ [4, 4096, s.glob.midx, s.glob.hrole]

/-- MODULE_IDENTIFY (R7). -/
def execModuleIdentify (f : Frame) (s : State) : Res :=
  query 0xC101 f (.moduleIdentify f) (fun _ => none) State.identity s

/-- IDENTIFY_V1 (R487): as MODULE_IDENTIFY. The SV4100 response layout is not given; its fields are
answered in the same order (log 16). -/
def execIdentifyV1 (f : Frame) (s : State) : Res :=
  query 0xD001 f (.identifyV1 f) (fun _ => none) State.identity s

/-- GLOBAL_STATE.DIE_UP: bit n set while die Dn is in service (Table 11.3). -/
def State.dieUp (s : State) : Nat :=
  (List.range 7).foldl (fun m d =>
    let up := if d = 6 then s.glob.pstate != .off else s.running && ! s.svc.stoppedDies.contains d && ! s.svc.resets.any (fun r => r.loc.level == 2 && r.loc.die == d)
    m + b2n up * 2 ^ d) 0

/-- Groups with a running background operation. -/
def State.opGroups (s : State) : Nat := maskOf ((s.mbx.ops.filter (fun o => o.2.running)).map (·.1))

/-- MODULE_STATUS (R486). -/
def execModuleStatus (f : Frame) (s : State) : Res :=
  query 0xC102 f (.moduleStatus f) (fun _ => none)
    (fun s => [s.glob.pstate.code, s.dieUp, s.xbar.up.toNat, s.xbar.gated.toNat, s.opGroups]) s

/-- MODULE_SET (R463, R486, R629). An edge rate of the reserved code keeps the previous value. -/
def execModuleSet (f : Frame) (smbus vec : Option Nat) (notify alert : Option Bool) (edge : Option (Nat × Nat × Nat)) (s : State) : Res :=
  command 0xC103 f (.moduleSet f smbus vec notify alert edge)
    (fun _ => checks [((smbus.any (fun a => decide (127 < a))), rcParam), ((vec.any (fun v => decide (2047 < v))), rcParam),
      ((edge.any (fun e => decide (3 < e.1) || decide (3 < e.2.1) || decide (3 < e.2.2))), rcParam)])
    (fun s =>
      let m := s.mbx
      let put := fun (t : Tbl Nat) g c => if c = 3 then t else Tbl.set 1 t g c
      let ed := match edge with | some e => put (put (put m.edges 0 e.1) 1 e.2.1) 2 e.2.2 | none => m.edges
      let m1 := { m with smbusFlash := smbus.getD m.smbusFlash, vec := vec.getD m.vec, notify := notify.getD m.notify, alertEn := alert.getD m.alertEn, edges := ed }
      ({ s with mbx := m1 }, rcOk, [])) s

/-- MODULE_LOCK (R490, R511): bits are set as by a write of GLOBAL_LOCK, none cleared; reserved bits are discarded (R13). -/
def execModuleLock (f : Frame) (mask : Nat) (s : State) : Res :=
  command 0xC104 f (.moduleLock f mask) (fun _ => none)
    (fun s => ({ s with glob := { s.glob with lock := Tri.all (s.glob.lock.maj ||| BitVec.ofNat 64 (mask % 32)) } }, rcOk, [])) s

/-- The summary's event bits, with the groups of OP_ENDED in [31:16] (Table 10.11). -/
def Sqc.summaryWord (q : Sqc) : Nat := (q.ages.foldl (fun r e => r ||| ((1 : Reg32) <<< e.1)) q.val).toNat

/-- EVENT_GET (R491, R492): ALERT_N rises once no summary bit remains. -/
def execEventGet (f : Frame) (ack : Bool) (seq : Nat) (s : State) : Res :=
  command 0xC105 f (.eventGet f ack seq) (fun _ => none)
    (fun s =>
      let q := s.mbx.summary
      let data := [q.summaryWord, q.seq.toNat]
      if ack then
        let q1 := q.clear (BitVec.ofNat 8 seq)
        let q2 := if q1.has 1 then q1 else { q1 with val := 0 }
        let s1 : State := { s with mbx := { s.mbx with summary := q2 } }
        if q2.ages = [] ∧ s1.mbx.alert then (({ s1 with mbx := { s1.mbx with alert := false } }).emit (.pin .alertN true), rcOk, data)
        else (s1, rcOk, data)
      else (s, rcOk, data)) s

/-- A journal record packed as Table 10.17. -/
def JRec.pack (r : JRec) : Nat :=
  r.time * 2 ^ 192 + r.arg % 2 ^ 64 * 2 ^ 128 + r.position % 2 ^ 64 * 2 ^ 64 + r.opid % 2 ^ 32 * 2 ^ 32 + r.code % 65536 * 2 ^ 16 + r.status % 256 * 256 + r.type % 256

/-- OP_JOURNAL_GET (R497): the index of the first record returned, then the records. -/
def execOpJournalGet (f : Frame) (index count : Nat) (s : State) : Res :=
  query 0xC106 f (.opJournalGet f index count) (fun _ => if count = 0 ∨ 127 < count then some rcParam else none)
    (fun s =>
      let i := max index s.mbx.journalBase
      i :: ((s.mbx.journal.drop (i - s.mbx.journalBase)).take count).map JRec.pack) s

/-- PERCENT (R494). -/
def BgOp.percent (o : BgOp) : Nat :=
  if ¬ o.running ∧ o.status = 0 then 100 else min 99 (100 * o.pos / o.total)

/-- OP_STATUS (Table 10.10). -/
def execOpStatus (f : Frame) (grp : Nat) (s : State) : Res :=
  query 0xC107 f (.opStatus f grp) (fun _ => if 15 < grp then some rcParam else none)
    (fun s => match Tbl.find s.mbx.ops grp with
      | none => [0, 0, 0, 0, 0, 0, 0, 0, 0, 0]
      | some o => [o.opid, o.opcode, if o.running then 1 else 2, if o.running then 0xFF else o.status, o.percent, o.pos, o.total, o.result, o.startAt, o.endAt]) s

/-- OP_ABORT (R496). -/
def execOpAbort (f : Frame) (grp : Nat) (s : State) : Res :=
  command 0xC108 f (.opAbort f grp)
    (fun s => if (grp = 3 ∨ grp = 15) ∧ s.opRunning grp then none else some rcNotFound)
    (fun s => (if grp = 3 then s.evacEnd 2 false else s.endOp 15 2 none, rcOk, [])) s

/-- MCTP_CONTROL (R463): Set and Get Endpoint ID, Get UUID, version and message type support; the command
codes are those of the MCTP base specification (log 17). The endpoint's UUID is a free value. I3C does not respond without SB_VIO (R627). -/
def execMctpControl (xport : Xport) (ep cmd arg : Nat) (s : State) : Res :=
  evt (s.glob.pstate != .off && (xport == .smbus || (xport == .i3c && s.svc.sbVio))) (fun s =>
    let x := (if xport = .i3c then 1 else 0)
    match cmd with
    | 1 =>
      if arg = 0 ∨ 255 ≤ arg then s.emit (.mctp xport ep 1 2 (Tbl.get 0 s.mbx.eids x))
      else ({ s with mbx := { s.mbx with eids := Tbl.set 0 s.mbx.eids x arg } }).emit (.mctp xport ep 1 0 arg)
    | 2 => s.emit (.mctp xport ep 2 0 (Tbl.get 0 s.mbx.eids x))
    | 3 => s.drawn.emit (.mctp xport ep 3 0 s.freeNat)
    | 4 => s.emit (.mctp xport ep 4 0 0xF1F3F100)
    | 5 => s.emit (.mctp xport ep 5 0 0x7E05)
    | c => s.emit (.mctp xport ep c 5 0)) s

/-- TRUNK_MAILBOX_FRAME (R466, R467): from P0 it is accepted for execution in its forwarded role; one already
executed has its stored reply sent again; from any other module it is discarded. -/
def execTrunkMailboxFrame (tp : Nat) (f : Frame) (opcode : Nat) (s : State) : Res :=
  evt ((s.tp tp).state == .active && s.glob.pstate == .active && s.glob.hrole == 2) (fun s =>
    if (s.tp tp).peerIdx ≠ 0 ∨ ¬ f.fwd ∨ f.xport ≠ .trunk then s
    else match Tbl.find s.mbx.lastFwd f.sid with
      | some r => if r.1 = f.tag ∧ r.2.1 = f.seq then s.emit (.reply f opcode r.2.2.1 r.2.2.2 0) else { s with mbx := { s.mbx with trunkFrame := some f } }
      | none => { s with mbx := { s.mbx with trunkFrame := some f } }) s

/-- FORWARD_RESEND (R467, R647): 10 ms without a reply to a forwarded command, or to a request of this module's firmware;
after the third resend the command is answered PEER_TIMEOUT. -/
def execForwardResend (tag : Nat) (s : State) : Res :=
  evt (s.mbx.fwds.any (fun w => w.frame.tag == tag) || s.pool.homeReqs.any (fun q => q.frame.tag == tag)) (fun s =>
    match s.mbx.fwds.find? (fun w => w.frame.tag == tag) with
    | some w =>
      if w.resends < 3 then
        let upd := fun (x : Fwd) => if x = w then { x with resends := x.resends + 1 } else x
        ({ s with mbx := { s.mbx with fwds := s.mbx.fwds.map upd } }).emit (.forward w.frame.dest { w.frame with fwd := true, fwdRole := w.role, slice := w.slice } w.opcode w.role)
      else ({ s with mbx := { s.mbx with fwds := s.mbx.fwds.erase w } } : State).lateReply w.frame w.opcode rcPeerTimeout []
    | none => match s.pool.homeReqs.find? (fun q => q.frame.tag == tag) with
      | none => s
      | some q =>
        if q.tries < 3 then
          let upd := fun (x : HomeReq) => if x = q then { x with tries := x.tries + 1 } else x
          ({ s with pool := { s.pool with homeReqs := s.pool.homeReqs.map upd } } : State).emits (q.asks.map HomeAsk.out)
        else
          let s1 : State := { s with mbx := { s.mbx with harvests := s.mbx.harvests.filter (fun h => h.frame != some q.frame || q.op != 0xC611) } }
          ({ s1 with pool := { s1.pool with homeReqs := s1.pool.homeReqs.map (fun x => if x = q then { x with asks := [] } else x) } } : State).homeFail { q with asks := [] } 15 rcPeerTimeout) s

/-- HIER_REMOVE begins: step 1 of Table 6.17, with its operation. -/
def State.leaveStart (s : State) (idx : Nat) : State × Nat :=
  let serial := match s.hier.members.find? (fun m => m.idx == idx) with | some m => m.serial | none => 0
  let x := s.startOp 11 0xCB05 4
  (({ x.1 with hier := { x.1.hier with remove := some (idx, 0) } } : State).toMembers 4 idx serial, x.2)

/-- Every home has granted what a command asked for (R647): a BIND_ADD writes its entries now, a POOL_ALLOC returns the
extents, a HIER_REMOVE that no member's binding stands against begins (R313). What the module checked before it asked is checked again. -/
def State.homeAnswer (s : State) (q : HomeReq) (data : List Nat) : State :=
  let drop : State := { s with pool := { s.pool with homeReqs := s.pool.homeReqs.erase q } }
  if q.op = 0xC401 then
    match (s.homeCheck (reqExts s.glob.midx q.binds)).orElse (fun _ => (s.hostCheck q.arg).orElse (fun _ => if s.bindFree q.arg q.binds then none else some rcParam)) with
    | some rc => s.homeFail q 15 rc
    | none =>
      let x := (drop.homeBind (reqExts s.glob.midx q.binds)).bindPend q.arg q.binds
      x.1.lateReply q.frame q.op rcOk x.2
  else if q.op = 0xC705 then
    match q.binds with
    | [a, b] =>
      let d : WinDef := { next := a.nm1 + 1, homeA := a.home, fextA := a.fext, homeB := b.home, fextB := b.fext, owner := a.hoffExt }
      (match s.aliasCheck q.arg (some d) with
      | some rc => s.homeFail q 15 rc
      | none => (drop.aliasWrite q.arg (some d)).lateReply q.frame q.op rcOk [])
    | _ => drop
  else if q.op = 0xCB05 then
    if s.opRunning 11 ∨ s.hier.join.any (fun j => j.idx == q.arg) ∨ s.bindsHome q.arg then s.homeFail q 15 rcBusy
    else
      let x := drop.leaveStart q.arg
      x.1.lateReply q.frame q.op rcBg [x.2]
  else drop.lateReply q.frame q.op rcOk data

/-- A home has answered one request of a command (R647): the command goes on when every home has granted its part, and ends
with the first return code that is not SUCCESS. -/
def State.homeSays (s : State) (q : HomeReq) (a : HomeAsk) (rc : Nat) (data : List Nat) : State :=
  let q1 := { q with asks := q.asks.erase a, done := q.done ++ [a] }
  let s1 : State := { s with pool := { s.pool with homeReqs := s.pool.homeReqs.map (fun x => if x = q then q1 else x) } }
  if q.op = 0xC611 then
    -- a harvest waits for the homes it names (R454)
    let hs := s1.mbx.harvests.map (fun h => if h.frame = some q.frame then { h with remote := h.remote.erase a.home } else h)
    { s1 with
      mbx := { s1.mbx with harvests := hs }
      pool := { s1.pool with homeReqs := if q1.asks.isEmpty then s1.pool.homeReqs.erase q1 else s1.pool.homeReqs } }
  else if rc ≠ rcOk then ({ s1 with pool := { s1.pool with homeReqs := s1.pool.homeReqs.map (fun x => if x = q1 then { q1 with done := q.done } else x) } } : State).homeFail { q1 with done := q.done } 15 rc
  else if q1.asks.isEmpty then s1.homeAnswer q1 data
  else s1

/-- FORWARDED_REPLY (R467, R647): a member's answer to a forwarded command, or to a request of this module's firmware. -/
def execForwardedReply (tp tag rc : Nat) (data : List Nat) (s : State) : Res :=
  evt ((s.tp tp).state == .active) (fun s =>
    let m := (s.tp tp).peerIdx
    match s.mbx.fwds.find? (fun w => w.frame.tag == tag && w.frame.dest == m) with
    | some w => ({ s with mbx := { s.mbx with fwds := s.mbx.fwds.erase w } } : State).lateReply w.frame w.opcode rc data
    | none => match s.pool.homeReqs.find? (fun q => q.frame.tag == tag && q.asks.any (fun a => a.home == m)) with
      | some q => (match q.asks.find? (fun a => a.home == m) with
        | some a => s.homeSays q a rc data
        | none => s)
      | none => s) s

/-- UNSUPPORTED_OPCODE (R185, R469): answered UNSUPPORTED whatever else the frame holds. -/
def execUnsupportedOpcode (f : Frame) (opcode : Nat) (s : State) : Res :=
  evt (s.reachable f opcode) (fun s => s.reply f opcode rcUnsup []) s

end Sys2Proof.Machine
end

