-- ==== Sys2Proof/Machine/RegRead.lean ====
section
/-! DEFINITION. The direct registers as they read: the BAR0 windows of Table 11.1 and the slice pages of Table 9.4, the voted fields among them, and the latch of counter reads (chapter 11). -/
namespace Sys2Proof.Machine

/-- The voted fields a register of BAR0 holds. -/
def tvAt (off : Nat) : List Nat := tvAll.filter (fun k => decide (k < 8) && tvOff k == off)

/-! ### The windows (Tables 11.2, 11.7, 12.11, 13.10, 7.11, 8.7, 9.11) -/

/-- A register: true for 64 bits, and its value. -/
abbrev RegVal := Option (Bool × Nat)

/-- The global window (Table 11.3). -/
def State.globReg (s : State) (off : Nat) : RegVal :=
  let g := s.glob
  match off with
  | 0x00 => some (true, 0x8650 * 2 ^ 48 + 0xB1 * 2 ^ 40 + 0x04 * 2 ^ 32 + (if g.isMA then 1 else 2) * 2 ^ 28 + g.midx % 16 * 2 ^ 24 + g.hrole % 16 * 2 ^ 20)
  | 0x08 => some (true, g.serial % 2 ^ 64)
  | 0x10 => some (false, g.pstate.code % 8 * 2 ^ 29 + s.dieUp % 128 * 2 ^ 22)
  | 0x18 => some (false, g.lock.maj.toNat % 2 ^ 32)
  | 0x20 => some (false, g.event.read.toNat)
  | 0x28 => some (true, g.voteLoc.toNat * 2 ^ 32 + g.voteOff % 2 ^ 20 * 2 ^ 12 + g.voteCnt % 4096)
  | 0x30 => some (true, g.bindRoot.maj.toNat)
  | _ => none

/-- The fault window (Table 12.12). -/
def State.faultReg (s : State) (off : Nat) : RegVal :=
  let f := s.faults
  if off = 0 then some (false, f.event.read.toNat)
  else if off = 8 then some (true, f.status)
  else if off % 8 = 0 ∧ 0x10 ≤ off ∧ off < 0x40 then some (true, (Tbl.get ({} : Cnt) f.cnt ((off - 0x10) / 8)).read)
  else if off = 0x40 then some (true, f.lost.read)
  else if off = 0x48 then some (false, f.aliveStatus)
  else if off % 8 = 0 ∧ 0x100 ≤ off ∧ off < 0x120 then some (true, ((f.records.getLast?.map FRec.pack).getD 0) / 2 ^ (8 * (off - 0x100)) % 2 ^ 64)
  else none

/-- The power window (Table 13.11). -/
def State.powerReg (s : State) (off : Nat) : RegVal :=
  match off with
  | 0x00 => some (true, s.sillCtl)
  | 0x08 => some (true, s.sillLim)
  | 0x10 => some (true, s.sillStatus)
  | 0x18 => some (false, s.sill.event.read.toNat)
  | 0x20 => some (true, s.sill.volt.toNat)
  | 0x28 => some (true, s.sill.curr.toNat)
  | 0x30 => some (true, s.sill.updates % 2 ^ 32 * 2 ^ 32 + s.sill.power % 2 ^ 32)
  | 0x38 => some (true, s.sill.energy % 2 ^ 64)
  | _ => none

/-- PERF_SMP_STATUS of a sampler. -/
def Sampler.status (x : Sampler) : Nat :=
  x.tail % 2 ^ 16 * 2 ^ 48 + x.head % 2 ^ 16 * 2 ^ 32 + b2n x.phase * 2 ^ 31 + b2n x.en * 2 ^ 30 + x.lost % 2 ^ 30

/-- The key of the counter whose register lies at an offset of the counter window (Table 11.7). -/
def cntKey (off : Nat) : Option Nat :=
  if off < 0x2000 then (if off % 8 = 0 ∧ off % 0x80 < 0x40 then some (8 * (off / 0x80) + off % 0x80 / 8) else none)
  else if off % 8 = 0 ∧ off < 0x2080 then some (512 + (off - 0x2000) / 8) else none

/-- The counter window (Table 11.8). -/
def State.cntReg (s : State) (off : Nat) : RegVal :=
  match cntKey off with
  | some k => some (true, (Tbl.get ({} : Cnt) s.perf.cnt k).read)
  | none =>
    if off % 8 = 0 ∧ off < 0x2000 ∧ off % 0x80 < 0x60 then some (false, s.sel (8 * (off / 0x80) + 4 + (off % 0x80 - 0x40) / 8))
    else if off % 8 = 0 ∧ 0x2080 ≤ off ∧ off < 0x2100 then some (false, s.sel (512 + (off - 0x2080) / 8))
    else if off = 0x3000 then some (false, b2n s.perf.freeze * 2 ^ 31)
    else if off = 0x3008 then some (false, s.perf.event.read.toNat)
    else if off = 0x3010 then some (true, s.perf.snap.toNat)
    else if 0x3100 ≤ off ∧ off < 0x3180 ∧ off % 0x20 = 0 then some (false, 0)
    else if 0x3100 ≤ off ∧ off < 0x3180 ∧ off % 0x20 = 8 then some (true, (Tbl.get ({} : Sampler) s.perf.smp ((off - 0x3100) / 0x20)).status)
    else none

/-- The registers of a submission ring and of the completion ring beside it (Table 7.12). -/
def State.ringReg (s : State) (n cq off : Nat) : RegVal :=
  match off with
  | 0x00 | 0x04 => some (false, 0)
  | 0x08 => some (false, s.ringCtl n)
  | 0x10 => some (true, s.ringStatus n)
  | 0x18 => some (true, s.cqStatus cq)
  | _ => none

/-- The DMA window (Table 7.11). -/
def State.dmaReg (s : State) (off : Nat) : RegVal :=
  if off < 0x4000 then s.ringReg (off / 0x40) (off / 0x40) (off % 0x40)
  else if off < 0x4800 then
    let c := (off - 0x4000) / 0x20
    match off % 0x20 with
    | 0 => some (false, b2n (s.chan c).stop)
    | 8 => some (true, s.chStatus c)
    | _ => none
  else if off = 0x5000 then some (false, s.dma.event.read.toNat)
  else if off = 0x5008 then some (false, s.dma.dreq.toNat)
  else none

/-- GATE_STATUS of a point (Table 8.8); zero for a port that is not downstream. -/
def State.gateStatus (s : State) (point : Nat) : Nat :=
  if point < 64 ∧ ¬ s.isDown point then 0
  else
    let g := s.gate point
    g.entry % 256 * 2 ^ 48 + s.openGroups point * 2 ^ 44 + b2n g.pending.isSome * 2 ^ 43 + b2n g.now.en * 2 ^ 42 + b2n g.now.tsync * 2 ^ 41
      + g.overrun % 65536 * 2 ^ 24 + (if g.now.en then (s.shape.mtime - g.start) / 8 % 2 ^ 24 else 0)

/-- The shaper and gate window (Table 8.7). -/
def State.shapeReg (s : State) (off : Nat) : RegVal :=
  if off % 0x10 = 0 ∧ off < 0x480 then some (true, s.gateStatus (off / 0x10))
  else match off with
    | 0x1000 => some (true, s.shape.mtime % 2 ^ 64)
    | 0x1008 => some (true, s.shape.stamp % 2 ^ 64)
    | 0x1010 => some (false, s.shape.event.read.toNat)
    | 0x1018 => some (false, s.shape.shEvent.read.toNat)
    | _ => none

/-- The ward window (Table 9.12). -/
def State.wardReg (s : State) (off : Nat) : RegVal :=
  match off with
  | 0x00 => some (true, s.ward.ctl0.maj.toNat)
  | 0x08 => some (true, s.ward.tgt0.maj.toNat % 2 ^ 32 * 2 ^ 32)
  | 0x10 => some (false, s.ward.epoch % 2 ^ 32)
  | 0x18 => some (false, s.wardDrain % 2 ^ 32)
  | 0x20 => some (true, s.wardStatus)
  | 0x28 => some (true, s.wardAudit)
  | 0x30 => some (false, s.ward.event.read.toNat)
  | _ => none

/-- The register at an offset of BAR0 (Table 11.1). -/
def State.reg (s : State) (off : Nat) : RegVal :=
  let w := off % 0x10000
  match off / 0x10000 with
  | 0 => s.globReg w
  | 1 => s.faultReg w
  | 2 => s.powerReg w
  | 3 => s.cntReg w
  | 4 => s.dmaReg w
  | 5 => s.shapeReg w
  | 6 => s.wardReg w
  | _ => none

/-- The ring in slot `j` of a slice's page. -/
def State.slotRing (s : State) (sl j : Nat) : Option Nat := (s.sliceRings sl).find? (fun n => (s.ring n).slot == j)

/-- The registers of the page of a slice that does not exist, at their reset values (Table 9.5). -/
def pageBlank (sl off : Nat) : RegVal :=
  if off = 0 then some (true, 0xFFF * 2 ^ 41 + sl * 2 ^ 32)
  else if off = 8 ∨ off = 0x10 ∨ off = 0x14 ∨ off = 0x18 then some (false, 0)
  else if 0x800 ≤ off ∧ off < 0x840 ∧ off % 8 = 0 then some (true, 0)
  else none

/-- The register at an offset of a slice page (Tables 9.4 and 9.5), read through the PRIMARY port or another (R425). -/
def State.pageReg (s : State) (sl off : Nat) (onPrimary : Bool) : RegVal :=
  match s.slice sl with
  | none => pageBlank sl off
  | some x =>
    let ch := x.chan
    if off = 0 then some (true, x.cut.toNat * 2 ^ 41 + sl * 2 ^ 32 + x.host % 64 * 2 ^ 20 + x.pasid % 2 ^ 20)
    else if off = 8 then some (false, b2n x.log.isSome * 8 + (match x.state with | .active => 0 | .freezing => 1 | .frozen => 2) * 2 + b2n x.userCnt)
    else if off = 0x10 ∨ off = 0x14 then some (false, 0)
    else if off = 0x18 then some (false, match ch with | some c => c.reqHead % 65536 * 65536 + c.repTail % 65536 | none => 0)
    else if 0x100 ≤ off ∧ off < 0x500 then
      (match s.slotRing sl ((off - 0x100) / 0x40) with
      | some n => s.ringReg n (s.ring n).cq ((off - 0x100) % 0x40)
      | none => none)
    else if 0x800 ≤ off ∧ off < 0x840 ∧ off % 8 = 0 then
      some (true, if onPrimary ∨ x.userCnt then (Tbl.get ({} : Cnt) x.cnt ((off - 0x800) / 8)).read else 0)
    else none

/-! ### The forms of access (R507, R528) -/

/-- The register that holds an offset, by a map from offsets to registers: its own offset and value. -/
def holding (m : Nat → RegVal) (off : Nat) : Option (Nat × Bool × Nat) :=
  match m (off / 8 * 8) with
  | some (true, v) => some (off / 8 * 8, true, v)
  | _ => (m (off / 4 * 4)).map (fun r => (off / 4 * 4, r.1, r.2))

/-- A 32-bit read of a map of registers. -/
def read32 (m : Nat → RegVal) (off : Nat) : Nat :=
  match holding m off with
  | none => 0
  | some (o, w, v) => if w then v / 2 ^ (8 * (off - o)) % 2 ^ 32 else v % 2 ^ 32

/-- A read of `width` bytes: its value, and whether it is ignored (R507). -/
def readForm (m : Nat → RegVal) (off width : Nat) : Nat × Bool :=
  match holding m off with
  | none => (0, false)
  | some (o, w, v) =>
    if off % max width 1 ≠ 0 then (0, true)
    else if width = 8 then (if w then v else read32 m off + read32 m (off + 4) * 2 ^ 32, false)
    else if width = 4 then (read32 m off, false)
    else (v / 2 ^ (8 * (off - o)) % 2 ^ (8 * width), false)

/-- A write is ignored (R507): narrow, misaligned, 32 bits at a 64-bit register, or 64 bits at a register of 32. -/
def writeIgnored (r : Nat × Bool × Nat) (off width : Nat) : Bool :=
  decide (width ≠ 4 ∧ width ≠ 8) || off % max width 1 != 0 || r.2.1 != (width == 8)

/-- GLOBAL_EVENT.BAD_ACCESS. -/
def State.badAccess (s : State) : State := s.globEvent 17

/-- A counter's register lies at an offset of BAR0, so its halves are latched (R528). -/
def isCounter (off : Nat) : Bool :=
  (off / 0x10000 == 3 && (cntKey (off % 0x10000)).isSome)
    || (off / 0x10000 == 1 && off % 8 == 0 && decide (0x10 ≤ off % 0x10000) && decide (off % 0x10000 ≤ 0x40))

/-- A 32-bit read of a counter's low half latches its high half for the requester; the next read of the high
half by that requester returns and uses up the latched value (R528). -/
def State.latchRead (s : State) (requester off v : Nat) : State × Nat :=
  let key := (requester, off / 8 * 8)
  let rest := s.perf.latch.filter (fun e => e.1 != key)
  if ¬ isCounter (off / 8 * 8) then (s, v)
  else if off % 8 = 0 then
    let hi : Reg32 := BitVec.ofNat 32 (read32 s.reg (off + 4))
    ({ s with perf := { s.perf with latch := rest ++ [(key, hi)] } }, v)
  else match s.perf.latch.find? (fun e => e.1 == key) with
    | some e => ({ s with perf := { s.perf with latch := rest } }, e.2.toNat)
    | none => (s, v)

/-- A read of BAR0 by a requester (R15, R505, R507, R528). -/
def State.regRead (s : State) (requester off width : Nat) : State × Nat :=
  let r := readForm s.reg off width
  if r.2 then (s.badAccess, 0)
  else
    let o := (holding s.reg off).map (fun h => h.1)
    let s1 := s.tvFixAll (match o with | some o => tvAt o | none => [])
    -- SILL_STATUS.CARRY may hold a free value, and the draw is taken
    let s2 := if o = some 0x20010 then s1.drawn else s1
    if width = 4 then s2.latchRead requester off r.1 else (s2, r.1)

end Sys2Proof.Machine
end

