-- ==== Sys2Proof/Machine/RegCmd.lean ====
section
/-! DEFINITION. Writes of the direct registers, REG_GET and REG_SET, locks, sequence clear and votes (chapter 11). -/
namespace Sys2Proof.Machine

/-! ### Writes of one register -/

/-- A sequence-clear register written: the events set at or before the SEQ in bits 31 to 24 clear (R515). -/
def State.sqcWrite (s : State) (off w : Nat) : State :=
  let b : BitVec 8 := BitVec.ofNat 8 (w / 2 ^ 24)
  match off with
  | 0x00020 => { s with glob := { s.glob with event := s.glob.event.clear b } }
  | 0x10000 => { s with faults := { s.faults with event := s.faults.event.clear b } }
  | 0x20018 => { s with sill := { s.sill with event := s.sill.event.clear b } }
  | 0x33008 => { s with perf := { s.perf with event := s.perf.event.clear b } }
  | 0x45000 => { s with dma := { s.dma with event := s.dma.event.clear b } }
  | 0x51010 => { s with shape := { s.shape with event := s.shape.event.clear b } }
  | 0x51018 => { s with shape := { s.shape with shEvent := s.shape.shEvent.clear b } }
  | 0x60030 => { s with ward := { s.ward with event := s.ward.event.clear b } }
  | _ => s

/-- GLOBAL_LOCK written: clear lock bits are set by ones, set bits never change (R511). -/
def State.lockWrite (s : State) (v : Nat) : State :=
  { s with glob := { s.glob with lock := Tri.all (s.glob.lock.maj ||| BitVec.ofNat 64 (v % 32)) } }

/-- SILL_CTL written: flagged while POWER is locked, ignored whole and flagged when a field is out of range (R513, R583, R609). -/
def State.sillCtlWrite (s : State) (v : Nat) : State :=
  if s.locked 0 then s.globEvent 19
  else if ¬ ctlOk v ∨ ¬ rampOk v s.sillLim then s.sillEvent 17
  else
    let c := (BitVec.ofNat 64 v &&& ctlMask &&& 0x7FFFFFFFFFFFFFFF) ||| (s.sill.ctl.maj &&& 0x8000000000000000)
    ({ s with sill := { s.sill with ctl := Tri.all c } } : State).sillEn (bit v 63)

/-- SILL_LIMITS written (R513, R583, R609). -/
def State.sillLimWrite (s : State) (v : Nat) : State :=
  if s.locked 0 then s.globEvent 19
  else if ¬ limOk v ∨ ¬ rampOk s.sillCtl v then s.sillEvent 17
  else { s with sill := { s.sill with limits := Tri.all (BitVec.ofNat 64 v &&& limMask) } }

/-- WARD_CTL written: MISS_PERM and EN, for the next commit (R444, R513). -/
def State.wardCtlWrite (s : State) (v : Nat) : State :=
  if s.locked 1 then (s.wardEvent 21 0 0).globEvent 20
  else
    let c : Tri := Tri.all (BitVec.ofNat 64 v &&& 0xE1)
    { s with ward := { s.ward with ctl0 := c, ctl1 := c } }

/-- PERF_CTL.CLEAR: every COUNT and OVF of the window is zero (R520, R527). -/
def State.perfClear (s : State) : State := { s with perf := { s.perf with cnt := [] } }

/-- PERF_CTL.FREEZE (R529). -/
def State.perfFreeze (s : State) (on : Bool) : State := { s with perf := { s.perf with freeze := on } }

/-- PERF_SMP_HEAD: the records before HEAD are free (R534); one that names more than were written changes nothing. -/
def State.smpHead (s : State) (idx head : Nat) : State :=
  let x := Tbl.get ({} : Sampler) s.perf.smp idx
  let size := 2 ^ x.log2
  let freed := (head + size - x.head) % size
  if size ≤ head ∨ x.used < freed then s
  else { s with perf := { s.perf with smp := Tbl.set {} s.perf.smp idx { x with head := head, used := x.used - freed } } }

/-- DMA_RING_CTL written: STOP_ON_ERR, EN and ABORT (Table 7.12). -/
def State.ringCtlWrite (s : State) (n v : Nat) : State :=
  let s1 := s.modRing n (fun r => { r with stopOnErr := bit v 1 })
  let s2 := s1.ringEn n (bit v 0)
  if bit v 2 then s2.ringAbort n else s2

/-- The doorbells and the control of a ring, written at BAR0 or in a slice page (R375). -/
def State.ringWrite (s : State) (n cq off v : Nat) : State :=
  match off with
  | 0x00 => s.sqDb n (v % 65536)
  | 0x04 => s.cqDb cq (v % 65536)
  | 0x08 => s.ringCtlWrite n v
  | _ => s

/-- A register of BAR0 written in a form R507 takes; a write of RO fields changes nothing. -/
def State.regPut (s : State) (off v : Nat) : State :=
  if off = 0x18 then s.lockWrite v
  else if off = 0x20000 then s.sillCtlWrite v
  else if off = 0x20008 then s.sillLimWrite v
  else if off = 0x33000 then
    let s1 := s.perfFreeze (bit v 31)
    if bit v 30 then s1.perfClear else s1
  else if 0x33100 ≤ off ∧ off < 0x33180 ∧ off % 0x20 = 0 then s.smpHead ((off - 0x33100) / 0x20) (v % 65536)
  else if 0x40000 ≤ off ∧ off < 0x44000 then s.ringWrite ((off - 0x40000) / 0x40) ((off - 0x40000) / 0x40) (off % 0x40) v
  else if 0x44000 ≤ off ∧ off < 0x44800 ∧ off % 0x20 = 0 then s.modCh ((off - 0x44000) / 0x20) (fun x => { x with stop := bit v 0 })
  else if off = 0x60000 then s.wardCtlWrite v
  else if off = 0x60008 then s.wardCommitWrite (v / 2 ^ 32 % 2 ^ 32) (bit v 0)
  else s.sqcWrite off v

/-- A write of BAR0 (R507). -/
def State.regWrite (s : State) (off width val : Nat) : State :=
  match holding s.reg off with
  | none => s
  | some r => if writeIgnored r off width then s.badAccess else s.regPut off (val % 2 ^ (8 * width))

/-- A register of a slice page written. -/
def State.pagePut (s : State) (sl off v : Nat) : State :=
  let doorbell := fun (r : Res) => match r with | .next t => t | _ => s
  if off = 0x10 then doorbell (execSchReqDb sl (v % 65536) s)
  else if off = 0x14 then doorbell (execSchRepDb sl (v % 65536) s)
  else if 0x100 ≤ off ∧ off < 0x500 then
    (match s.slotRing sl ((off - 0x100) / 0x40) with
    | some n => s.ringWrite n (s.ring n).cq ((off - 0x100) % 0x40) v
    | none => s)
  else s

/-- A write of a slice page through a port: only live pages take it (R424, R507). -/
def State.pageWrite (s : State) (port off width val : Nat) : State :=
  let sl := off / 0x1000
  let o := off % 0x1000
  let main := s.primary == some port
  let live := main || (match s.slice sl with | some x => s.hostPort x.host == some port | none => false)
  if ¬ live ∨ 512 ≤ sl then s
  else
    let m := fun a => s.pageReg sl a main
    match holding m o with
    | none => s
    | some r => if writeIgnored r o width then s.badAccess else s.pagePut sl o (val % 2 ^ (8 * width))

/-! ### The commands -/

/-- The AON die answers: REG_GET, REG_SET and D6 registers can be used. -/
def State.d6Up (s : State) : Bool := s.glob.pstate != .off && s.glob.pstate != .moduleReset

/-- A register of an offset is held where it can be reached now: D6, or the running switch dies (R464). -/
def State.regUp (s : State) (off : Nat) : Bool := s.running || (s.d6Up && decide (off < 0x30000))

/-- GLOBAL_LOCK_WRITE (R511). -/
def execGlobalLockWrite (val : Nat) (s : State) : Res := evt s.d6Up (fun s => s.lockWrite val) s

/-- SEQUENCE_CLEAR (R515 to R517). -/
def execSequenceClear (off val : Nat) (s : State) : Res := evt (s.regUp off) (fun s => s.sqcWrite off val) s

/-- REGISTER_WRITE (R424, R505 to R514): a write through BAR0 of the PRIMARY port, or through BAR2 of an upstream port. -/
def execRegisterWrite (bar2 : Bool) (port off width val : Nat) (s : State) : Res :=
  evt (s.running && s.isUp port && (s.port port).up && (bar2 || s.primary == some port))
    (fun s => if bar2 then s.pageWrite port off width val else s.regWrite off width val) s

/-- The voted fields of TV_READ by number: 0 GLOBAL_LOCK, 1 BIND_ROOT, 2 SILL_CTL, 3 SILL_LIMITS, 4 WARD_CTL,
5 WARD_COMMIT.TARGET, 6 + 2 die + bank the roots of the replica banks. -/
def tvField (n : Nat) : List Nat :=
  if n < 4 then [n] else if n = 4 then [4, 5] else if n = 5 then [6, 7] else if n < 10 then [n + 2] else []

/-- TV_READ (R15, R519). -/
def execTvRead (field : Nat) (s : State) : Res :=
  evt (s.running || (s.d6Up && decide (field < 4))) (fun s => s.tvFixAll (tvField field)) s

/-- VOTE_PASS (R519): every voted field is voted. -/
def execVotePass (s : State) : Res := evt s.d6Up (fun s => s.tvFixAll tvAll) s

/-- COUNTER_LOW_READ (R528). -/
def execCounterLowRead (requester off : Nat) (s : State) : Res :=
  evt (s.regUp off && isCounter off) (fun s => (s.regRead requester off 4).1) s

/-- Requester number of a mailbox session, apart from those of BAR0 reads. -/
def mbxRequester (f : Frame) : Nat := 2 ^ 32 + f.sid

/-- The checks of REG_GET and REG_SET (R464, R506). -/
def State.regCheck (s : State) (off width : Nat) : Option Nat :=
  checks [(decide (2 ^ 20 ≤ off) || ! [1, 2, 4, 8].contains width, rcParam), (! s.regUp off, rcNotReady)]

/-- REG_GET (R506 to R508). -/
def execRegGet (f : Frame) (off width : Nat) (s : State) : Res :=
  command 0xC120 f (.regGet f off width) (fun s => s.regCheck off width)
    (fun s => let r := s.regRead (mbxRequester f) off width; (r.1, rcOk, [r.2])) s

/-- REG_SET (R506, R507). -/
def execRegSet (f : Frame) (off width val : Nat) (s : State) : Res :=
  command 0xC121 f (.regSet f off width val) (fun s => s.regCheck off width)
    (fun s => (s.regWrite off width val, rcOk, [])) s

end Sys2Proof.Machine
end

