-- ==== Sys2Proof/Machine/PerfCmd.lean ====
section
/-! DEFINITION. PERF group, PERF_CTL, the overflow message and the sample records (chapter 11). -/
namespace Sys2Proof.Machine

/-! ### Selectors (R524, R525, Table 11.10) -/

/-- An event of scope P. -/
def portEvt (ev : Nat) : Bool := (decide (1 ≤ ev) && decide (ev ≤ 0x0E)) || (decide (0x10 ≤ ev) && decide (ev ≤ 0x17))

/-- Number of units of an event's scope, none for a reserved code. -/
def evtUnits (ev : Nat) : Option Nat :=
  if portEvt ev then some 64
  else if 0x40 ≤ ev ∧ ev ≤ 0x4C then some 32
  else if 0x50 ≤ ev ∧ ev ≤ 0x52 then some 4
  else if 0x58 ≤ ev ∧ ev ≤ 0x5A then some 8
  else if 0x60 ≤ ev ∧ ev ≤ 0x65 then some 8
  else if 0x70 ≤ ev ∧ ev ≤ 0x73 then some 2
  else if ev = 0x7F then some 256
  else none

/-- A selector is valid for a counter's scope and names a unit in range. -/
def State.selOk (s : State) (glb : Bool) (port sel : Nat) : Bool :=
  let ev := bits sel 7 0
  let unit := bits sel 23 16
  if glb then (match evtUnits ev with | some n => decide (unit < n) || unit == 0xFF | none => false)
  else portEvt ev && (decide (ev < 0x10 ∨ 0x13 < ev) || s.isDown port)

/-- Key of the programmable counter a command names. -/
def perfKey (glb : Bool) (port idx : Nat) : Nat := if glb then 512 + idx else 8 * port + 4 + idx

/-- The counter a command names exists. -/
def State.perfNamed (s : State) (glb : Bool) (port idx : Nat) : Option Nat :=
  if glb then (if 15 < idx then some rcParam else none)
  else checks [(decide (3 < idx) || decide (63 < port), rcParam), (! s.isPort port, rcNotFound)]

/-- PERF_CNT_SET (R524, R527): reserved bits of the selector are discarded (R13). -/
def execPerfCntSet (f : Frame) (glb : Bool) (port idx : Nat) (sel : Reg32) (preload : Option Nat) (clrOvf : Bool) (s : State) : Res :=
  command 0xCE01 f (.perfCntSet f glb port idx sel preload clrOvf)
    (fun s => (s.perfNamed glb port idx).orElse (fun _ =>
      checks [(! s.selOk glb port sel.toNat || preload.any (fun n => decide (2 ^ 48 ≤ n)), rcParam)]))
    (fun s =>
      let k := perfKey glb port idx
      let c := Tbl.get ({} : Cnt) s.perf.cnt k
      let c1 : Cnt := { count := (preload.map (BitVec.ofNat 48)).getD c.count, ovf := c.ovf && ! clrOvf }
      ({ s with perf := { s.perf with sel := Tbl.set selReset s.perf.sel k (sel &&& 0xFFFF00FF), cnt := Tbl.set {} s.perf.cnt k c1 } }, rcOk, [])) s

/-- PERF_CNT_GET (R537): the counter and its selector, and the top-down counters of a port. -/
def execPerfCntGet (f : Frame) (glb : Bool) (port idx : Nat) (s : State) : Res :=
  query 0xCE02 f (.perfCntGet f glb port idx) (fun s => s.perfNamed glb port idx)
    (fun s =>
      let c := fun k => (Tbl.get ({} : Cnt) s.perf.cnt k).read
      [c (perfKey glb port idx), s.sel (perfKey glb port idx)] ++ (if glb then [] else (List.range 4).map (fun i => c (8 * port + i)))) s

/-- PERF_OVF_SET (R530, Table 11.12): a message that waits is not sent once the interrupt is disabled. -/
def execPerfOvfSet (f : Frame) (en : Bool) (vec : Nat) (s : State) : Res :=
  command 0xCE04 f (.perfOvfSet f en vec) (fun _ => if 2047 < vec then some rcParam else none)
    (fun s => ({ s with perf := { s.perf with ovfEn := en, ovfVec := vec, ovfPend := en && s.perf.ovfPend } }, rcOk, [])) s

/-! ### Samplers (R532 to R536) -/

/-- A sampler as PERF_SAMPLE_SET describes it: EN, ring address, m, vector, IRQ_LOG2, point, class mask, opcode,
first and last FPA, slice, LOG2N. -/
def smpOf (c : List Nat) : Sampler :=
  let g := fun i => c.getD i 0
  { en := g 0 != 0, base := g 1, log2 := g 2, vec := g 3, irqLog2 := g 4, point := g 5, classes := g 6, opcode := g 7, lo := g 8, hi := g 9, slice := g 10, log2n := g 11 }

/-- A sampler's setting is one R532 describes. -/
def Sampler.ok (x : Sampler) : Bool :=
  x.base % 4096 == 0 && decide (x.base < 2 ^ 64) && decide (6 ≤ x.log2) && decide (x.log2 ≤ 16) && decide (x.vec ≤ 2047) && decide (x.irqLog2 ≤ 16)
    && decide (x.point < 0x68) && (x.classes &&& 0x13) == x.classes && decide (x.opcode ≤ 0x1F)
    && decide (x.lo ≤ x.hi) && decide (x.hi < 2 ^ 52) && decide (x.slice ≤ 0x1FF) && decide (x.log2n ≤ 20)

/-- What PERF_SAMPLE_SET sets of a sampler, apart from EN. -/
def Sampler.setting (x : Sampler) : Sampler :=
  { en := true, base := x.base, log2 := x.log2, vec := x.vec, irqLog2 := x.irqLog2, point := x.point, classes := x.classes, opcode := x.opcode, lo := x.lo, hi := x.hi, slice := x.slice, log2n := x.log2n }

/-- PERF_SAMPLE_SET (R532, R535): a setting of EN starts the ring and its counts anew. -/
def execPerfSampleSet (f : Frame) (idx : Nat) (cfg : List Nat) (s : State) : Res :=
  command 0xCE03 f (.perfSampleSet f idx cfg)
    (fun s =>
      let x := Tbl.get ({} : Sampler) s.perf.smp idx
      checks
        [(decide (3 < idx) || cfg.length != 12 || ! (smpOf cfg).ok, rcParam),
         (x.en && (smpOf cfg).setting != x.setting, rcBusy)])
    (fun s =>
      let x := Tbl.get ({} : Sampler) s.perf.smp idx
      let y := smpOf cfg
      let z : Sampler := if x.en then { x with en := y.en } else if y.en then { y with sel := x.sel, ended := x.ended }
        else { y with sel := x.sel, ended := x.ended, tail := x.tail, head := x.head, used := x.used, phase := x.phase, lost := x.lost, lostSince := x.lostSince, written := x.written }
      ({ s with perf := { s.perf with smp := Tbl.set {} s.perf.smp idx z } }, rcOk, [])) s

/-- A sample record (Table 11.11); `ns` is the latency of R533, whose clocks the model's ticks do not resolve (log 9). -/
def recordOf (x : Sampler) (t : SampSel) (ns : Nat) : Nat :=
  b2n x.phase * 2 ^ 255 + x.lostSince % 2 ^ 15 * 2 ^ 240 + t.src % 128 * 2 ^ 233 + t.server % 128 * 2 ^ 226 + t.op % 32 * 2 ^ 221 + t.cls % 8 * 2 ^ 218
    + t.slice % 512 * 2 ^ 209 + b2n t.remote * 2 ^ 208 + b2n t.rlc * 2 ^ 207 + b2n t.alc * 2 ^ 206 + b2n t.snooped * 2 ^ 205 + b2n t.queued * 2 ^ 204 + t.outcome % 16 * 2 ^ 200
    + min ns (2 ^ 32 - 1) * 2 ^ 160 + t.addr % 2 ^ 52 * 2 ^ 108 + t.time % 2 ^ 64

/-- A record is lost (R536). -/
def State.smpLose (s : State) (idx : Nat) (x : Sampler) : State :=
  let y := { x with lost := min (x.lost + 1) (2 ^ 30 - 1), lostSince := min (x.lostSince + 1) 32767 }
  { s with perf := { s.perf with smp := Tbl.set {} s.perf.smp idx y, event := s.perf.event.raise 22 (BitVec.ofNat 32 (idx % 4 * 2 ^ 10)) 0x00000C00 } }

/-- A record is written at TAIL, and the sampler's message sent where due (R532, R534). -/
def State.smpWrite (s : State) (idx : Nat) (x : Sampler) (t : SampSel) (ns : Nat) : State :=
  let s1 := s.emit (.hostWr (x.base + 32 * x.tail) 32 (recordOf x t ns))
  let tl := (x.tail + 1) % 2 ^ x.log2
  let y := { x with tail := tl, phase := if tl = 0 then ! x.phase else x.phase, used := x.used + 1, lostSince := 0, written := x.written + 1 }
  let s2 : State := { s1 with perf := { s1.perf with smp := Tbl.set {} s1.perf.smp idx y } }
  if y.written % 2 ^ x.irqLog2 = 0 then (match s2.primary with | some p => s2.emit (.msix p x.vec) | none => s2) else s2

/-- SAMPLE_RECORD (R533 to R536): the record of the selected transaction that completed first and has none is written, or lost
where the ring has no free entry. -/
def execSampleRecord (idx ns : Nat) (s : State) : Res :=
  let x := Tbl.get ({} : Sampler) s.perf.smp idx
  evt (s.running && decide (idx < 4) && ! x.ended.isEmpty) (fun s =>
    match x.ended with
    | [] => s
    | t :: rest =>
      let y := { x with ended := rest }
      if 2 ^ x.log2 ≤ x.used then s.smpLose idx y else s.smpWrite idx y t ns) s

/-- PERF_SMP_HEAD (R534). -/
def execPerfSmpHead (idx head : Nat) (s : State) : Res := evt (s.running && decide (idx < 4)) (fun s => s.smpHead idx (head % 65536)) s

/-! ### PERF_CTL and the overflow message (R520, R529, R530) -/

/-- PERF_CTL_FREEZE (R529). -/
def execPerfCtlFreeze (freeze : Bool) (s : State) : Res := evt s.running (fun s => s.perfFreeze freeze) s

/-- PERF_CTL_CLEAR (R520). -/
def execPerfCtlClear (s : State) : Res := evt s.running (fun s => s.perfClear) s

/-- OVERFLOW_MESSAGE (R530, R531): the message that waited for the end of its microsecond is sent if
PERF_EVENT.OVF is still set, for the newest wrapped counter. -/
def execOverflowMessage (s : State) : Res :=
  evt (s.running && s.perf.ovfPend && s.perf.ovfLast.all (fun t => decide (t + usTicks 1 ≤ s.now))) (fun s =>
    if s.perf.event.has 23 ∧ s.perf.ovfEn then s.ovfSend (bits s.perf.event.val.toNat 21 12)
    else { s with perf := { s.perf with ovfPend := false } }) s

end Sys2Proof.Machine
end

