-- ==== Sys2Proof/Machine/ThermCmd.lean ====
section
/-! DEFINITION. Thermal sensors, alarms and comparators, and the test access port (chapter 14). -/
namespace Sys2Proof.Machine

/-- Sensor group of a sensor: 0 switch dies, 1 SRAM stacks, 2 supervisor die; the lid has none (R640). -/
def sensorGroup (n : Nat) : Option Nat :=
  if n ≤ 9 then some 0 else if n ≤ 13 then some 1 else if n = 14 then some 2 else none

/-- Location of a sensor (Table 14.11). -/
def State.sensorLoc (s : State) (n : Nat) : Loc :=
  if n ≤ 3 then s.quadLoc n else if n = 4 then s.dieLoc 0 else if n ≤ 8 then s.quadLoc (n - 1) else if n = 9 then s.dieLoc 1
  else if n ≤ 13 then s.dieLoc (n - 8) else if n = 14 then s.dieLoc 6 else mkLoc s.pk 15 15 15 255

/-- WARN or CRIT of a group, degrees (R640). -/
def State.threshold (s : State) (crit : Bool) (g : Nat) : Nat := if crit then Tbl.get 120 s.therm.crit g else Tbl.get 115 s.therm.warn g

/-- One threshold of one sensor after an update: raised on rising through it, re-armed 3 degrees below (R641). -/
def State.alarm (s : State) (n g : Nat) (r : Int) (crit : Bool) : State :=
  let t : Int := 4 * s.threshold crit g
  let i := 2 * n + b2n crit
  if s.therm.raised.contains i then
    if r + 12 ≤ t then { s with therm := { s.therm with raised := dropOf i s.therm.raised } } else s
  else if t ≤ r then
    ({ s with therm := { s.therm with raised := s.therm.raised ++ [i] } }).fault (if crit then 0x0702 else 0x0701) (s.sensorLoc n) 0xFF
  else s

/-- The die of a sensor is powered (R638): D6 and the lid always, the others from READY on. -/
def State.sensorOn (s : State) (n : Nat) : Bool := decide (14 ≤ n) || s.running

/-- THERMAL_SENSOR_UPDATE (R638, R641, R643). A sensor held after THERM_SENSOR keeps 0x8000. -/
def execThermalSensorUpdate (readings : List Nat) (s : State) : Res :=
  evt (s.glob.pstate != .off && readings.length == 16) (fun s =>
    let s1 := readings.zipIdx.foldl (fun (s : State) x =>
      let n := x.2
      if s.therm.bad.contains n ∨ ¬ s.sensorOn n then { s with therm := { s.therm with reading := Tbl.set 0x8000 s.therm.reading n 0x8000 } }
      else
        let r := x.1 % 0x10000
        let s2 : State := { s with therm := { s.therm with reading := Tbl.set 0x8000 s.therm.reading n r } }
        match sensorGroup n with
        | some g => if r = 0x8000 then s2 else (s2.alarm n g (tempOf r) false).alarm n g (tempOf r) true
        | none => s2) s
    if s1.hot 14 then s1
    else { s1 with svc := { s1.svc with thermHold := dropOf 6 s1.svc.thermHold }, therm := { s1.therm with tripped := dropOf 6 s1.therm.tripped } }) s

/-- DIE_THERMAL (R642): the report is made, then hardware stops the die, or the module for D6. -/
def execDieThermal (die : Nat) (s : State) : Res :=
  evt (decide (die ≤ 6) && s.glob.pstate != .off && (die == 6 || s.running)) (fun s =>
    let s1 : State := { s with therm := { s.therm with tripped := addOnce die s.therm.tripped } }
    let s2 := (s1.fault 0x0406 (s.dieLoc die) 0xFF).settle
    if die = 6 then
      let s3 := s2.stopModule 2
      { s3 with sill := { s3.sill with pol := false } }
    else if s2.svc.stoppedDies.contains die ∨ s2.glob.pstate = .stopped then s2 else s2.stopDie die) s

/-- THERMAL_SET (R640). -/
def execThermalSet (f : Frame) (grp warn crit : Nat) (s : State) : Res :=
  command 0xCD05 f (.thermalSet f grp warn crit)
    (fun _ => if 2 < grp ∨ warn < 60 ∨ 120 < warn ∨ crit < 70 ∨ 122 < crit ∨ crit < warn + 2 then some rcParam else none)
    (fun s => ({ s with therm := { s.therm with warn := Tbl.set 115 s.therm.warn grp warn, crit := Tbl.set 120 s.therm.crit grp crit } }, rcOk, [])) s

/-- THERMAL_STATUS (R638): the sixteen readings, then the alarms raised. -/
def execThermalStatus (f : Frame) (s : State) : Res :=
  query 0xCD06 f (.thermalStatus f) (fun _ => none)
    (fun s => (List.range 16).map (fun n => Tbl.get 0x8000 s.therm.reading n) ++ [s.therm.raised.foldl (fun m i => m + 2 ^ i) 0]) s

/-! ### Test access port (R632, R633) -/

/-- Instructions that take effect on the pins: 4 EXTEST, 5 HIGHZ, 6 CLAMP, 7 EXTEST_PULSE, 8 EXTEST_TRAIN (0 BYPASS, 1 IDCODE, 2 SAMPLE, 3 PRELOAD). -/
def tapTest (op : Nat) : Bool := 4 ≤ op && op ≤ 8

/-- TAP_INSTRUCTION (R633): in ACTIVE a test instruction acts as BYPASS; one that replaces an effective test
instruction causes a MODULE reset. -/
def execTapInstruction (op : Nat) (s : State) : Res :=
  evt (s.glob.pstate != .off) (fun s =>
    let takes := tapTest op && (s.glob.pstate == .standby || s.glob.pstate == .ready)
    let s1 : State := { s with therm := { s.therm with tap := op % 16, tapLive := takes } }
    if s.therm.tapLive then s1.mrTrigger false else s1) s

/-- TEST_LOGIC_RESET (R633). -/
def execTestLogicReset (s : State) : Res :=
  evt (s.glob.pstate != .off) (fun s =>
    let s1 : State := { s with therm := { s.therm with tap := 0, tapLive := false } }
    if s.therm.tapLive then s1.mrTrigger false else s1) s

end Sys2Proof.Machine
end

