-- ==== Sys2Proof/Machine/Dispatch.lean ====
section
/-! DEFINITION. One arm per command, each a direct call of its meaning. -/
namespace Sys2Proof.Machine

def exec (i : Instr) (s : State) : Host.Outcome State Fault Refusal :=
  match i with
  | .openSession f role slice ksrc nc => Sys2Proof.Machine.execOpenSession f role slice ksrc nc s
  | .sessionAuth f sid proof => Sys2Proof.Machine.execSessionAuth f sid proof s
  | .closeSession f sid => Sys2Proof.Machine.execCloseSession f sid s
  | .sessionList f => Sys2Proof.Machine.execSessionList f s
  | .keySet f role key => Sys2Proof.Machine.execKeySet f role key s
  | .passwordSet f role key => Sys2Proof.Machine.execPasswordSet f role key s
  | .sessionSet f role secs => Sys2Proof.Machine.execSessionSet f role secs s
  | .sessionIdleTimeout sid => Sys2Proof.Machine.execSessionIdleTimeout sid s
  | .sessionAuthExpiry sid => Sys2Proof.Machine.execSessionAuthExpiry sid s
  | .lockoutExpiry role => Sys2Proof.Machine.execLockoutExpiry role s
  | .moduleIdentify f => Sys2Proof.Machine.execModuleIdentify f s
  | .moduleStatus f => Sys2Proof.Machine.execModuleStatus f s
  | .moduleSet f smbus vec notify alert edge => Sys2Proof.Machine.execModuleSet f smbus vec notify alert edge s
  | .moduleLock f mask => Sys2Proof.Machine.execModuleLock f mask s
  | .eventGet f ack seq => Sys2Proof.Machine.execEventGet f ack seq s
  | .opJournalGet f index count => Sys2Proof.Machine.execOpJournalGet f index count s
  | .opStatus f grp => Sys2Proof.Machine.execOpStatus f grp s
  | .opAbort f grp => Sys2Proof.Machine.execOpAbort f grp s
  | .moduleReset f => Sys2Proof.Machine.execModuleReset f s
  | .resetTarget f loc => Sys2Proof.Machine.execResetTarget f loc s
  | .resetStatus f => Sys2Proof.Machine.execResetStatus f s
  | .regGet f off width => Sys2Proof.Machine.execRegGet f off width s
  | .regSet f off width val => Sys2Proof.Machine.execRegSet f off width val s
  | .identifyV1 f => Sys2Proof.Machine.execIdentifyV1 f s
  | .sliceFreezeV1 f slice => Sys2Proof.Machine.execSliceFreezeV1 f slice s
  | .sliceSaveV1 f slice addr => Sys2Proof.Machine.execSliceSaveV1 f slice addr s
  | .sliceRestoreV1 f host pasid addr img => Sys2Proof.Machine.execSliceRestoreV1 f host pasid addr img s
  | .sliceThawV1 f slice => Sys2Proof.Machine.execSliceThawV1 f slice s
  | .mctpControl xport ep cmd arg => Sys2Proof.Machine.execMctpControl xport ep cmd arg s
  | .trunkMailboxFrame tp f opcode => Sys2Proof.Machine.execTrunkMailboxFrame tp f opcode s
  | .forwardResend tag => Sys2Proof.Machine.execForwardResend tag s
  | .portMapGet f => Sys2Proof.Machine.execPortMapGet f s
  | .portMapCommit f map => Sys2Proof.Machine.execPortMapCommit f map s
  | .portEnable f port => Sys2Proof.Machine.execPortEnable f port s
  | .portDisable f port => Sys2Proof.Machine.execPortDisable f port s
  | .portStatus f port => Sys2Proof.Machine.execPortStatus f port s
  | .portSet f port dsCpl dsFail usCpl aspm l0p contain => Sys2Proof.Machine.execPortSet f port dsCpl dsFail usCpl aspm l0p contain s
  | .portEqSet f loc wholePort val => Sys2Proof.Machine.execPortEqSet f loc wholePort val s
  | .portEqStatus f loc => Sys2Proof.Machine.execPortEqStatus f loc s
  | .portReset f port => Sys2Proof.Machine.execPortReset f port s
  | .portBlockRead f loc reg => Sys2Proof.Machine.execPortBlockRead f loc reg s
  | .portBlockWrite f loc reg val => Sys2Proof.Machine.execPortBlockWrite f loc reg val s
  | .partnerList f => Sys2Proof.Machine.execPartnerList f s
  | .partnerEventGet f count => Sys2Proof.Machine.execPartnerEventGet f count s
  | .partnerSet f port timer snoop autoAdd => Sys2Proof.Machine.execPartnerSet f port timer snoop autoAdd s
  | .partnerRelease f port => Sys2Proof.Machine.execPartnerRelease f port s
  | .evacuatePartner f port ch share stallPages maxPasses mask => Sys2Proof.Machine.execEvacuatePartner f port ch share stallPages maxPasses mask s
  | .evacPassDone e => Sys2Proof.Machine.execEvacPassDone e s
  | .evacStallDrained e => Sys2Proof.Machine.execEvacStallDrained e s
  | .evacFinalPassDone => Sys2Proof.Machine.execEvacFinalPassDone s
  | .evacStallGuard => Sys2Proof.Machine.execEvacStallGuard s
  | .bindAdd f host entries => Sys2Proof.Machine.execBindAdd f host entries s
  | .bindRelease f host entry force => Sys2Proof.Machine.execBindRelease f host entry force s
  | .bindTableGet f host => Sys2Proof.Machine.execBindTableGet f host s
  | .bindPassthru f d host bridge => Sys2Proof.Machine.execBindPassthru f d host bridge s
  | .addDynamicCapacityResponse host accepted declined => Sys2Proof.Machine.execAddDynamicCapacityResponse host accepted declined s
  | .dcAddTimeout host entry => Sys2Proof.Machine.execDcAddTimeout host entry s
  | .releaseDynamicCapacity host entry => Sys2Proof.Machine.execReleaseDynamicCapacity host entry s
  | .dcReleaseTimeout host entry => Sys2Proof.Machine.execDcReleaseTimeout host entry s
  | .bindingRemovalDone host entry => Sys2Proof.Machine.execBindingRemovalDone host entry s
  | .poolAddPartner f port => Sys2Proof.Machine.execPoolAddPartner f port s
  | .scrubDone ext => Sys2Proof.Machine.execScrubDone ext s
  | .poolStatus f => Sys2Proof.Machine.execPoolStatus f s
  | .poolExtentRevalidate f ext count => Sys2Proof.Machine.execPoolExtentRevalidate f ext count s
  | .poolExtentRelease f ext count => Sys2Proof.Machine.execPoolExtentRelease f ext count s
  | .poolAlloc f module count => Sys2Proof.Machine.execPoolAlloc f module count s
  | .poolSpillSet f base size high low en => Sys2Proof.Machine.execPoolSpillSet f base size high low en s
  | .sliceCreate f host pasid => Sys2Proof.Machine.execSliceCreate f host pasid s
  | .sliceSet f slice mask userCounters => Sys2Proof.Machine.execSliceSet f slice mask userCounters s
  | .sliceDestroy f slice => Sys2Proof.Machine.execSliceDestroy f slice s
  | .sliceStatus f slice => Sys2Proof.Machine.execSliceStatus f slice s
  | .sliceFreeze f slice => Sys2Proof.Machine.execSliceFreeze f slice s
  | .sliceThaw f slice => Sys2Proof.Machine.execSliceThaw f slice s
  | .sliceSave f slice owner addr => Sys2Proof.Machine.execSliceSave f slice owner addr s
  | .sliceRestore f host pasid addr chmap img => Sys2Proof.Machine.execSliceRestore f host pasid addr chmap img s
  | .sliceWindowSet f slice window area => Sys2Proof.Machine.execSliceWindowSet f slice window area s
  | .sliceChanSet f slice reqBase reqLog repBase repLog vec => Sys2Proof.Machine.execSliceChanSet f slice reqBase reqLog repBase repLog vec s
  | .sliceChanGet f slice => Sys2Proof.Machine.execSliceChanGet f slice s
  | .sliceChanPut f slice tag status len payload => Sys2Proof.Machine.execSliceChanPut f slice tag status len payload s
  | .logStart f slice owner buf0 buf1 => Sys2Proof.Machine.execLogStart f slice owner buf0 buf1 s
  | .logHarvest f slice zero rcl => Sys2Proof.Machine.execLogHarvest f slice zero rcl s
  | .logStop f slice => Sys2Proof.Machine.execLogStop f slice s
  | .sliceCounterClear f slice => Sys2Proof.Machine.execSliceCounterClear f slice s
  | .dmaChSet f ch slice prio share wdog => Sys2Proof.Machine.execDmaChSet f ch slice prio share wdog s
  | .dmaRingAssign f ring ch slot sqBase sqLog cq cqBase cqLog vec => Sys2Proof.Machine.execDmaRingAssign f ring ch slot sqBase sqLog cq cqBase cqLog vec s
  | .dmaRingRelease f ring => Sys2Proof.Machine.execDmaRingRelease f ring s
  | .dmaStatus f slice => Sys2Proof.Machine.execDmaStatus f slice s
  | .dmaAliasSet f win dfn => Sys2Proof.Machine.execDmaAliasSet f win dfn s
  | .dmaAliasStatus f win => Sys2Proof.Machine.execDmaAliasStatus f win s
  | .wardRegionSet f n r => Sys2Proof.Machine.execWardRegionSet f n r s
  | .wardRegionGet f n => Sys2Proof.Machine.execWardRegionGet f n s
  | .wardCutSet f device idx cut => Sys2Proof.Machine.execWardCutSet f device idx cut s
  | .wardCommit f target => Sys2Proof.Machine.execWardCommit f target s
  | .wardStatusGet f => Sys2Proof.Machine.execWardStatusGet f s
  | .shapeBktSet f agg slice bkt cfg => Sys2Proof.Machine.execShapeBktSet f agg slice bkt cfg s
  | .shapeBktGet f agg slice bkt => Sys2Proof.Machine.execShapeBktGet f agg slice bkt s
  | .shapeStatus f => Sys2Proof.Machine.execShapeStatus f s
  | .gateListSet f point ctl base entries => Sys2Proof.Machine.execGateListSet f point ctl base entries s
  | .gateCommit f point => Sys2Proof.Machine.execGateCommit f point s
  | .gateGet f point => Sys2Proof.Machine.execGateGet f point s
  | .gateTsyncSet f loss => Sys2Proof.Machine.execGateTsyncSet f loss s
  | .hierStatus f => Sys2Proof.Machine.execHierStatus f s
  | .hierKeySet f key => Sys2Proof.Machine.execHierKeySet f key s
  | .hierSet f rolePref autoAdmit meshTimeout trCpl => Sys2Proof.Machine.execHierSet f rolePref autoAdmit meshTimeout trCpl s
  | .hierAdmit f serial => Sys2Proof.Machine.execHierAdmit f serial s
  | .hierRemove f idx => Sys2Proof.Machine.execHierRemove f idx s
  | .hierRemoveStepDone => Sys2Proof.Machine.execHierRemoveStepDone s
  | .hierForget f idx => Sys2Proof.Machine.execHierForget f idx s
  | .hierTrunkDisable f tp => Sys2Proof.Machine.execHierTrunkDisable f tp s
  | .hierTrunkEnable f tp => Sys2Proof.Machine.execHierTrunkEnable f tp s
  | .faultLogGet f fromSeq count => Sys2Proof.Machine.execFaultLogGet f fromSeq count s
  | .faultStatus f => Sys2Proof.Machine.execFaultStatus f s
  | .faultReactionSet f byClass code pat action irq idx del => Sys2Proof.Machine.execFaultReactionSet f byClass code pat action irq idx del s
  | .reactionDryrun f byClass code loc => Sys2Proof.Machine.execReactionDryrun f byClass code loc s
  | .faultLogClear f => Sys2Proof.Machine.execFaultLogClear f s
  | .aliveSet f hz => Sys2Proof.Machine.execAliveSet f hz s
  | .powerStatus f => Sys2Proof.Machine.execPowerStatus f s
  | .powerSet f ctl limits => Sys2Proof.Machine.execPowerSet f ctl limits s
  | .powerStateSet f target persist => Sys2Proof.Machine.execPowerStateSet f target persist s
  | .energyClear f => Sys2Proof.Machine.execEnergyClear f s
  | .thermalSet f grp warn crit => Sys2Proof.Machine.execThermalSet f grp warn crit s
  | .thermalStatus f => Sys2Proof.Machine.execThermalStatus f s
  | .perfCntSet f glb port idx sel preload clrOvf => Sys2Proof.Machine.execPerfCntSet f glb port idx sel preload clrOvf s
  | .perfCntGet f glb port idx => Sys2Proof.Machine.execPerfCntGet f glb port idx s
  | .perfSampleSet f idx cfg => Sys2Proof.Machine.execPerfSampleSet f idx cfg s
  | .perfOvfSet f en vec => Sys2Proof.Machine.execPerfOvfSet f en vec s
  | .fwInfo f => Sys2Proof.Machine.execFwInfo f s
  | .fwTransfer f off data => Sys2Proof.Machine.execFwTransfer f off data s
  | .fwVerify f => Sys2Proof.Machine.execFwVerify f s
  | .fwVerifyDone => Sys2Proof.Machine.execFwVerifyDone s
  | .fwActivate f resetNow => Sys2Proof.Machine.execFwActivate f resetNow s
  | .dmaSqDb ring tail => Sys2Proof.Machine.execDmaSqDb ring tail s
  | .dmaCqDb ring head => Sys2Proof.Machine.execDmaCqDb ring head s
  | .dmaRingCtlEn ring en => Sys2Proof.Machine.execDmaRingCtlEn ring en s
  | .dmaRingCtlAbort ring => Sys2Proof.Machine.execDmaRingCtlAbort ring s
  | .chStop ch stop => Sys2Proof.Machine.execChStop ch stop s
  | .schReqDb slice tail => Sys2Proof.Machine.execSchReqDb slice tail s
  | .schRepDb slice head => Sys2Proof.Machine.execSchRepDb slice head s
  | .wardCommitGo target go => Sys2Proof.Machine.execWardCommitGo target go s
  | .globalLockWrite val => Sys2Proof.Machine.execGlobalLockWrite val s
  | .perfCtlFreeze freeze => Sys2Proof.Machine.execPerfCtlFreeze freeze s
  | .perfCtlClear => Sys2Proof.Machine.execPerfCtlClear s
  | .perfSmpHead idx head => Sys2Proof.Machine.execPerfSmpHead idx head s
  | .sequenceClear off val => Sys2Proof.Machine.execSequenceClear off val s
  | .sillCtlEn en => Sys2Proof.Machine.execSillCtlEn en s
  | .registerWrite bar2 port off width val => Sys2Proof.Machine.execRegisterWrite bar2 port off width val s
  | .tvRead field => Sys2Proof.Machine.execTvRead field s
  | .votePass => Sys2Proof.Machine.execVotePass s
  | .counterLowRead requester off => Sys2Proof.Machine.execCounterLowRead requester off s
  | .coreWake => Sys2Proof.Machine.execCoreWake s
  | .coreHalt => Sys2Proof.Machine.execCoreHalt s
  | .coreWdog => Sys2Proof.Machine.execCoreWdog s
  | .corePllLock die => Sys2Proof.Machine.execCorePllLock die s
  | .planeIdleGate plane => Sys2Proof.Machine.execPlaneIdleGate plane s
  | .planeUngate plane => Sys2Proof.Machine.execPlaneUngate plane s
  | .rstNLow => Sys2Proof.Machine.execRstNLow s
  | .rstNRelease => Sys2Proof.Machine.execRstNRelease s
  | .moduleResetCoreReset => Sys2Proof.Machine.execModuleResetCoreReset s
  | .moduleResetRelease => Sys2Proof.Machine.execModuleResetRelease s
  | .moduleResetReady => Sys2Proof.Machine.execModuleResetReady s
  | .sliceDrainDone ks => Sys2Proof.Machine.execSliceDrainDone ks s
  | .resetDone loc => Sys2Proof.Machine.execResetDone loc s
  | .rds r => Sys2Proof.Machine.execRds r s
  | .rdx r => Sys2Proof.Machine.execRdx r s
  | .upg r => Sys2Proof.Machine.execUpg r s
  | .wrinvfull r => Sys2Proof.Machine.execWrinvfull r s
  | .wrinvpart r => Sys2Proof.Machine.execWrinvpart r s
  | .atomop r record nextRec => Sys2Proof.Machine.execAtomop r record nextRec s
  | .evict r => Sys2Proof.Machine.execEvict r s
  | .wbdata m => Sys2Proof.Machine.execWbdata m s
  | .snpinv m => Sys2Proof.Machine.execSnpinv m s
  | .snpshr m => Sys2Proof.Machine.execSnpshr m s
  | .snpdata m => Sys2Proof.Machine.execSnpdata m s
  | .birecall m => Sys2Proof.Machine.execBirecall m s
  | .rspi m => Sys2Proof.Machine.execRspi m s
  | .rsps m => Sys2Proof.Machine.execRsps m s
  | .rspo m => Sys2Proof.Machine.execRspo m s
  | .rspwbpend m => Sys2Proof.Machine.execRspwbpend m s
  | .cmp m => Sys2Proof.Machine.execCmp m s
  | .cmppoison m => Sys2Proof.Machine.execCmppoison m s
  | .datas m => Sys2Proof.Machine.execDatas m s
  | .datae m => Sys2Proof.Machine.execDatae m s
  | .datam m => Sys2Proof.Machine.execDatam m s
  | .datao m => Sys2Proof.Machine.execDatao m s
  | .conflictQueueResume ks fpa => Sys2Proof.Machine.execConflictQueueResume ks fpa s
  | .snoopTimeout fpa holder => Sys2Proof.Machine.execSnoopTimeout fpa holder s
  | .postingWindowWrite h => Sys2Proof.Machine.execPostingWindowWrite h s
  | .m2sReq h => Sys2Proof.Machine.execM2sReq h s
  | .m2sRwd h => Sys2Proof.Machine.execM2sRwd h s
  | .m2sBirsp port hoff b => Sys2Proof.Machine.execM2sBirsp port hoff b s
  | .biconflict port hoff => Sys2Proof.Machine.execBiconflict port hoff s
  | .d2hReq dev op r => Sys2Proof.Machine.execD2hReq dev op r s
  | .s2mDrs port fpa poison data => Sys2Proof.Machine.execS2mDrs port fpa poison data s
  | .s2mNdrCmp port fpa => Sys2Proof.Machine.execS2mNdrCmp port fpa s
  | .passthruMemRequest d pasid addr len write data => Sys2Proof.Machine.execPassthruMemRequest d pasid addr len write data s
  | .cxlioTlp d fromHost tlp => Sys2Proof.Machine.execCxlioTlp d fromHost tlp s
  | .reseqHole src dst cls => Sys2Proof.Machine.execReseqHole src dst cls s
  | .spillReadBack point => Sys2Proof.Machine.execSpillReadBack point s
  | .arbRequest port req write units => Sys2Proof.Machine.execArbRequest port req write units s
  | .arbGrant port => Sys2Proof.Machine.execArbGrant port s
  | .arbHandoffDone port => Sys2Proof.Machine.execArbHandoffDone port s
  | .arbHold port => Sys2Proof.Machine.execArbHold port s
  | .arbMask port req => Sys2Proof.Machine.execArbMask port req s
  | .arbUnmask port req => Sys2Proof.Machine.execArbUnmask port req s
  | .arbParkTimeout port req => Sys2Proof.Machine.execArbParkTimeout port req s
  | .perstNLow grp => Sys2Proof.Machine.execPerstNLow grp s
  | .perstNRelease grp => Sys2Proof.Machine.execPerstNRelease grp s
  | .perstReleaseTimer grp => Sys2Proof.Machine.execPerstReleaseTimer grp s
  | .refclkStable k => Sys2Proof.Machine.execRefclkStable k s
  | .receiverDetect port found => Sys2Proof.Machine.execReceiverDetect port found s
  | .linkUp port lanes rate pid => Sys2Proof.Machine.execLinkUp port lanes rate pid s
  | .ideEstablished port => Sys2Proof.Machine.execIdeEstablished port s
  | .memoryActive port capacity => Sys2Proof.Machine.execMemoryActive port capacity s
  | .arrive port => Sys2Proof.Machine.execArrive port s
  | .spdmSessionComplete port cert lastTick => Sys2Proof.Machine.execSpdmSessionComplete port cert lastTick s
  | .linkDown port cause => Sys2Proof.Machine.execLinkDown port cause s
  | .linkLevelReset port => Sys2Proof.Machine.execLinkLevelReset port s
  | .ideIntegrityFailure port => Sys2Proof.Machine.execIdeIntegrityFailure port s
  | .departureSweepDone port => Sys2Proof.Machine.execDepartureSweepDone port s
  | .departureTimerExpiry port => Sys2Proof.Machine.execDepartureTimerExpiry port s
  | .dsCplTimeout port fpa => Sys2Proof.Machine.execDsCplTimeout port fpa s
  | .usCplTimeout port fpa => Sys2Proof.Machine.execUsCplTimeout port fpa s
  | .trCplTimeout fpa src => Sys2Proof.Machine.execTrCplTimeout fpa src s
  | .refclkLoss k => Sys2Proof.Machine.execRefclkLoss k s
  | .refclkReturn k => Sys2Proof.Machine.execRefclkReturn k s
  | .trunkTrainDone tp precode => Sys2Proof.Machine.execTrunkTrainDone tp precode s
  | .trunkTrainTimeout tp => Sys2Proof.Machine.execTrunkTrainTimeout tp s
  | .trunkAlignDone a => Sys2Proof.Machine.execTrunkAlignDone a s
  | .laneMarker tp lane mcrcOk logical mcount midx => Sys2Proof.Machine.execLaneMarker tp lane mcrcOk logical mcount midx s
  | .initCredit tp serial idx role counts => Sys2Proof.Machine.execInitCredit tp serial idx role counts s
  | .authChal tp nonce => Sys2Proof.Machine.execAuthChal tp nonce s
  | .authResp tp hmac => Sys2Proof.Machine.execAuthResp tp hmac s
  | .authFailRetry tp => Sys2Proof.Machine.execAuthFailRetry tp s
  | .payloadFlit fl msg => Sys2Proof.Machine.execPayloadFlit fl msg s
  | .nullFlit x => Sys2Proof.Machine.execNullFlit x s
  | .replayReq tp seq => Sys2Proof.Machine.execReplayReq tp seq s
  | .replayTimeout tp => Sys2Proof.Machine.execReplayTimeout tp s
  | .resume tp linkId seq counts lastTick => Sys2Proof.Machine.execResume tp linkId seq counts lastTick s
  | .linkSleep tp cause => Sys2Proof.Machine.execLinkSleep tp cause s
  | .leave tp idx => Sys2Proof.Machine.execLeave tp idx s
  | .reset tp idx => Sys2Proof.Machine.execReset tp idx s
  | .sleep1Codeword tp => Sys2Proof.Machine.execSleep1Codeword tp s
  | .tl1IdleEntry tp => Sys2Proof.Machine.execTl1IdleEntry tp s
  | .wakeSequence tp => Sys2Proof.Machine.execWakeSequence tp s
  | .wakeLockTimeout tp => Sys2Proof.Machine.execWakeLockTimeout tp s
  | .errorWindowEval tp => Sys2Proof.Machine.execErrorWindowEval tp s
  | .cdrLoss tp lane => Sys2Proof.Machine.execCdrLoss tp lane s
  | .trefclkLoss die => Sys2Proof.Machine.execTrefclkLoss die s
  | .linkHoldExpiry tp => Sys2Proof.Machine.execLinkHoldExpiry tp s
  | .managerDeclare => Sys2Proof.Machine.execManagerDeclare s
  | .hierarchyControl tp m => Sys2Proof.Machine.execHierarchyControl tp m s
  | .meshComplete => Sys2Proof.Machine.execMeshComplete s
  | .meshTimeout => Sys2Proof.Machine.execMeshTimeout s
  | .joinRetry => Sys2Proof.Machine.execJoinRetry s
  | .descriptorFetch ch ring fetch => Sys2Proof.Machine.execDescriptorFetch ch ring fetch s
  | .descriptorBegin ch => Sys2Proof.Machine.execDescriptorBegin ch s
  | .nop ch => Sys2Proof.Machine.execNop ch s
  | .copy ch => Sys2Proof.Machine.execCopy ch s
  | .fill ch => Sys2Proof.Machine.execFill ch s
  | .check ch => Sys2Proof.Machine.execCheck ch s
  | .atomic ch => Sys2Proof.Machine.execAtomic ch s
  | .flip ch => Sys2Proof.Machine.execFlip ch s
  | .fence ch => Sys2Proof.Machine.execFence ch s
  | .burstBegin ch => Sys2Proof.Machine.execBurstBegin ch s
  | .descriptorComplete ch => Sys2Proof.Machine.execDescriptorComplete ch s
  | .drainDone ring => Sys2Proof.Machine.execDrainDone ring s
  | .dreqEdge n => Sys2Proof.Machine.execDreqEdge n s
  | .dmaWatchdog ch => Sys2Proof.Machine.execDmaWatchdog ch s
  | .flipPrepare win => Sys2Proof.Machine.execFlipPrepare win s
  | .flipCommit win => Sys2Proof.Machine.execFlipCommit win s
  | .flipDrainDone win => Sys2Proof.Machine.execFlipDrainDone win s
  | .flipSweepDone win => Sys2Proof.Machine.execFlipSweepDone win s
  | .chargeProceed agg slice bkt => Sys2Proof.Machine.execChargeProceed agg slice bkt s
  | .shapingQueueEntry port => Sys2Proof.Machine.execShapingQueueEntry port s
  | .tsync => Sys2Proof.Machine.execTsync s
  | .tsyncLoss => Sys2Proof.Machine.execTsyncLoss s
  | .cycleStart point => Sys2Proof.Machine.execCycleStart point s
  | .gateEntry point => Sys2Proof.Machine.execGateEntry point s
  | .gateSwap point => Sys2Proof.Machine.execGateSwap point s
  | .sliceChannelRequest slice phase cls opcode tag len payload => Sys2Proof.Machine.execSliceChannelRequest slice phase cls opcode tag len payload s
  | .wardCommitCheck => Sys2Proof.Machine.execWardCommitCheck s
  | .wardSwitch => Sys2Proof.Machine.execWardSwitch s
  | .wardCopyDone => Sys2Proof.Machine.execWardCopyDone s
  | .faultReport code loc detail port => Sys2Proof.Machine.execFaultReport code loc detail port s
  | .wire loc source => Sys2Proof.Machine.execWire loc source s
  | .reactionWindowClose loc => Sys2Proof.Machine.execReactionWindowClose loc s
  | .overflowMessage => Sys2Proof.Machine.execOverflowMessage s
  | .sampleRecord idx ns => Sys2Proof.Machine.execSampleRecord idx ns s
  | .thermalSensorUpdate readings => Sys2Proof.Machine.execThermalSensorUpdate readings s
  | .dieThermal die => Sys2Proof.Machine.execDieThermal die s
  | .feedChange feedB st => Sys2Proof.Machine.execFeedChange feedB st s
  | .qualStart => Sys2Proof.Machine.execQualStart s
  | .qualDone => Sys2Proof.Machine.execQualDone s
  | .powerGood => Sys2Proof.Machine.execPowerGood s
  | .sillSoa => Sys2Proof.Machine.execSillSoa s
  | .sillFastTrip => Sys2Proof.Machine.execSillFastTrip s
  | .sillSlowTrip => Sys2Proof.Machine.execSillSlowTrip s
  | .coolEnd => Sys2Proof.Machine.execCoolEnd s
  | .retryReload => Sys2Proof.Machine.execRetryReload s
  | .sillOv => Sys2Proof.Machine.execSillOv s
  | .ovRecover => Sys2Proof.Machine.execOvRecover s
  | .bulkRecharge => Sys2Proof.Machine.execBulkRecharge s
  | .coldReset => Sys2Proof.Machine.execColdReset s
  | .coldRelease => Sys2Proof.Machine.execColdRelease s
  | .sillBrownout => Sys2Proof.Machine.execSillBrownout s
  | .brownoutSleep => Sys2Proof.Machine.execBrownoutSleep s
  | .pfwRelease => Sys2Proof.Machine.execPfwRelease s
  | .polStop => Sys2Proof.Machine.execPolStop s
  | .meterUpdate va vb vin vbulk ia ib iin ok => Sys2Proof.Machine.execMeterUpdate va vb vin vbulk ia ib iin ok s
  | .gpfRequest port => Sys2Proof.Machine.execGpfRequest port s
  | .selfTestDone pass => Sys2Proof.Machine.execSelfTestDone pass s
  | .startupReady => Sys2Proof.Machine.execStartupReady s
  | .tapInstruction op => Sys2Proof.Machine.execTapInstruction op s
  | .testLogicReset => Sys2Proof.Machine.execTestLogicReset s
  | .qualLeavesRange => Sys2Proof.Machine.execQualLeavesRange s
  | .bulkRechargeEnd => Sys2Proof.Machine.execBulkRechargeEnd s
  | .controlFlitRepeat tp => Sys2Proof.Machine.execControlFlitRepeat tp s
  | .forwardedReply tp tag rc data => Sys2Proof.Machine.execForwardedReply tp tag rc data s
  | .homeModuleRequest tp kind ext count => Sys2Proof.Machine.execHomeModuleRequest tp kind ext count s
  | .gpfCompletion port => Sys2Proof.Machine.execGpfCompletion port s
  | .memoryActiveTimeout port => Sys2Proof.Machine.execMemoryActiveTimeout port s
  | .linkL1Entry x => Sys2Proof.Machine.execLinkL1Entry x s
  | .linkL1Exit port => Sys2Proof.Machine.execLinkL1Exit port s
  | .cxlMemoryDeviceCommand port opcode => Sys2Proof.Machine.execCxlMemoryDeviceCommand port opcode s
  | .unsupportedOpcode f opcode => Sys2Proof.Machine.execUnsupportedOpcode f opcode s
  | .scrubPatrol die port => Sys2Proof.Machine.execScrubPatrol die port s

end Sys2Proof.Machine
end

