-- ==== Sys2Proof/Machine/Codeword.lean ====
section
/-! DEFINITION. What a trunk port's lanes carry: flits, messages, Reed-Solomon codewords and their striping, lane marker blocks, and the codewords sent in a tick (R275 to R278, R282 to R284). -/
namespace Sys2Proof.Machine

/-- Bytes as a number, the first the least significant (R9). -/
def leNat (b : List Byte) : Nat := b.foldr (fun x r => x.toNat + 256 * r) 0

/-! ### Flits and messages (Tables 6.7 and 6.8) -/

/-- CRC-16 of a flit's bytes, each byte's most significant bit first: polynomial 0x1021, initial value 0xFFFF (R282). -/
def crc16 (b : List Byte) : BitVec 16 :=
  b.foldl (fun r x => (List.range 8).foldl (fun (r : BitVec 16) i =>
    if r.getLsbD 15 != x.getLsbD (7 - i) then (r <<< 1) ^^^ 0x1021 else r <<< 1) r) 0xFFFF

/-- Bytes 0 to 5 of a flit: SEQ, ACK and the credit update of a counter at 2 class + kind. -/
def flitHead (seq ack crd count : Nat) : Nat :=
  seq % 4096 * 2 ^ 36 + ack % 4096 * 2 ^ 24 + crd / 2 % 8 * 2 ^ 21 + crd % 2 * 2 ^ 20 + count % 2 ^ 20

/-- A flit of 128 bytes: head, 120 bytes of payload, CRC-16. -/
def flitBytes (head : Nat) (payload : List Byte) : List Byte :=
  let b := leBytes 6 head ++ (payload ++ List.replicate 120 0).take 120
  b ++ leBytes 2 (crc16 b).toNat

/-- A message's 16-byte header (Table 6.8). -/
def msgHeader (m : TrunkMsg) : Nat :=
  m.addr % 2 ^ 52 * 2 ^ 64 + m.len % 64 * 2 ^ 48 + m.tag % 65536 * 2 ^ 32 + b2n m.dp * 2 ^ 30 + m.lmask % 16 * 2 ^ 26
    + b2n m.last * 2 ^ 25 + b2n m.first * 2 ^ 24 + b2n m.k * 2 ^ 23 + b2n m.nd * 2 ^ 22 + b2n m.nt * 2 ^ 21 + b2n m.poison * 2 ^ 20
    + (trunkSlots m - 2) * 2 ^ 16 + m.dstm % 16 * 2 ^ 12 + m.srcm % 16 * 2 ^ 8 + m.op % 32 * 2 ^ 3 + m.cls % 8

/-- A message's slots: its header and its extension slots, a partial write's byte mask before its line (Tables 6.8 and 6.9). -/
def msgSlots (m : TrunkMsg) : List Byte :=
  let ext := (if m.cls = 0 ∧ m.op = 4 then leBytes 8 m.mask.toNat else []) ++ leBytes 64 m.data.toNat
  (leBytes 16 (msgHeader m) ++ ext).take (8 * trunkSlots m)

/-- The payload of a flit that carries one message whole: its slots, then one-slot pads (R284). -/
def msgPayload (m : TrunkMsg) : List Byte :=
  msgSlots m ++ (List.range (15 - trunkSlots m)).flatMap (fun _ => leBytes 8 7)

/-! ### Codewords (R275 to R277) -/

/-- Multiplication by α in GF(2^10) with x^10 + x^3 + 1. -/
def gfTwice (a : Nat) : Nat := if 512 ≤ a then (2 * a) ^^^ 0x409 else 2 * a

/-- Product in GF(2^10). -/
def gfMul (a b : Nat) : Nat :=
  ((List.range 10).foldl (fun (r : Nat × Nat) i => (if bit b i then r.1 ^^^ r.2 else r.1, gfTwice r.2)) (0, a)).1

/-- Coefficients of the generator with roots α^0 to α^29, the highest power first. -/
def rsGen : List Nat :=
  ((List.range 30).foldl (fun (r : List Nat × Nat) _ =>
    (List.zipWith (· ^^^ ·) (r.1 ++ [0]) (0 :: r.1.map (gfMul r.2)), gfTwice r.2)) ([1], 1)).1

/-- Parity symbols of a message, whose symbol 0 is the coefficient of the highest power (R275, log 111). -/
def rsParity (msg : List Nat) : List Nat :=
  msg.foldl (fun rem m =>
    let k := m ^^^ rem.headD 0
    List.zipWith (· ^^^ ·) (rem.drop 1 ++ [0]) (rsGen.tail.map (gfMul k))) (List.replicate 30 0)

/-- A codeword's header: types of flits 4 to 0, IDLE and SLEEP1 (Table 6.4). -/
def codewordHeader (types : List Nat) (idle sleep1 : Bool) : Nat :=
  (types.zipIdx.map (fun y => y.1 % 4 * 2 ^ (10 + 2 * y.2))).sum + b2n idle * 2 ^ 9 + b2n sleep1 * 2 ^ 8

/-- A codeword's 514 message symbols: header, then five flits; bit m of the message belongs to symbol m / 10 (Table 6.3). -/
def codewordMsg (header : Nat) (flits : List (List Byte)) : List Nat :=
  let v := header + 2 ^ 20 * leNat (flits.flatMap id)
  (List.range 514).map (fun i => v / 2 ^ (10 * i) % 1024)

/-- A codeword: message and parity symbols (R275). -/
def codeword (header : Nat) (flits : List (List Byte)) : List Nat :=
  codewordMsg header flits ++ rsParity (codewordMsg header flits)

/-- The symbols of a codeword that travel on a logical lane: symbol i on lane i modulo 4 (R276). -/
def laneSymbols (cw : List Nat) (lane : Nat) : List Nat := (cw.zipIdx.filter (fun y => y.2 % 4 == lane)).map (fun y => y.1)

/-- The codeword that four received lanes spell, the physical lanes put at the logical lanes they carry (R276, R279). -/
def Trunk.joined (x : Trunk) (rx : Nat → List Nat) : List Nat :=
  let at_ := fun k => ([0, 1, 2, 3].find? (fun l => Tbl.find x.lanePos l == some k)).getD k
  (List.range 544).map (fun i => (rx (at_ (i % 4))).getD (i / 4) 0)

/-- A NULL flit of a sender now (Table 6.7). -/
def Trunk.nullFlit (x : Trunk) : List Byte :=
  flitBytes (flitHead x.seq x.ack x.crdPick (Tbl.get 0 x.ret x.crdPick)) []

/-- An IDLE codeword of a sender now: five NULL flits (R274, R277). -/
def Trunk.idleCodeword (x : Trunk) (sleep1 : Bool) : List Nat :=
  codeword (codewordHeader [] true sleep1) (List.replicate 5 x.nullFlit)

/-- Lane marker header of a logical lane, its MCRC in bits [7:0] (Table 6.5). -/
def markerHeader (tp midx mcount lane : Nat) : BitVec 64 :=
  let f : BitVec 56 := BitVec.ofNat 56 (0xA53C96 * 2 ^ 32 + lane % 4 * 2 ^ 26 + tp % 8 * 2 ^ 23 + midx % 16 * 2 ^ 19 + mcount % 65536 * 2 ^ 3)
  f ++ crc8 56 f

/-! ### What a transmitter sends by the clock -/

/-- A transmitter in TL0 sends codewords without a break (Table 6.2). -/
def Trunk.sends (x : Trunk) : Bool := x.tx == .tl0 && (x.state == .align || x.state == .init || x.state == .auth || x.state == .active)

/-- The codeword periods of 6.4 ns of one tick of 40 ns: a lane marker block after every 32,768 codewords (R278), and an IDLE
codeword when 4,095 others have gone since the last (R277, log 111). -/
def State.txTick (s : State) (t : Nat) : State :=
  let x := s.tp t
  if ¬ x.sends then s
  else
    let n := (x.cwPart + 25) / 4
    let s1 := s.modTp t (fun x => { x with cwPart := (x.cwPart + 25) % 4, cwIdle := (x.cwIdle + n) % 4096, cwMark := (x.cwMark + n) % 32769 })
    let s2 := if 4096 ≤ x.cwIdle + n then s1.emit (.codeword t 2) else s1
    if 32769 ≤ x.cwMark + n then s2.sendMarker t else s2

/-- Every trunk transmitter over one tick. -/
def State.txTicks (s : State) : State :=
  if ¬ s.running then s else s.trunk.foldl (fun s e => s.txTick e.1) s

end Sys2Proof.Machine
end

