-- ==== Sys2Proof/Machine/Idle.lean ====
section
/-! DEFINITION. What an empty queue does: a waiting mailbox command whose group is free is due, otherwise one AON tick passes (log 9). -/
namespace Sys2Proof.Machine

/-- The waiting mailbox command that executes next, and the state in which it does: the oldest one whose group is free (R472). -/
def State.nextWaiting (s : State) : Option (Instr × State) :=
  match s.mbx.waiting.find? (fun w => ! s.groupHeld (groupOf w.2.1)) with
  | none => none
  | some w => some (w.1, { s with mbx := { s.mbx with waiting := s.mbx.waiting.erase w, resumed := some (w.2.2.1, w.2.2.2) } })

/-- Tokens of an enabled bucket after one tick of 64 core clocks: RATE units of 1/12,800 byte per clock, up to BURST (R382). -/
def Bucket.tick (b : Bucket) : Bucket :=
  let cfg := b.cfg.toNat
  if bit cfg 63 then { b with tok := min (b.tok + ((64 * bits cfg 52 33 : Nat) : Int)) ((bits cfg 26 0 * 12800 : Nat) : Int) } else b

/-- Slices with a charge waiting on a bucket now. -/
def State.waiters (s : State) : List Nat := addAll ((s.shape.waiting.filter (fun c => ! c.bkts.isEmpty)).filterMap (fun c => c.slice)) []

/-- Slice counter 6 at the end of a microsecond of MTIME in which a charge of the slice waited (Table 9.6). -/
def State.countWaits (s : State) (fromNs toNs : Nat) : State :=
  if fromNs / 1000 = toNs / 1000 then s
  else
    let s1 := (addAll s.waiters s.shape.waitUs).foldl (fun s n => s.sliceCnt (some n) 6 1) s
    { s1 with shape := { s1.shape with waitUs := s1.waiters } }

/-- Ingress slots of a port in one tick (R521 to R523): cells discarded, cells entered, then a cell that waits, then none. -/
def State.slotTick (s : State) (p : Nat) : State :=
  let x := s.port p
  if ¬ x.up ∨ ¬ s.isPort p then s
  else
    let acc := Tbl.get 0 s.perf.slotAcc p + 64 * x.w
    let n := acc / 16384
    let w := if x.lanes = .l1 then 0 else min (Tbl.get 0 s.perf.slotWaste p) n
    let r := if x.lanes = .l1 then 0 else min (Tbl.get 0 s.perf.slotRet p) (n - w)
    let back := if x.lanes ≠ .l1 ∧ s.hs.shapeQ.any (fun e => e.1 == p) then n - w - r else 0
    let pf := s.perf
    let s1 : State := { s with perf := { pf with slotAcc := Tbl.set 0 pf.slotAcc p (acc % 16384), slotWaste := Tbl.set 0 pf.slotWaste p (Tbl.get 0 pf.slotWaste p - w), slotRet := Tbl.set 0 pf.slotRet p (Tbl.get 0 pf.slotRet p - r) } }
    if s.perf.freeze then s1
    else (((s1.bump (8 * p) r).bump (8 * p + 1) w).bump (8 * p + 2) (n - w - r - back)).bump (8 * p + 3) back

/-- A parked request of a port is ineligible only because of its gate or guard band. -/
def State.gateHolds (s : State) (p : Nat) : Bool :=
  let a := s.arbOf p
  s.arbIdle p && a.pend.any (fun x => ! a.masked.getLsbD x.req && (a.pend.find? (fun y => y.req == x.req)) == some x && ! s.arbCan p x)

/-- Mask of the classes of which a message waits for a credit at a trunk port. -/
def Trunk.stalled (x : Trunk) : Nat :=
  maskOf ((List.range 6).filter (fun c => match x.queue.find? (fun m => m.cls == c) with | some m => ! x.creditFor m | none => false))

/-- What the counters of Table 11.10 count by the clock, over the 64 clocks of one tick: SHAPE_WAIT, ARB_PARKED,
GATE_HOLD, GATED_CLK, CREDIT_STALL and CLOCKS. -/
def State.clockCounts (s : State) : State :=
  let s1 := (addAll (s.hs.shapeQ.map (fun e => e.1)) []).foldl (fun s p => s.count 0x0B p 0 64) s
  let s2 := s1.arb.foldl (fun s e => (s.count 0x12 e.1 0 (64 * e.2.pend.length)).count 0x13 e.1 0 (64 * b2n (s.gateHolds e.1))) s1
  let s3 := (List.range 4).foldl (fun s p => s.count 0x52 p 0 (64 * b2n (s.xbar.gated.getLsbD p))) s2
  let s4 := s3.trunk.foldl (fun s e => if e.2.state = .active ∧ e.2.stalled ≠ 0 then s.count 0x65 e.1 e.2.stalled 64 else s) s3
  s4.count 0x7F 0 0 64

/-- The counters over one tick, while the switch dies run (R521 to R526). -/
def State.counterTick (s : State) : State :=
  if ¬ s.running then s
  else
    let s1 := s.ports.port.foldl (fun s e => s.slotTick e.1) s
    if s1.perf.sel = [] then s1 else s1.clockCounts

/-- One AON tick of 40 ns, 64 core clocks: time, MTIME, buckets and counters advance. -/
def State.idle (s : State) : State :=
  let g := { s.glob with ticks := s.glob.ticks + 1 }
  let sh := s.shape
  let sh1 := { sh with mtime := if sh.running then sh.mtime + 40 else sh.mtime, bkt := Tbl.mapv {} (fun _ b => b.tick) sh.bkt, agg := Tbl.mapv {} (fun _ b => b.tick) sh.agg }
  let s1 := (({ s with glob := g, shape := sh1 } : State).countWaits sh.mtime sh1.mtime).counterTick.txTicks
  -- cells whose time on their plane is over arrive (R149)
  if s1.xbar.flying.any (fun x => decide (x.2.1 ≤ s1.now)) then s1.settle else s1

end Sys2Proof.Machine
end

