-- ==== Sys2Proof/WellFormed.lean ====
section
/-! DEFINITION. Which commands are well formed: every operand fits the field that carries it, and an event names a unit that can exist. -/
namespace Sys2Proof

/-- A number fits a field of `w` bits. -/
def fits (n w : Nat) : Bool := decide (n < 2 ^ w)

/-- A mailbox frame (Table 10.2). -/
def Frame.wf (f : Frame) : Bool :=
  decide (f.port < 64) && fits f.ep 8 && fits f.version 8 && fits f.tag 32 && fits f.sid 32 && fits f.seq 32 && decide (f.dest < 16)
    && decide (f.fwdRole ≤ 4) && fits f.plen 16 && fits f.slice 16

/-- An agent that can exist (Table 2.3, Table 1.1). -/
def agentWf (a : Agent) : Bool :=
  match a with
  | .host n => decide (n < 48) | .dev n => decide (n < 16) | .mod n => decide (n < 9) | .dma c => decide (c < 64)
  | .io p => decide (p < 64) | .post sl => decide (sl < 512) | .fw => true

/-- A request: an address of 52 bits (Table 5.4). -/
def reqWf (r : ReqOp) : Bool := agentWf r.src && fits r.fpa 52

/-- A response or data message. -/
def msgWf (m : MsgOp) : Bool := agentWf m.src && fits m.fpa 52 && decide (m.lmask < 16)

/-- A CXL.mem message: MetaValue I, S or A (Table 2.9). -/
def hostWf (h : HostOp) : Bool := decide (h.port < 64) && fits h.hoff 64 && decide (h.mv < 3)

/-- An entry of BIND_ADD (Table 5.7). -/
def bindWf (b : BindReq) : Bool := fits b.hoffExt 18 && decide (b.home < 16) && fits b.fext 16 && fits b.nm1 16 && decide (b.access < 4) && fits b.dcr 8

/-- A ward region (Table 9.7): 44-bit limits. -/
def regionWf (r : Region) : Bool := fits r.base 44 && fits r.limit 44

/-- An alias window (R365). -/
def winWf (w : WinDef) : Bool := fits w.next 16 && decide (w.homeA < 16) && fits w.fextA 16 && decide (w.homeB < 16) && fits w.fextB 16 && decide (w.owner < 512)

/-- A saved slice image (Table 9.14). -/
def imgWf (i : Image) : Bool := fits i.version 16 && fits i.size 32 && i.counters.all (fun c => fits c.1 48) && decide (i.counters.length ≤ 8)

/-- A link partner (Table 5.1). -/
def pidWf (p : PartnerId) : Bool := decide (p.kind < 5) && decide (p.cxl < 4) && p.serial.all (fits · 64) && p.cert.all (fits · 256) && fits p.capacity 32

/-- A logical device as a command names it (Table 5.1). -/
def ldFits (d : LogDev) : Bool := fits d.port 8 && decide (d.ld < 16)
/-- A logical device of a port that exists (Table 5.1). -/
def ldWf (d : LogDev) : Bool := decide (d.port < 64) && decide (d.ld < 16)

/-- A received flit (Table 6.7). -/
def flitWf (x : FlitOp) : Bool := decide (x.tp < 8) && fits x.seq 12 && fits x.ack 12 && decide (x.cls < 8) && fits x.count 20

/-- A trunk message (Table 6.8). -/
def trunkWf (m : TrunkMsg) : Bool :=
  decide (m.cls < 8) && fits m.op 5 && fits m.addr 52 && fits m.tag 16 && decide (m.len < 64) && decide (m.lmask < 16) && decide (m.srcm < 16) && decide (m.dstm < 16)

/-- A hierarchy-control message. -/
def hierWf (m : HierMsg) : Bool := fits m.kind 8 && decide (m.idx < 16) && fits m.serial 64 && m.members.all (fun x => decide (x.1 < 9) && fits x.2 64)

/-- Every operand of a command fits its field, and a unit that an event names exists. -/
def instrWf (i : Instr) : Bool :=
  match i with
  | .openSession f role slice ksrc _ => f.wf && fits role 8 && fits slice 16 && fits ksrc 8
  | .sessionAuth f sid _ => f.wf && fits sid 32
  | .closeSession f sid => f.wf && fits sid 32
  | .sessionList f => f.wf
  | .keySet f role _ => f.wf && fits role 8
  | .passwordSet f role _ => f.wf && fits role 8
  | .sessionSet f role secs => f.wf && fits role 8 && fits secs 16
  | .sessionIdleTimeout sid => fits sid 32
  | .sessionAuthExpiry sid => fits sid 32
  | .lockoutExpiry role => fits role 8
  | .moduleIdentify f => f.wf
  | .moduleStatus f => f.wf
  | .moduleSet f smbus vec _ _ edge => f.wf && smbus.all (fits · 8) && vec.all (fits · 16) && edge.all (fun x => fits x.1 8 && fits x.2.1 8 && fits x.2.2 8)
  | .moduleLock f mask => f.wf && fits mask 64
  | .eventGet f _ seq => f.wf && fits seq 32
  | .opJournalGet f index count => f.wf && fits index 64 && fits count 32
  | .opStatus f grp => f.wf && fits grp 8
  | .opAbort f grp => f.wf && fits grp 8
  | .moduleReset f => f.wf
  | .resetTarget f _ => f.wf
  | .resetStatus f => f.wf
  | .regGet f off width => f.wf && fits off 32 && fits width 8
  | .regSet f off width val => f.wf && fits off 32 && fits width 8 && fits val 64
  | .identifyV1 f => f.wf
  | .sliceFreezeV1 f slice => f.wf && fits slice 16
  | .sliceSaveV1 f slice addr => f.wf && fits slice 16 && fits addr 64
  | .sliceRestoreV1 f host pasid addr img => f.wf && fits host 8 && fits pasid 20 && fits addr 64 && imgWf img
  | .sliceThawV1 f slice => f.wf && fits slice 16
  | .mctpControl _ ep cmd arg => fits ep 8 && fits cmd 8 && fits arg 8
  | .trunkMailboxFrame tp f opcode => decide (tp < 8) && f.wf && fits opcode 16
  | .forwardResend tag => fits tag 32
  | .portMapGet f => f.wf
  | .portMapCommit f map => f.wf && decide (map.length ≤ 128)
  | .portEnable f port => f.wf && fits port 8
  | .portDisable f port => f.wf && fits port 8
  | .portStatus f port => f.wf && fits port 8
  | .portSet f port dsCpl dsFail usCpl _ _ _ => f.wf && fits port 8 && dsCpl.all (fits · 32) && dsFail.all (fits · 16) && usCpl.all (fits · 32)
  | .portEqSet f _ _ _ => f.wf
  | .portEqStatus f _ => f.wf
  | .portReset f port => f.wf && fits port 8
  | .portBlockRead f _ reg => f.wf && fits reg 8
  | .portBlockWrite f _ reg val => f.wf && fits reg 8 && fits val 64
  | .partnerList f => f.wf
  | .partnerEventGet f count => f.wf && fits count 32
  | .partnerSet f port timer snoop _ => f.wf && fits port 8 && timer.all (fits · 16) && snoop.all (fits · 32)
  | .partnerRelease f port => f.wf && fits port 8
  | .evacuatePartner f port ch share stallPages maxPasses mask => f.wf && fits port 8 && fits ch 8 && fits share 8 && fits stallPages 32 && fits maxPasses 16 && fits mask 64
  | .evacPassDone e => fits e 16
  | .evacStallDrained e => fits e 16
  | .evacFinalPassDone => true
  | .evacStallGuard => true
  | .bindAdd f host entries => f.wf && fits host 8 && entries.all bindWf
  | .bindRelease f host entry _ => f.wf && fits host 8 && fits entry 16
  | .bindTableGet f host => f.wf && fits host 8
  | .bindPassthru f d host bridge => f.wf && ldFits d && fits host 8 && fits bridge 8
  | .addDynamicCapacityResponse host accepted declined => decide (host < 48) && accepted.all (fits · 64) && declined.all (fits · 64)
  | .dcAddTimeout host entry => decide (host < 48) && decide (entry < 512)
  | .releaseDynamicCapacity host entry => decide (host < 48) && decide (entry < 512)
  | .dcReleaseTimeout host entry => decide (host < 48) && decide (entry < 512)
  | .bindingRemovalDone host entry => decide (host < 48) && decide (entry < 512)
  | .poolAddPartner f port => f.wf && fits port 8
  | .scrubDone ext => fits ext 16
  | .poolStatus f => f.wf
  | .poolExtentRevalidate f ext count => f.wf && fits ext 16 && fits count 32
  | .poolExtentRelease f ext count => f.wf && fits ext 16 && fits count 32
  | .poolAlloc f module count => f.wf && fits module 8 && fits count 32
  | .poolSpillSet f base size high low _ => f.wf && fits base 64 && fits size 64 && fits high 8 && fits low 8
  | .sliceCreate f host pasid => f.wf && fits host 8 && fits pasid 20
  | .sliceSet f slice mask _ => f.wf && fits slice 16 && mask.all (fun l => l.all (fun e => decide (e < 512)))
  | .sliceDestroy f slice => f.wf && fits slice 16
  | .sliceStatus f slice => f.wf && fits slice 16
  | .sliceFreeze f slice => f.wf && fits slice 16
  | .sliceThaw f slice => f.wf && fits slice 16
  | .sliceSave f slice owner addr => f.wf && fits slice 16 && fits owner 16 && fits addr 64
  | .sliceRestore f host pasid addr chmap img => f.wf && fits host 8 && fits pasid 20 && fits addr 64 && chmap.all (fits · 64) && imgWf img
  | .sliceWindowSet f slice window area => f.wf && fits slice 16 && window.all (fits · 64) && area.all (fits · 64)
  | .sliceChanSet f slice reqBase reqLog repBase repLog vec => f.wf && fits slice 16 && fits reqBase 64 && fits reqLog 8 && fits repBase 64 && fits repLog 8 && fits vec 16
  | .sliceChanGet f slice => f.wf && fits slice 16
  | .sliceChanPut f slice tag status len payload => f.wf && fits slice 16 && fits tag 32 && fits status 16 && fits len 16 && decide (payload.length ≤ 4096)
  | .logStart f slice owner buf0 buf1 => f.wf && fits slice 16 && fits owner 16 && fits buf0 64 && fits buf1 64
  | .logHarvest f slice _ _ => f.wf && fits slice 16
  | .logStop f slice => f.wf && fits slice 16
  | .sliceCounterClear f slice => f.wf && fits slice 16
  | .dmaChSet f ch slice prio share wdog => f.wf && fits ch 8 && slice.all (fits · 16) && prio.all (fits · 8) && share.all (fits · 8) && wdog.all (fits · 32)
  | .dmaRingAssign f ring ch slot sqBase sqLog cq cqBase cqLog vec => f.wf && fits ring 16 && fits ch 8 && fits slot 8 && fits sqBase 64 && fits sqLog 8 && fits cq 16 && fits cqBase 64 && fits cqLog 8 && fits vec 16
  | .dmaRingRelease f ring => f.wf && fits ring 16
  | .dmaStatus f slice => f.wf && fits slice 16
  | .dmaAliasSet f win dfn => f.wf && fits win 8 && dfn.all winWf
  | .dmaAliasStatus f win => f.wf && fits win 8
  | .wardRegionSet f n r => f.wf && fits n 16 && regionWf r
  | .wardRegionGet f n => f.wf && fits n 16
  | .wardCutSet f _ idx _ => f.wf && fits idx 16
  | .wardCommit f target => f.wf && fits target 32
  | .wardStatusGet f => f.wf
  | .shapeBktSet f _ slice bkt _ => f.wf && fits slice 16 && fits bkt 8
  | .shapeBktGet f _ slice bkt => f.wf && fits slice 16 && fits bkt 8
  | .shapeStatus f => f.wf
  | .gateListSet f point _ _ entries => f.wf && fits point 8 && decide (entries.length ≤ 128)
  | .gateCommit f point => f.wf && fits point 8
  | .gateGet f point => f.wf && fits point 8
  | .gateTsyncSet f loss => f.wf && fits loss 16
  | .hierStatus f => f.wf
  | .hierKeySet f _ => f.wf
  | .hierSet f _ _ meshTimeout trCpl => f.wf && meshTimeout.all (fits · 32) && trCpl.all (fits · 16)
  | .hierAdmit f serial => f.wf && fits serial 64
  | .hierRemove f idx => f.wf && fits idx 16
  | .hierRemoveStepDone => true
  | .hierForget f idx => f.wf && fits idx 16
  | .hierTrunkDisable f tp => f.wf && decide (tp < 8)
  | .hierTrunkEnable f tp => f.wf && decide (tp < 8)
  | .faultLogGet f fromSeq count => f.wf && fits fromSeq 32 && fits count 32
  | .faultStatus f => f.wf
  | .faultReactionSet f _ code _ action _ idx _ => f.wf && fits code 16 && action.all (fits · 8) && fits idx 16
  | .reactionDryrun f _ code _ => f.wf && fits code 16
  | .faultLogClear f => f.wf
  | .aliveSet f hz => f.wf && fits hz 16
  | .powerStatus f => f.wf
  | .powerSet f _ _ => f.wf
  | .powerStateSet f target _ => f.wf && fits target 32
  | .energyClear f => f.wf
  | .thermalSet f grp warn crit => f.wf && fits grp 8 && fits warn 8 && fits crit 8
  | .thermalStatus f => f.wf
  | .perfCntSet f _ port idx _ preload _ => f.wf && fits port 8 && fits idx 16 && preload.all (fits · 64)
  | .perfCntGet f _ port idx => f.wf && fits port 8 && fits idx 16
  | .perfSampleSet f idx cfg => f.wf && fits idx 16 && cfg.all (fits · 64)
  | .perfOvfSet f _ vec => f.wf && fits vec 16
  | .fwInfo f => f.wf
  | .fwTransfer f off data => f.wf && fits off 32 && decide (data.length ≤ 4096)
  | .fwVerify f => f.wf
  | .fwVerifyDone => true
  | .fwActivate f _ => f.wf
  | .dmaSqDb ring tail => decide (ring < 256) && fits tail 16
  | .dmaCqDb ring head => decide (ring < 256) && fits head 16
  | .dmaRingCtlEn ring _ => decide (ring < 256)
  | .dmaRingCtlAbort ring => decide (ring < 256)
  | .chStop ch _ => decide (ch < 64)
  | .schReqDb slice tail => decide (slice < 512) && fits tail 16
  | .schRepDb slice head => decide (slice < 512) && fits head 16
  | .wardCommitGo target _ => fits target 32
  | .globalLockWrite val => fits val 64
  | .perfCtlFreeze _ => true
  | .perfCtlClear => true
  | .perfSmpHead idx head => decide (idx < 9) && fits head 16
  | .sequenceClear off val => fits off 32 && fits val 64
  | .sillCtlEn _ => true
  | .registerWrite _ port off width val => decide (port < 64) && fits off 32 && fits width 8 && fits val 64
  | .tvRead field => fits field 8
  | .votePass => true
  | .counterLowRead requester off => fits requester 64 && fits off 32
  | .coreWake => true
  | .coreHalt => true
  | .coreWdog => true
  | .corePllLock die => decide (die < 7)
  | .planeIdleGate plane => decide (plane < 4)
  | .planeUngate plane => decide (plane < 4)
  | .rstNLow => true
  | .rstNRelease => true
  | .moduleResetCoreReset => true
  | .moduleResetRelease => true
  | .moduleResetReady => true
  | .sliceDrainDone ks => decide (ks < 32)
  | .resetDone _ => true
  | .rds r => reqWf r
  | .rdx r => reqWf r
  | .upg r => reqWf r
  | .wrinvfull r => reqWf r
  | .wrinvpart r => reqWf r
  | .atomop r _ _ => reqWf r
  | .evict r => reqWf r
  | .wbdata m => msgWf m
  | .snpinv m => msgWf m
  | .snpshr m => msgWf m
  | .snpdata m => msgWf m
  | .birecall m => msgWf m
  | .rspi m => msgWf m
  | .rsps m => msgWf m
  | .rspo m => msgWf m
  | .rspwbpend m => msgWf m
  | .cmp m => msgWf m
  | .cmppoison m => msgWf m
  | .datas m => msgWf m
  | .datae m => msgWf m
  | .datam m => msgWf m
  | .datao m => msgWf m
  | .conflictQueueResume ks fpa => decide (ks < 32) && fits fpa 52
  | .snoopTimeout fpa holder => fits fpa 52 && agentWf holder
  | .postingWindowWrite h => hostWf h
  | .m2sReq h => hostWf h
  | .m2sRwd h => hostWf h
  | .m2sBirsp port hoff _ => decide (port < 64) && fits hoff 64
  | .biconflict port hoff => decide (port < 64) && fits hoff 64
  | .d2hReq dev op r => decide (dev < 16) && fits op 8 && reqWf r
  | .s2mDrs port fpa _ _ => decide (port < 64) && fits fpa 52
  | .s2mNdrCmp port fpa => decide (port < 64) && fits fpa 52
  | .passthruMemRequest d pasid addr len _ data => ldWf d && fits pasid 20 && fits addr 64 && fits len 16 && decide (data.length ≤ 4096)
  | .cxlioTlp d _ tlp => ldWf d && decide (tlp.length ≤ 4096)
  | .reseqHole src dst cls => decide (src < 128) && decide (dst < 128) && decide (cls < 6)
  | .spillReadBack point => decide (point < 128)
  | .arbRequest port req _ units => decide (port < 64) && decide (req < 52) && fits units 8
  | .arbGrant port => decide (port < 64)
  | .arbHandoffDone port => decide (port < 64)
  | .arbHold port => decide (port < 64)
  | .arbMask port req => decide (port < 64) && decide (req < 52)
  | .arbUnmask port req => decide (port < 64) && decide (req < 52)
  | .arbParkTimeout port req => decide (port < 64) && decide (req < 52)
  | .perstNLow grp => decide (grp < 16)
  | .perstNRelease grp => decide (grp < 16)
  | .perstReleaseTimer grp => decide (grp < 16)
  | .refclkStable k => decide (k < 8)
  | .receiverDetect port _ => decide (port < 64)
  | .linkUp port lanes rate pid => decide (port < 64) && fits lanes.width 8 && fits rate 8 && pidWf pid
  | .ideEstablished port => decide (port < 64)
  | .memoryActive port capacity => decide (port < 64) && fits capacity 32
  | .arrive port => decide (port < 64)
  | .spdmSessionComplete port cert _ => decide (port < 64) && fits cert 256
  | .linkDown port cause => decide (port < 64) && fits cause 8
  | .linkLevelReset port => decide (port < 64)
  | .ideIntegrityFailure port => decide (port < 64)
  | .departureSweepDone port => decide (port < 64)
  | .departureTimerExpiry port => decide (port < 64)
  | .dsCplTimeout port fpa => decide (port < 64) && fits fpa 52
  | .usCplTimeout port fpa => decide (port < 64) && fits fpa 52
  | .trCplTimeout fpa src => fits fpa 52 && agentWf src
  | .refclkLoss k => decide (k < 8)
  | .refclkReturn k => decide (k < 8)
  | .trunkTrainDone tp _ => decide (tp < 8)
  | .trunkTrainTimeout tp => decide (tp < 8)
  | .trunkAlignDone a => decide (a.tp < 8) && fits a.skew 16
  | .laneMarker tp lane _ logical mcount midx => decide (tp < 8) && decide (lane < 4) && fits logical 8 && fits mcount 16 && fits midx 4
  | .initCredit tp serial idx role counts => decide (tp < 8) && fits serial 64 && decide (idx < 9) && fits role 8 && counts.all (fits · 64)
  | .authChal tp _ => decide (tp < 8)
  | .authResp tp _ => decide (tp < 8)
  | .authFailRetry tp => decide (tp < 8)
  | .payloadFlit fl msg => flitWf fl && trunkWf msg
  | .nullFlit x => flitWf x.fl
  | .replayReq tp seq => decide (tp < 8) && fits seq 32
  | .replayTimeout tp => decide (tp < 8)
  | .resume tp _ seq counts _ => decide (tp < 8) && fits seq 32 && counts.all (fits · 64)
  | .linkSleep tp cause => decide (tp < 8) && fits cause 8
  | .leave tp idx => decide (tp < 8) && decide (idx < 9)
  | .reset tp idx => decide (tp < 8) && decide (idx < 9)
  | .sleep1Codeword tp => decide (tp < 8)
  | .tl1IdleEntry tp => decide (tp < 8)
  | .wakeSequence tp => decide (tp < 8)
  | .wakeLockTimeout tp => decide (tp < 8)
  | .errorWindowEval tp => decide (tp < 8)
  | .cdrLoss tp lane => decide (tp < 8) && decide (lane < 4)
  | .trefclkLoss die => decide (die < 7)
  | .linkHoldExpiry tp => decide (tp < 8)
  | .managerDeclare => true
  | .hierarchyControl tp m => decide (tp < 8) && hierWf m
  | .meshComplete => true
  | .meshTimeout => true
  | .joinRetry => true
  | .descriptorFetch ch ring fetch => decide (ch < 64) && decide (ring < 256) && fits fetch 16
  | .descriptorBegin ch => decide (ch < 64)
  | .nop ch => decide (ch < 64)
  | .copy ch => decide (ch < 64)
  | .fill ch => decide (ch < 64)
  | .check ch => decide (ch < 64)
  | .atomic ch => decide (ch < 64)
  | .flip ch => decide (ch < 64)
  | .fence ch => decide (ch < 64)
  | .burstBegin ch => decide (ch < 64)
  | .descriptorComplete ch => decide (ch < 64)
  | .drainDone ring => decide (ring < 256)
  | .dreqEdge n => decide (n < 16)
  | .dmaWatchdog ch => decide (ch < 64)
  | .flipPrepare win => decide (win < 16)
  | .flipCommit win => decide (win < 16)
  | .flipDrainDone win => decide (win < 16)
  | .flipSweepDone win => decide (win < 16)
  | .chargeProceed _ slice bkt => decide (slice < 512) && decide (bkt < 16)
  | .shapingQueueEntry port => decide (port < 64)
  | .tsync => true
  | .tsyncLoss => true
  | .cycleStart point => decide (point < 128)
  | .gateEntry point => decide (point < 128)
  | .gateSwap point => decide (point < 128)
  | .sliceChannelRequest slice _ _ opcode tag len payload => decide (slice < 512) && fits opcode 16 && fits tag 32 && fits len 16 && decide (payload.length ≤ 4096)
  | .wardCommitCheck => true
  | .wardSwitch => true
  | .wardCopyDone => true
  | .faultReport code _ _ port => fits code 16 && decide (port < 64)
  | .wire _ source => fits source 8
  | .reactionWindowClose _ => true
  | .overflowMessage => true
  | .sampleRecord idx ns => decide (idx < 9) && fits ns 32
  | .thermalSensorUpdate readings => readings.all (fits · 64)
  | .dieThermal die => decide (die < 7)
  | .feedChange _ st => fits st 8
  | .qualStart => true
  | .qualDone => true
  | .powerGood => true
  | .sillSoa => true
  | .sillFastTrip => true
  | .sillSlowTrip => true
  | .coolEnd => true
  | .retryReload => true
  | .sillOv => true
  | .ovRecover => true
  | .bulkRecharge => true
  | .coldReset => true
  | .coldRelease => true
  | .sillBrownout => true
  | .brownoutSleep => true
  | .pfwRelease => true
  | .polStop => true
  | .meterUpdate va vb vin vbulk ia ib iin _ => fits va 16 && fits vb 16 && fits vin 16 && fits vbulk 16 && fits ia 16 && fits ib 16 && fits iin 16
  | .gpfRequest port => decide (port < 64)
  | .selfTestDone _ => true
  | .startupReady => true
  | .tapInstruction op => fits op 8
  | .testLogicReset => true
  | .qualLeavesRange => true
  | .bulkRechargeEnd => true
  | .controlFlitRepeat tp => decide (tp < 8)
  | .forwardedReply tp tag rc data => decide (tp < 8) && fits tag 32 && fits rc 8 && data.all (fits · 64)
  | .homeModuleRequest tp kind ext count => decide (tp < 8) && fits kind 8 && fits ext 16 && fits count 32
  | .gpfCompletion port => decide (port < 64)
  | .memoryActiveTimeout port => decide (port < 64)
  | .linkL1Entry x => decide (x.port < 64) && fits x.width 8
  | .linkL1Exit port => decide (port < 64)
  | .cxlMemoryDeviceCommand port opcode => decide (port < 64) && fits opcode 16
  | .unsupportedOpcode f opcode => f.wf && fits opcode 16
  | .scrubPatrol die port => decide (die < 7) && decide (port < 64)

end Sys2Proof
end

