-- ==== Sys2Proof/Safety.lean ====
section
/-! DEFINITION. What counts as a safe run, and the two forms in which statements say that a command completes. -/
namespace Sys2Proof.Machine

/-- A step that answers a next state: nothing stopped. -/
def goesOn (o : Res) : Prop := ∃ t, o = .next t

/-- A safe run: every step from a state answers a next state. -/
def Safe (s : State) : Prop := ∀ k, ∃ t, Sys2Proof.core.run k s = .next t

/-- A frame's command executes: it is admitted (log 12) and its lock group is not locked (R490). The role and
slice it runs in, and the state in which its own rule is applied; none where the frame is answered otherwise. -/
def State.executes (s : State) (op : Nat) (f : Frame) (c : Instr) : Option (Nat × Nat × State) :=
  match s.admission op f c with
  | .go role sl s1 => if (lockBit op).any s1.locked then none else some (role, sl, s1)
  | _ => none

/-- A mailbox command completes: wherever it executes and its own conditions hold, exec answers the state of
its effect, its response, and what the effect sets going. -/
def Answers (op : Nat) (f : Frame) (c : Instr) (can : Nat → Nat → State → Prop) (run : State → State × Nat × List Nat) : Prop :=
  ∀ s role sl s1, s.executes op f c = some (role, sl, s1) → can role sl s1 →
    exec c s = .next ((run s1).1.reply f op (run s1).2.1 (run s1).2.2).settle

/-- A command executes and its own conditions hold, in some state. -/
def Met (op : Nat) (f : Frame) (c : Instr) (can : Nat → Nat → State → Prop) : Prop :=
  ∃ s role sl s1, State.executes s op f c = some (role, sl, s1) ∧ can role sl s1

/-- An event completes: wherever it can occur, exec answers the state of its effect and what that sets going. -/
def Occurs (c : Instr) (can : State → Prop) (effect : State → State) : Prop :=
  ∀ s, can s → exec c s = .next (effect s).settle

/-- A mailbox command is held by a lock group: once admitted, and the group's GLOBAL_LOCK bit set, it is answered
LOCKED and has no other effect (R490). -/
def HeldBy (g : Nat) (op : Nat) (f : Frame) (c : Instr) : Prop :=
  ∀ s role sl s1, State.admission s op f c = .go role sl s1 → s1.locked g = true → exec c s = .next (s1.reply f op rcLocked []).settle

/-- The reserved bits of GLOBAL_LOCK, SILL_CTL and SILL_LIMITS are clear, and the flash of the firmware banks is in its
canonical form: addresses strictly rising, no erased byte listed. -/
def State.inForm (s : State) : Prop :=
  s.glob.lock.maj &&& ~~~(0x1F : Reg64) = 0 ∧ s.sill.ctl.maj &&& ~~~ctlMask = 0 ∧ s.sill.limits.maj &&& ~~~limMask = 0
    ∧ Tbl.wf (0xFF : Byte) s.fw.flash = true

/-- The commands and events in which a MODULE or COLD reset clears GLOBAL_LOCK (R511, Table 1.11). -/
def clearsLocks (c : Instr) : Bool :=
  match c with | .moduleResetCoreReset | .polStop | .coldReset => true | _ => false

/-- An event can occur, in some state. -/
def Could (_c : Instr) (can : State → Prop) : Prop := ∃ s, can s

end Sys2Proof.Machine
end

