-- ==== Sys2Proof/Certificates/Slice0/Obligations.lean ====
section
/-! DEFINITION. The statements for the provers. -/
open Sys2Proof Sys2Proof.Machine

/-- OPEN_SESSION gives the next SID, draws the module nonce and answers SID, nonce, salt and 100,000 iterations. SESSION_AUTH with the proof of R479 authenticates the session and clears the failure count; with another proof it answers AUTH_FAILED, frees the SID, reports the failure, and the fifth failure in a row locks the role out for 60 s. LOCKOUT_EXPIRY ends a lockout. Each completes wherever the frame executes and its own conditions hold.
Completion: for every state and operands that meet the stated conditions on them alone, exec answers a next state for openSession, sessionAuth, lockoutExpiry. -/
def Obligations.SessionsOpen : Prop :=
  (∀ f role slice ksrc nc, Answers 0xC001 f (.openSession f role slice ksrc nc)
    (fun _ _ s => 1 ≤ role ∧ role ≤ 4 ∧ ksrc ≤ 1 ∧ (role = 4 → (s.slice slice).isSome = true) ∧ s.lockedOut role = false ∧ s.mbx.sessions.length < 8)
    (fun s => 
      let x : Session := { sid := s.mbx.nextSid, role := role, slice := if role = 4 then slice else 0xFFFF, ksrc := ksrc, xport := f.xport, ep := endpointOf f, nc := nc, nd := s.fresh, authed := false, sk := 0, seqNext := 1, badMacs := 0, openedAt := s.now, lastAt := s.now }
      (({ s with mbx := { s.mbx with sessions := s.mbx.sessions ++ [x], nextSid := s.mbx.nextSid + 1 } } : State).drawn, rcOk, [s.mbx.nextSid, s.fresh.toNat, s.mbx.salt.toNat, 100000]))) ∧
  (∀ f sid proof x, Answers 0xC002 f (.sessionAuth f sid proof)
    (fun _ _ s => s.session sid = some x ∧ x.authed = false ∧ x.xport = f.xport ∧ x.ep = endpointOf f ∧ proof = x.proof (s.sessionKey x.role x.slice x.ksrc))
    (fun s => 
      let s1 := s.modSession sid (fun y => { y with authed := true, sk := x.secret (s.sessionKey x.role x.slice x.ksrc), lastAt := s.now })
      ({ s1 with mbx := { s1.mbx with fails := Tbl.del s1.mbx.fails x.role } }, rcOk, [(x.answer (s.sessionKey x.role x.slice x.ksrc)).toNat]))) ∧
  (∀ f sid proof x, Answers 0xC002 f (.sessionAuth f sid proof)
    (fun _ _ s => s.session sid = some x ∧ x.authed = false ∧ x.xport = f.xport ∧ x.ep = endpointOf f ∧ proof ≠ x.proof (s.sessionKey x.role x.slice x.ksrc))
    (fun s => 
      let n := Tbl.get 0 s.mbx.fails x.role + 1
      let s1 : State := if n = 5 then { s with mbx := { s.mbx with fails := Tbl.del s.mbx.fails x.role, lockouts := Tbl.put s.mbx.lockouts x.role (s.now + 1500000000) } }
        else { s with mbx := { s.mbx with fails := Tbl.put s.mbx.fails x.role n } }
      ((s1.dropSession x.sid).fault 0x0116 (s.dieLoc 6) 0xFF, rcAuth, []))) ∧
  (∀ role, Occurs (.lockoutExpiry role)
    (fun s => (Tbl.find s.mbx.lockouts role).isSome = true)
    (fun s => ({ s with mbx := { s.mbx with lockouts := Tbl.del s.mbx.lockouts role } } : State).woken))

/-- CLOSE_SESSION of its own session or by an ADMIN ends that session; SESSION_IDLE_TIMEOUT ends an authenticated session and SESSION_AUTH_EXPIRY one that never was. SESSION_LIST answers SID, role, endpoint and idle time of each session. KEY_SET stores a role key, PASSWORD_SET a derived key with a new random salt that it answers, SESSION_SET an idle time of 30 to 3,600 s. Each changes nothing else but its response.
Completion: for every state and operands that meet the stated conditions on them alone, exec answers a next state for closeSession, sessionIdleTimeout, sessionAuthExpiry, sessionList, keySet, passwordSet, sessionSet. -/
def Obligations.SessionsEndAndKeys : Prop :=
  (∀ f sid, Answers 0xC003 f (.closeSession f sid)
    (fun r _ s => (sid = f.sid ∨ r = 1) ∧ (s.session sid).isSome = true)
    (fun s => (s.dropSession sid, rcOk, []))) ∧
  (∀ sid x, Occurs (.sessionIdleTimeout sid)
    (fun s => s.session sid = some x ∧ x.authed = true)
    (fun s => s.dropSession sid)) ∧
  (∀ sid x, Occurs (.sessionAuthExpiry sid)
    (fun s => s.session sid = some x ∧ x.authed = false)
    (fun s => s.dropSession sid)) ∧
  (∀ f, Answers 0xC004 f (.sessionList f)
    (fun _ _ _ => True)
    (fun s => (s, rcOk, s.mbx.sessions.flatMap (fun x => [x.sid, x.role, (xportCode x.xport) * 256 + x.ep, s.now - x.lastAt])))) ∧
  (∀ f role key, Answers 0xC005 f (.keySet f role key)
    (fun _ _ _ => 1 ≤ role ∧ role ≤ 4)
    (fun s => ({ s with mbx := { s.mbx with keys := Tbl.set 0 s.mbx.keys role key } }, rcOk, []))) ∧
  (∀ f role key, Answers 0xC006 f (.passwordSet f role key)
    (fun _ _ _ => 1 ≤ role ∧ role ≤ 4)
    (fun s => (({ s with mbx := { s.mbx with pwKeys := Tbl.set 0 s.mbx.pwKeys role key, salt := s.fresh.truncate 128 } } : State).drawn, rcOk, [(s.fresh.truncate 128 : BitVec 128).toNat]))) ∧
  (∀ f role secs, Answers 0xC007 f (.sessionSet f role secs)
    (fun _ _ _ => 1 ≤ role ∧ role ≤ 4 ∧ 30 ≤ secs ∧ secs ≤ 3600)
    (fun s => ({ s with mbx := { s.mbx with idle := Tbl.set 300 s.mbx.idle role secs } }, rcOk, [])))

/-- MODULE_IDENTIFY and the SV4100 IDENTIFY answer 0x8650 and the variant (1 for -MA), revision 0xB1, the serial, the firmware versions, the Zorne version 4, the maximum payload 4,096, index and role; MODULE_STATUS power state, dies, planes and running groups; OP_STATUS the fields of Table 10.10; OP_JOURNAL_GET the records from an index on; RESET_STATUS the resets in progress and finished; EVENT_GET the summary, which an acknowledgement clears, raising ALERT_N when nothing remains.
Completion: for every state and operands that meet the stated conditions on them alone, exec answers a next state for moduleIdentify, identifyV1, moduleStatus, opJournalGet, opStatus, resetStatus, eventGet. -/
def Obligations.ModuleReports : Prop :=
  (∀ f, Answers 0xC101 f (.moduleIdentify f)
    (fun _ _ _ => True)
    (fun s => (s, rcOk, [0x8650, b2n s.glob.isMA, 0xB1, s.glob.serial] ++ s.fwVersions ++ [4, 4096, s.glob.midx, s.glob.hrole]))) ∧
  (∀ f, Answers 0xD001 f (.identifyV1 f)
    (fun _ _ _ => True)
    (fun s => (s, rcOk, [0x8650, b2n s.glob.isMA, 0xB1, s.glob.serial] ++ s.fwVersions ++ [4, 4096, s.glob.midx, s.glob.hrole]))) ∧
  (∀ f, Answers 0xC102 f (.moduleStatus f)
    (fun _ _ _ => True)
    (fun s => (s, rcOk, [s.glob.pstate.code, s.dieUp, s.xbar.up.toNat, s.xbar.gated.toNat, s.opGroups]))) ∧
  (∀ f index count, Answers 0xC106 f (.opJournalGet f index count)
    (fun _ _ _ => 1 ≤ count ∧ count ≤ 127)
    (fun s => (s, rcOk, max index s.mbx.journalBase :: ((s.mbx.journal.drop (max index s.mbx.journalBase - s.mbx.journalBase)).take count).map JRec.pack))) ∧
  (∀ f grp, Answers 0xC107 f (.opStatus f grp)
    (fun _ _ _ => grp ≤ 15)
    (fun s => (s, rcOk, match Tbl.find s.mbx.ops grp with
      | none => [0, 0, 0, 0, 0, 0, 0, 0, 0, 0]
      | some o => [o.opid, o.opcode, if o.running then 1 else 2, if o.running then 0xFF else o.status, o.percent, o.pos, o.total, o.result, o.startAt, o.endAt]))) ∧
  (∀ f, Answers 0xC112 f (.resetStatus f)
    (fun _ _ _ => True)
    (fun s => (s, rcOk, s.svc.resets.length :: s.svc.resets.flatMap (fun r => [r.kind, r.loc.toNat]) ++ s.svc.finished.flatMap (fun r => [r.1, r.2.toNat])))) ∧
  (∀ f seq, Answers 0xC105 f (.eventGet f false seq)
    (fun _ _ _ => True)
    (fun s => (s, rcOk, [s.mbx.summary.summaryWord, s.mbx.summary.seq.toNat]))) ∧
  (∀ f seq, Answers 0xC105 f (.eventGet f true seq)
    (fun _ _ s => (s.mbx.summary.clear (BitVec.ofNat 8 seq)).ages ≠ [])
    (fun s => 
      let q := s.mbx.summary.clear (BitVec.ofNat 8 seq)
      ({ s with mbx := { s.mbx with summary := if q.has 1 then q else { q with val := 0 } } }, rcOk, [s.mbx.summary.summaryWord, s.mbx.summary.seq.toNat]))) ∧
  (∀ f seq, Answers 0xC105 f (.eventGet f true seq)
    (fun _ _ s => (s.mbx.summary.clear (BitVec.ofNat 8 seq)).ages = [] ∧ s.mbx.alert = true)
    (fun s => 
      let q := s.mbx.summary.clear (BitVec.ofNat 8 seq)
      (({ s with mbx := { s.mbx with summary := { q with val := 0 }, alert := false } } : State).emit (.pin .alertN true), rcOk, [s.mbx.summary.summaryWord, s.mbx.summary.seq.toNat])))

/-- MODULE_SET stores the settings given and keeps the others; MODULE_LOCK sets lock bits; OP_ABORT ends the running evacuation or verification with ABORTED; REG_GET and REG_SET read and write one register; MODULE_RESET answers first and then triggers the reset; RESET_TARGET begins a targeted reset of an element that exists and whose scope no running reset meets.
Completion: for every state and operands that meet the stated conditions on them alone, exec answers a next state for moduleSet, moduleLock, opAbort, regGet, regSet, moduleReset, resetTarget. -/
def Obligations.ModuleSettings : Prop :=
  (∀ f smbus vec notify alert edge, Answers 0xC103 f (.moduleSet f smbus vec notify alert edge)
    (fun _ _ _ => smbus.all (fun a => decide (a ≤ 127)) = true ∧ vec.all (fun v => decide (v ≤ 2047)) = true ∧ edge.all (fun e => decide (e.1 ≤ 3) && decide (e.2.1 ≤ 3) && decide (e.2.2 ≤ 3)) = true)
    (fun s => 
      let put := fun (t : Tbl Nat) (g c : Nat) => if c = 3 then t else Tbl.set 1 t g c
      let ed := match edge with | some e => put (put (put s.mbx.edges 0 e.1) 1 e.2.1) 2 e.2.2 | none => s.mbx.edges
      ({ s with mbx := { s.mbx with smbusFlash := smbus.getD s.mbx.smbusFlash, vec := vec.getD s.mbx.vec, notify := notify.getD s.mbx.notify, alertEn := alert.getD s.mbx.alertEn, edges := ed } }, rcOk, []))) ∧
  (∀ f mask, Answers 0xC104 f (.moduleLock f mask)
    (fun _ _ _ => True)
    (fun s => ({ s with glob := { s.glob with lock := Tri.all (s.glob.lock.maj ||| BitVec.ofNat 64 (mask % 32)) } }, rcOk, []))) ∧
  (∀ f, Answers 0xC108 f (.opAbort f 3)
    (fun _ _ s => s.opRunning 3 = true)
    (fun s => (s.evacEnd 2 false, rcOk, []))) ∧
  (∀ f, Answers 0xC108 f (.opAbort f 15)
    (fun _ _ s => s.opRunning 15 = true)
    (fun s => (s.endOp 15 2 none, rcOk, []))) ∧
  (∀ f off width, Answers 0xC120 f (.regGet f off width)
    (fun _ _ s => off < 2 ^ 20 ∧ (width = 1 ∨ width = 2 ∨ width = 4 ∨ width = 8) ∧ s.regUp off = true)
    (fun s => ((s.regRead (mbxRequester f) off width).1, rcOk, [(s.regRead (mbxRequester f) off width).2]))) ∧
  (∀ f off width val, Answers 0xC121 f (.regSet f off width val)
    (fun _ _ s => off < 2 ^ 20 ∧ (width = 1 ∨ width = 2 ∨ width = 4 ∨ width = 8) ∧ s.regUp off = true)
    (fun s => (s.regWrite off width val, rcOk, []))) ∧
  (∀ f, Answers 0xC110 f (.moduleReset f)
    (fun _ _ _ => True)
    (fun s => ((s.reply f 0xC110 rcOk []).mrTrigger true, rcLater, []))) ∧
  (∀ f loc, Answers 0xC111 f (.resetTarget f loc)
    (fun _ _ s => s.locExists loc = true ∧ 2 ≤ loc.level ∧ loc.die ≠ 6 ∧ ¬ (loc.clu = 7 ∧ loc.level = 4) ∧ s.svc.mr = .idle ∧ s.svc.resets.any (fun x => scopesMeet x.loc loc) = false ∧ (loc.level == 2 && s.therm.tripped.contains loc.die && (dieSensors loc.die).any s.hot) = false)
    (fun s => (s.resetBegin loc.clean, rcOk, [])))

/-- TRUNK_MAILBOX_FRAME from P0 is accepted for execution, and one already executed has its stored reply sent again; FORWARD_RESEND sends a forwarded frame again up to three times and then answers PEER_TIMEOUT; FORWARDED_REPLY answers the client; an MCTP control message is answered; an opcode outside the command set is answered UNSUPPORTED.
Completion: for every state and operands that meet the stated conditions on them alone, exec answers a next state for trunkMailboxFrame, forwardResend, forwardedReply, mctpControl, unsupportedOpcode, cxlMemoryDeviceCommand. -/
def Obligations.FramesForwarded : Prop :=
  (∀ tp f op, Occurs (.trunkMailboxFrame tp f op)
    (fun s => (s.tp tp).state = .active ∧ s.glob.pstate = .active ∧ s.glob.hrole = 2 ∧ (s.tp tp).peerIdx = 0 ∧ f.fwd = true ∧ f.xport = .trunk ∧ (∀ x, Tbl.find s.mbx.lastFwd f.sid = some x → ¬ (x.1 = f.tag ∧ x.2.1 = f.seq)))
    (fun s => ({ s with mbx := { s.mbx with trunkFrame := some f } } : State))) ∧
  (∀ tp f op x, Occurs (.trunkMailboxFrame tp f op)
    (fun s => (s.tp tp).state = .active ∧ s.glob.pstate = .active ∧ s.glob.hrole = 2 ∧ (s.tp tp).peerIdx = 0 ∧ f.fwd = true ∧ f.xport = .trunk ∧ Tbl.find s.mbx.lastFwd f.sid = some x ∧ x.1 = f.tag ∧ x.2.1 = f.seq)
    (fun s => s.emit (.reply f op x.2.2.1 x.2.2.2 0))) ∧
  (∀ tag w, Occurs (.forwardResend tag)
    (fun s => s.mbx.fwds.find? (fun x => x.frame.tag == tag) = some w ∧ w.resends < 3)
    (fun s => ({ s with mbx := { s.mbx with fwds := s.mbx.fwds.map (fun (x : Fwd) => if x = w then { x with resends := x.resends + 1 } else x) } } : State).emit
        (.forward w.frame.dest { w.frame with fwd := true, fwdRole := w.role, slice := w.slice } w.opcode w.role))) ∧
  (∀ tag w, Occurs (.forwardResend tag)
    (fun s => s.mbx.fwds.find? (fun x => x.frame.tag == tag) = some w ∧ 3 ≤ w.resends)
    (fun s => ({ s with mbx := { s.mbx with fwds := s.mbx.fwds.erase w } } : State).lateReply w.frame w.opcode rcPeerTimeout [])) ∧
  (∀ tp tag rc data w, Occurs (.forwardedReply tp tag rc data)
    (fun s => (s.tp tp).state = .active ∧ s.mbx.fwds.find? (fun x => x.frame.tag == tag && x.frame.dest == (s.tp tp).peerIdx) = some w)
    (fun s => ({ s with mbx := { s.mbx with fwds := s.mbx.fwds.erase w } } : State).lateReply w.frame w.opcode rc data)) ∧
  (∀ x ep arg, Occurs (.mctpControl x ep 1 arg)
    (fun s => s.glob.pstate ≠ .off ∧ (x = .smbus ∨ x = .i3c ∧ s.svc.sbVio = true) ∧ 1 ≤ arg ∧ arg < 255)
    (fun s => ({ s with mbx := { s.mbx with eids := Tbl.set 0 s.mbx.eids (if x = .i3c then 1 else 0) arg } } : State).emit (.mctp x ep 1 0 arg))) ∧
  (∀ x ep arg, Occurs (.mctpControl x ep 2 arg)
    (fun s => s.glob.pstate ≠ .off ∧ (x = .smbus ∨ x = .i3c ∧ s.svc.sbVio = true))
    (fun s => s.emit (.mctp x ep 2 0 (Tbl.get 0 s.mbx.eids (if x = .i3c then 1 else 0))))) ∧
  (∀ f op, Occurs (.unsupportedOpcode f op)
    (fun s => s.reachable f op = true)
    (fun s => s.reply f op rcUnsup [])) ∧
  (∀ p op, Occurs (.cxlMemoryDeviceCommand p op)
    (fun s => s.isUp p = true ∧ (s.port p).up = true)
    (fun s => s.emit (.cxlMbx p op (decide (op < 0xC000)))))

/-- PORT_MAP_GET answers the committed map and the map in flash; PORT_MAP_COMMIT takes a legal map of 16 entries whose changed groups have no busy port; PORT_ENABLE lets a port leave DETECT and PORT_DISABLE makes it depart and stay there; PORT_STATUS answers width, rate, partner, IDE and power state; PORT_SET stores timeouts within the ranges of Table 4.5 and in the orders of R303 and R397; PORT_RESET journals and resets a port no running reset meets.
Completion: for every state and operands that meet the stated conditions on them alone, exec answers a next state for portMapGet, portMapCommit, portEnable, portDisable, portStatus, portSet, portReset. -/
def Obligations.PortCommands : Prop :=
  (∀ f, Answers 0xC200 f (.portMapGet f)
    (fun _ _ _ => True)
    (fun s => (s, rcOk, (List.range 16).map (mapEntry s.ports.map) ++ (List.range 16).map (mapEntry s.ports.flash)))) ∧
  (∀ f map, Answers 0xC201 f (.portMapCommit f map)
    (fun _ _ s => map.length = 16 ∧ mapOk s.glob.isMA (mapOf map) = true ∧ s.locked 3 = false ∧ ∀ g ∈ mapDiff s.ports.map (mapOf map), ∀ p ∈ (List.range 4).map (4 * g + ·), s.portBusy p = false)
    (fun s => (s.mapCommit (mapOf map), rcOk, []))) ∧
  (∀ f port, Answers 0xC202 f (.portEnable f port)
    (fun _ _ s => port < 64 ∧ s.isPort port = true)
    (fun s => (s.modPort port (fun x => { x with enabled := true }), rcOk, []))) ∧
  (∀ f port, Answers 0xC203 f (.portDisable f port)
    (fun _ _ s => port < 64 ∧ s.isPort port = true ∧ s.evacPort port = false)
    (fun s => (s.portDisable port, rcOk, []))) ∧
  (∀ f port, Answers 0xC204 f (.portStatus f port)
    (fun _ _ s => port < 64 ∧ s.isPort port = true)
    (fun s => 
      let x := s.port port
      (s, rcOk, [port, x.width, x.rate, x.flitMode, ((s.partner port).map (fun y => y.kind)).getD 0, b2n x.ide, x.lanes.code, b2n x.enabled, b2n x.fenced, x.linkErrs]))) ∧
  (∀ f port ds fl us aspm l0p cont, Answers 0xC205 f (.portSet f port ds fl us aspm l0p cont)
    (fun _ _ s => port < 64 ∧ s.isPort port = true ∧ ds.all (fun v => decide (50 ≤ v ∧ v ≤ 64000) && s.isDown port) = true ∧ fl.all (fun v => decide (1 ≤ v ∧ v ≤ 255) && s.isDown port) = true
      ∧ us.all (fun v => decide (1000 ≤ v ∧ v ≤ 256000) && s.isUp port) = true ∧ (s.portSet port ds fl us aspm l0p cont).timeoutsOk = true ∧ (s.portSet port ds fl us aspm l0p cont).gatesOk = true)
    (fun s => (s.portSet port ds fl us aspm l0p cont, rcOk, []))) ∧
  (∀ f port, Answers 0xC208 f (.portReset f port)
    (fun _ _ s => port < 64 ∧ s.isPort port = true ∧ s.svc.mr = .idle ∧ s.svc.resets.any (fun x => (s.locPorts x.loc).contains port && decide (2 ≤ x.loc.level)) = false)
    (fun s => ((s.journal { type := 5, status := 0, code := 7, opid := 0, position := 0, arg := (s.portLoc port).toNat, time := 0 }).portReset port, rcOk, [])))

/-- PORT_EQ_SET writes the equalisation settings of the lanes a location names and PORT_EQ_STATUS answers those of one lane, for a location that exists and names lanes; PORT_BLOCK_READ answers a block register and PORT_BLOCK_WRITE writes one, where the location names a block that has that register and, for a trunk port, WINDOW is 10 to 1,000 and the hold time keeps the orders of R303.
Completion: for every state and operands that meet the stated conditions on them alone, exec answers a next state for portEqSet, portEqStatus, portBlockRead, portBlockWrite. -/
def Obligations.LanesAndBlocks : Prop :=
  (∀ f loc whole val, Answers 0xC206 f (.portEqSet f loc whole val)
    (fun _ _ s => s.locExists loc = true ∧ laneShape loc = true ∧ (loc.clu = 6 ∨ s.eqLanes loc whole ≠ []))
    (fun s => (s.eqSet loc whole val, rcOk, []))) ∧
  (∀ f loc, Answers 0xC207 f (.portEqStatus f loc)
    (fun _ _ s => s.locExists loc = true ∧ laneShape loc = true)
    (fun s => (s, rcOk, [if loc.clu = 6 then (Tbl.get (0 : Reg32) s.ports.teqStat (4 * loc.k + loc.unit)).toNat else (Tbl.get (0 : Reg32) s.ports.eqStat loc.lane).toNat]))) ∧
  (∀ f loc reg v, Answers 0xC209 f (.portBlockRead f loc reg)
    (fun _ _ s => s.locExists loc = true ∧ s.blockRead loc reg = some v)
    (fun s => (s, rcOk, [v]))) ∧
  (∀ f loc reg val v, Answers 0xC20A f (.portBlockWrite f loc reg val)
    (fun _ _ s => s.locExists loc = true ∧ s.blockRead loc reg = some v ∧ (loc.clu = 6 → reg = 1 → 10 ≤ bits val 9 0 ∧ bits val 9 0 ≤ 1000)
      ∧ (loc.clu = 6 → reg = 0 → (s.modTp loc.k (fun x => { x with ctl := trunkCtlWrite val })).timeoutsOk = true))
    (fun s => (s.blockWrite loc reg val, rcOk, [])))

/-- PARTNER_LIST answers each partner with the time left of its departure timer; PARTNER_EVENT_GET answers and removes the oldest records, an EVENT_LOST record first after an overflow; PARTNER_SET stores departure timer, snoop timeout and AUTO_ADD within their ranges and orders; PARTNER_RELEASE ends a running departure timer at once; EVACUATE_PARTNER starts the evacuation of an attached expander onto free extents elsewhere.
Completion: for every state and operands that meet the stated conditions on them alone, exec answers a next state for partnerList, partnerEventGet, partnerSet, partnerRelease, evacuatePartner. -/
def Obligations.PartnerCommands : Prop :=
  (∀ f, Answers 0xC301 f (.partnerList f)
    (fun _ _ _ => True)
    (fun s => (s, rcOk, s.pool.partner.flatMap (fun e => [e.1, e.2.kind, e.2.index, e.2.serial.getD 0, e.2.capacity, e.2.excess,
      match e.2.timerEnd with | some t => (t - s.now) / msTicks 1 + 1 | none => 0])))) ∧
  (∀ f count, Answers 0xC302 f (.partnerEventGet f count)
    (fun _ _ s => s.pool.evLost = none)
    (fun s => ({ s with pool := { s.pool with events := s.pool.events.drop count, evLost := none } }, rcOk, (s.pool.events.take count).map PRec.pack))) ∧
  (∀ f count n q t, Answers 0xC302 f (.partnerEventGet f count)
    (fun _ _ s => s.pool.evLost = some (n, q, t) ∧ 1 ≤ count)
    (fun s => 
      let lost : PRec := { ident := 0, time := t, loc := 0, ext := 0, next := 0, detail := min 65535 n, kind := 0, extV := false, index := 0xFF, port := 0xFF, seq := q, code := 0x11 }
      ({ s with pool := { s.pool with events := s.pool.events.drop (count - 1), evLost := none } }, rcOk, (lost :: s.pool.events.take (count - 1)).map PRec.pack))) ∧
  (∀ f port timer snoop auto, Answers 0xC303 f (.partnerSet f port timer snoop auto)
    (fun _ _ s => (port < 64 ∨ (0x40 ≤ port ∧ port ≤ 0x47)) ∧ timer.all (fun v => decide (100 ≤ v ∧ v ≤ 60000)) = true ∧ snoop.all (fun v => decide (1000 ≤ v ∧ v ≤ 256000)) = true
      ∧ (s.partnerSet port timer snoop auto).timeoutsOk = true ∧ (s.partnerSet port timer snoop auto).gatesOk = true)
    (fun s => (s.partnerSet port timer snoop auto, rcOk, []))) ∧
  (∀ f port x, Answers 0xC304 f (.partnerRelease f port)
    (fun _ _ s => s.partner port = some x ∧ x.leaving = false ∧ x.timerEnd.isSome = true)
    (fun s => (s.expire port, rcOk, []))) ∧
  (∀ f port ch share stall passes mask x, Answers 0xC310 f (.evacuatePartner f port ch share stall passes mask)
    (fun _ _ s => s.partner port = some x ∧ x.timerEnd = none ∧ x.leaving = false ∧ s.opRunning 3 = false ∧ x.kind = 3 ∧ ch ≤ 63 ∧ share ≤ 255
      ∧ (stall = 0 ∨ (16 ≤ stall ∧ stall ≤ 1024)) ∧ (passes = 0 ∨ (2 ≤ passes ∧ passes ≤ 32)) ∧ s.extsOf port (fun st => st == .carve) = [] ∧ (s.chan ch).slice = none ∧ (s.chan ch).fwJob = false
      ∧ (s.evacTodo port).length ≤ (s.pool.ext.filter (fun e => e.2.state == .free && e.2.port != port && (mask == 0 || bit mask e.2.port))).length)
    (fun s => 
      let s1 := (s.extsOf port (fun st => st == .free)).foldl (fun s e => s.modExt e (fun x => { x with state := .absent })) s
      let op := s1.startOp 3 0xC310 (s.evacTodo port).length
      let s2 := op.1.modCh ch (fun c => { c with fwJob := true, share := if share = 0 then 128 else share })
      (s2.evacNext { port := port, ch := ch, share := share, stallPages := stall, maxPasses := passes, mask := mask, e := 0, f := 0, prev := .bound, step := 0, pass := 0, guards := 0, skipped := (s.extsOf port (fun st => st == .failed)).length, stallAt := 0 }, rcBg, [op.2])))

/-- A copy pass that leaves few enough dirty pages begins the write stall and writes the extent's cached lines back; with more it begins another pass, or ends the evacuation after its last one. Once admitted writes have drained the final pass begins; at its end the two extents exchange their backing between EVAC_INTENT and EVAC_PAIR and the next extent begins. The guard of the stall returns to copying once, and the second time ends the evacuation.
Completion: for every state and operands that meet the stated conditions on them alone, exec answers a next state for evacPassDone, evacStallDrained, evacFinalPassDone, evacStallGuard. -/
def Obligations.EvacuationSteps : Prop :=
  (∀ v, Occurs (.evacPassDone v.e)
    (fun s => s.pool.evac = some v ∧ v.step = 2 ∧ (s.emit (.evacCopy v.e v.f v.pages)).evacHarvest.1.length ≤ s.stallLimit v)
    (fun s => 
      let h := (s.emit (.evacCopy v.e v.f v.pages)).evacHarvest
      let s1 : State := { h.2 with pool := { h.2.pool with evac := some { v with pass := v.pass + 1, step := 4, stallAt := s.now, pages := some h.1 } } }
      (h.2.keeper.alc.filter (fun c => h.2.homed (c.line * 64) && extOf (c.line * 64) == v.e)).foldl (fun s c => s.alcFlush c.line) s1)) ∧
  (∀ v, Occurs (.evacPassDone v.e)
    (fun s => s.pool.evac = some v ∧ v.step = 2 ∧ s.stallLimit v < (s.emit (.evacCopy v.e v.f v.pages)).evacHarvest.1.length ∧ v.pass + 1 < (if v.maxPasses = 0 then 8 else v.maxPasses))
    (fun s => 
      let h := (s.emit (.evacCopy v.e v.f v.pages)).evacHarvest
      ({ h.2 with pool := { h.2.pool with evac := some { v with pass := v.pass + 1, pages := some h.1 } } } : State))) ∧
  (∀ v, Occurs (.evacPassDone v.e)
    (fun s => s.pool.evac = some v ∧ v.step = 2 ∧ s.stallLimit v < (s.emit (.evacCopy v.e v.f v.pages)).evacHarvest.1.length ∧ (if v.maxPasses = 0 then 8 else v.maxPasses) ≤ v.pass + 1)
    (fun s => (s.emit (.evacCopy v.e v.f v.pages)).evacHarvest.2.evacEnd 3 false)) ∧
  (∀ v, Occurs (.evacStallDrained v.e)
    (fun s => s.pool.evac = some v ∧ v.step = 4 ∧ s.evacBusy v = false)
    (fun s => 
      let h := s.evacHarvest
      ({ h.2 with pool := { h.2.pool with evac := some { v with step := 5, pages := some (addAll h.1 (v.pages.getD [])) } } } : State))) ∧
  (∀ v o, Occurs (.evacFinalPassDone)
    (fun s => s.pool.evac = some v ∧ v.step = 5 ∧ Tbl.find s.mbx.ops 3 = some o)
    (fun s => 
      let x := s.ext v.e
      let y := s.ext v.f
      let j : JRec := { type := 2, status := 0, code := 0xC310, opid := o.opid, position := v.e, arg := y.port * 65536 + y.dpa, time := 0 }
      let s2 := (((s.emit (.evacCopy v.e v.f v.pages)).journal j).modExt v.e (fun z => { z with port := y.port, dpa := y.dpa, partner := y.partner, state := v.prev })).modExt v.f
        (fun z => { z with port := x.port, dpa := x.dpa, partner := x.partner, state := .absent })
      (((s2.bindGen.pevent 0xD v.port v.pass (some (v.e, 1))).journal { j with type := 3 }).posOp 3 (o.pos + 1)).evacNext v)) ∧
  (∀ v, Occurs (.evacStallGuard)
    (fun s => s.pool.evac = some v ∧ 4 ≤ v.step ∧ v.guards = 0)
    (fun s => ({ s with pool := { s.pool with evac := some { v with step := 2, pass := 0, guards := 1, pages := none }, dirty := [] } } : State))) ∧
  (∀ v, Occurs (.evacStallGuard)
    (fun s => s.pool.evac = some v ∧ 4 ≤ v.step ∧ 1 ≤ v.guards)
    (fun s => s.evacEnd 3 false))

/-- BIND_ADD of extents homed here binds them and creates the entries, valid or pending the host's answer; with extents of another home it asks that home first and answers later. BIND_RELEASE of a valid entry tells a dynamic-capacity host to release it; with FORCE it tells the host it is gone, begins the removal and answers at its end. BIND_TABLE_GET answers every entry; BIND_PASSTHRU binds a free bridge of a host in SWITCH mode to one logical device of a passed-through partner.
Completion: for every state and operands that meet the stated conditions on them alone, exec answers a next state for bindAdd, bindRelease, bindTableGet, bindPassthru. -/
def Obligations.BindCommands : Prop :=
  (∀ f host es, Answers 0xC401 f (.bindAdd f host es)
    (fun _ _ s => s.hostCheck host = none ∧ s.leaving = false ∧ s.decodes = true ∧ (∀ b ∈ es, s.bindShape (((s.hostPort host).bind s.partner).map (fun x => x.kind) |>.getD 1) b = true ∧ (b.home = 15 ∨ b.home = s.glob.midx)) ∧ s.bindFree host es = true
      ∧ (s.entsOf host).length + es.length ≤ 512 ∧ s.homeCheck (reqExts s.glob.midx es) = none)
    (fun s => (((s.homeBind (reqExts s.glob.midx es)).bindPend host es).1, rcOk, ((s.homeBind (reqExts s.glob.midx es)).bindPend host es).2))) ∧
  (∀ f host es, Answers 0xC401 f (.bindAdd f host es)
    (fun _ _ s => s.hostCheck host = none ∧ s.leaving = false ∧ s.decodes = true ∧ (∀ b ∈ es, s.bindShape (((s.hostPort host).bind s.partner).map (fun x => x.kind) |>.getD 1) b = true) ∧ s.bindFree host es = true
      ∧ (s.entsOf host).length + es.length ≤ 512 ∧ s.opRunning 11 = false ∧ (∃ b ∈ es, b.home ≠ 15 ∧ b.home ≠ s.glob.midx)
      ∧ (∀ b ∈ es, b.home = 15 ∨ b.home = s.glob.midx ∨ (s.hier.members.any (fun x => x.idx == b.home) = true ∧ s.hier.lost.contains b.home = false)) ∧ s.homeCheck (reqExts s.glob.midx es) = none)
    (fun s => (s.askHomes { frame := f, op := 0xC401, arg := host, binds := es, done := [], tries := 0, asks := (es.filter (fun b => b.home != 15 && b.home != s.glob.midx)).map (fun b => { home := b.home, kind := 0, ext := b.fext, n := b.nm1 + 1 }) }, rcLater, []))) ∧
  (∀ f host n e, Answers 0xC402 f (.bindRelease f host n false)
    (fun _ _ s => s.hostCheck host = none ∧ n < 512 ∧ Tbl.find s.pool.ent (512 * host + n) = some e ∧ e.state = .valid ∧ ((s.hostPort host).bind s.partner).any (fun x => x.kind == 2) = false)
    (fun s => (({ s with pool := { s.pool with ent := Tbl.put s.pool.ent (512 * host + n) { e with state := .releasePending, since := s.now } } } : State).emit (.dcEvent host 1 n), rcOk, []))) ∧
  (∀ f host n e, Answers 0xC402 f (.bindRelease f host n true)
    (fun _ _ s => s.hostCheck host = none ∧ n < 512 ∧ Tbl.find s.pool.ent (512 * host + n) = some e ∧ (e.state = .valid ∨ e.state = .releasePending) ∧ ((s.hostPort host).bind s.partner).any (fun x => x.kind == 2) = false)
    (fun s => 
      let s1 := (s.emit (.dcEvent host 2 n)).removeStart host n true
      ({ s1 with pool := { s1.pool with forced := s1.pool.forced ++ [(host, n, f)] } }, rcLater, []))) ∧
  (∀ f host, Answers 0xC403 f (.bindTableGet f host)
    (fun _ _ s => (s.hostPort host).isSome = true)
    (fun s => (s, rcOk, (s.entsOf host).flatMap (fun e => [e.1, e.2.pack, e.2.report])))) ∧
  (∀ f port ld host bridge x, Answers 0xC404 f (.bindPassthru f ⟨port, ld⟩ host bridge)
    (fun _ _ s => s.hostCheck host = none ∧ s.partner port = some x ∧ x.timerEnd = none ∧ x.leaving = false ∧ s.decodes = true ∧ x.kind = 5 ∧ ld < x.lds ∧ s.isSwitch host = true ∧ 1 ≤ bridge ∧ bridge ≤ 15 ∧ Tbl.find s.pool.bridge (16 * host + bridge) = none ∧ s.pool.bridge.any (fun b => b.2 == port + 64 * ld) = false)
    (fun s => ({ s with pool := { s.pool with bridge := Tbl.put s.pool.bridge (16 * host + bridge) (port + 64 * ld) } }, rcOk, [])))

/-- The host's response accepts and declines the extents it names; one unanswered for 10 s is declined; a release it confirms begins the removal of the entry, and one it does not confirm in time becomes a Forced Release; when every recall has answered the removal ends, and a BIND_RELEASE with FORCE answers then.
Completion: for every state and operands that meet the stated conditions on them alone, exec answers a next state for addDynamicCapacityResponse, dcAddTimeout, releaseDynamicCapacity, dcReleaseTimeout, bindingRemovalDone. -/
def Obligations.BindEvents : Prop :=
  (∀ host acc dec, Occurs (.addDynamicCapacityResponse host acc dec)
    (fun s => s.hostLive host = true)
    (fun s => dec.foldl (fun s n => s.dcDecline host n 1) (acc.foldl (fun s n => s.dcAccept host n) s))) ∧
  (∀ host n, Occurs (.dcAddTimeout host n)
    (fun s => s.entState host n = some .addPending ∧ n < 512)
    (fun s => s.dcDecline host n 2)) ∧
  (∀ host n, Occurs (.releaseDynamicCapacity host n)
    (fun s => s.entState host n = some .releasePending ∧ n < 512)
    (fun s => s.removeStart host n true)) ∧
  (∀ host n, Occurs (.dcReleaseTimeout host n)
    (fun s => s.entState host n = some .releasePending ∧ n < 512)
    (fun s => (s.emit (.dcEvent host 2 n)).removeStart host n true)) ∧
  (∀ host n, Occurs (.bindingRemovalDone host n)
    (fun s => s.entState host n = some .removing ∧ n < 512 ∧ s.removeQuiet host n = true ∧ s.pool.forced.find? (fun x => x.1 == host && x.2.1 == n) = none)
    (fun s => s.removeDone host n)) ∧
  (∀ host n x, Occurs (.bindingRemovalDone host n)
    (fun s => s.entState host n = some .removing ∧ n < 512 ∧ s.removeQuiet host n = true ∧ s.pool.forced.find? (fun x => x.1 == host && x.2.1 == n) = some x)
    (fun s => 
      let s1 := s.removeDone host n
      ({ s1 with pool := { s1.pool with forced := s1.pool.forced.erase x } } : State).lateReply x.2.2 0xC402 rcOk []))

/-- POOL_ADD_PARTNER starts adding an expander's capacity, and each zero-fill that ends makes its extent FREE; POOL_STATUS counts the extents; POOL_EXTENT_REVALIDATE returns SUSPECT extents to use and POOL_EXTENT_RELEASE takes SUSPECT and FAILED ones out of every binding; POOL_ALLOC reserves free extents here, or asks another home; POOL_SPILL_SET makes FREE extents the carve-out; a member's request to bind extents of this home is carried out and answered.
Completion: for every state and operands that meet the stated conditions on them alone, exec answers a next state for poolAddPartner, scrubDone, poolStatus, poolExtentRevalidate, poolExtentRelease, poolAlloc, poolSpillSet, homeModuleRequest. -/
def Obligations.PoolCommands : Prop :=
  (∀ f port, Answers 0xC501 f (.poolAddPartner f port)
    (fun _ _ s => s.expanderCheck port = none ∧ s.decodes = true ∧ s.opRunning 5 = false ∧ s.pool.adding.any (fun a => a.1 == port) = false ∧ s.addable port ≠ 0)
    (fun s => ((s.startOp 5 0xC501 (s.addable port)).1.addCapacity port true, rcBg, [(s.startOp 5 0xC501 (s.addable port)).2]))) ∧
  (∀ ext, Occurs (.scrubDone ext)
    (fun s => (s.ext ext).state = .scrub)
    (fun s => 
      let s1 := ((s.emit (.scrubFill (s.ext ext).port ((s.ext ext).dpa * 2 ^ 28))).modExt ext (fun x => { x with state := .free })).bindGen
      (match s1.pool.adding.find? (fun (a : Nat × List Nat × Bool) => a.2.1.contains ext) with
      | some a => s1.addStep a
      | none => s1).releaseStep)) ∧
  (∀ f, Answers 0xC502 f (.poolStatus f)
    (fun _ _ _ => True)
    (fun s => 
      let cnt := fun st => (s.pool.ext.filter (fun e => e.2.state == st)).length
      (s, rcOk, [cnt .free, cnt .bound, cnt .carve, cnt .evacSrc, cnt .evacDst, cnt .suspect, cnt .failed, cnt .scrub, s.decoded] ++ (List.range 64).map (fun p => (s.extsOf p (fun _ => true)).length)))) ∧
  (∀ f ext count, Answers 0xC503 f (.poolExtentRevalidate f ext count)
    (fun _ _ s => 1 ≤ count ∧ ext + count ≤ 65536 ∧ (∀ e ∈ named ext count, (s.partner (s.ext e).port).any (fun p => p.timerEnd.isSome || p.leaving) = false) ∧ (∀ e ∈ named ext count, (s.ext e).state = .suspect))
    (fun s => 
      let s1 := (named ext count).foldl (fun s e => s.modExt e (fun x => { x with state := if x.binds = 0 then .scrub else .bound })) s
      let ps := addAll ((named ext count).map (fun e => (s.ext e).port)) []
      ((ps.flatMap (fun p => (runsOf ((named ext count).filter (fun e => (s.ext e).port == p))).map (fun r => (p, r)))).foldl (fun s y => s.pevent 0xA y.1 0 (some y.2)) s1.bindGen, rcOk, []))) ∧
  (∀ f ext count, Answers 0xC504 f (.poolExtentRelease f ext count)
    (fun _ _ s => 1 ≤ count ∧ ext + count ≤ 65536 ∧ s.opRunning 5 = false ∧ (∀ e ∈ named ext count, (s.ext e).state = .suspect ∨ (s.ext e).state = .failed))
    (fun s => 
      let x := s.startOp 5 0xC504 count
      let s2 := x.1.cutExts (named ext count)
      (({ s2 with pool := { s2.pool with releasing := some (named ext count) } } : State).releaseStep, rcBg, [x.2]))) ∧
  (∀ f m count es, Answers 0xC505 f (.poolAlloc f m count)
    (fun _ _ s => m = s.glob.midx ∧ 1 ≤ count ∧ s.reserve count = some es)
    (fun s => (s.markReserved es, rcOk, es))) ∧
  (∀ f module count, Answers 0xC505 f (.poolAlloc f module count)
    (fun _ _ s => module ≠ s.glob.midx ∧ module ≤ 8 ∧ 1 ≤ count ∧ s.hier.members.any (fun x => x.idx == module) = true ∧ s.hier.lost.contains module = false)
    (fun s => 
(s.askHomes { frame := f, op := 0xC505, arg := module, binds := [], asks := [{ home := module, kind := 2, ext := 0, n := count }], done := [], tries := 0 }, rcLater, []))) ∧
  (∀ f base size high low en, Answers 0xC506 f (.poolSpillSet f base size high low en)
    (fun _ _ s => base + size ≤ 65536 ∧ (4 ≤ size ∨ size = 0 ∧ en = false) ∧ size ≤ 255 ∧ 50 ≤ high ∧ high ≤ 95 ∧ 10 ≤ low ∧ low + 10 ≤ high ∧ (∀ e ∈ named base size, ((s.ext e).state = .free ∨ (s.ext e).state = .carve) ∧ (s.ext e).port = (s.ext base).port
      ∧ (s.partner (s.ext e).port).any (fun p => p.timerEnd.isSome || p.leaving) = false) ∧ (s.xbar.spillQ = [] ∨ (size ≠ 0 ∧ base = s.carveExt ∧ size = bits s.xbar.spillCtl.toNat 39 32)))
    (fun s => 
      let s1 := (s.pool.ext.filter (fun e => e.2.state == .carve && ! (named base size).contains e.1)).foldl (fun s e => s.modExt e.1 (fun x => { x with state := .scrub })) s
      let s2 := (named base size).foldl (fun s e => s.modExt e (fun x => { x with state := .carve })) s1
      (({ s2 with xbar := { s2.xbar with giveUp := false, spillCtl := spillWord base size high low en } } : State).bindGen, rcOk, []))) ∧
  (∀ f base high low, Answers 0xC506 f (.poolSpillSet f base 0 high low false)
    (fun _ _ s => base ≤ 65536 ∧ 50 ≤ high ∧ high ≤ 95 ∧ 10 ≤ low ∧ low + 10 ≤ high ∧ s.xbar.spillQ ≠ [])
    (fun s => (({ s with xbar := { s.xbar with giveUp := true, spillCtl := spillWord s.carveExt (bits s.xbar.spillCtl.toNat 39 32) high low false } } : State).bindGen, rcOk, []))) ∧
  (∀ tp ext count, Occurs (.homeModuleRequest tp 0 ext count)
    (fun s => (s.tp tp).state = .active ∧ s.leaving = false ∧ s.homeCheck (named ext count) = none)
    (fun s => ((s.homeBind (named ext count)).bindGen).emit (.homeReq (s.tp tp).peerIdx (0x100 + rcOk) ext count))) ∧
  (∀ tp ext count es, Occurs (.homeModuleRequest tp 2 ext count)
    (fun s => (s.tp tp).state = .active ∧ s.leaving = false ∧ s.reserve count = some es)
    (fun s => (s.markReserved es).emit (.homeReq (s.tp tp).peerIdx (0x100 + rcOk) ext count)))

/-- SLICE_CREATE keys a free slice by a live host and a non-zero PASID that no slice has; SLICE_SET stores a legal BINDMASK, not while a dirty log is on, and USER_COUNTERS; SLICE_WINDOW_SET stores the posting window and the completion area; SLICE_STATUS answers state and resources, counters as zero while USER_COUNTERS is 0; SLICE_COUNTER_CLEAR zeroes the counters; SLICE_DESTROY releases a slice of non-zero PASID that holds nothing. A TENANT names only its own slice.
Completion: for every state and operands that meet the stated conditions on them alone, exec answers a next state for sliceCreate, sliceSet, sliceDestroy, sliceStatus, sliceCounterClear, sliceWindowSet. -/
def Obligations.SliceLife : Prop :=
  (∀ f host pasid n, Answers 0xC601 f (.sliceCreate f host pasid)
    (fun _ _ s => s.hostCheck host = none ∧ pasid ≠ 0 ∧ pasid < 2 ^ 20 ∧ s.sliceKey host pasid = none ∧ s.sliceFull = false ∧ s.freeSlice = some n)
    (fun s => (s.addSlice host pasid, rcOk, [n]))) ∧
  (∀ f sl0 mask uc x, Answers 0xC602 f (.sliceSet f sl0 mask uc)
    (fun _ _ s => s.slice sl0 = some x ∧ s.hostCheck x.host = none ∧ mask.all (fun m => ! s.maskBad sl0 x m && x.log.isNone) = true)
    (fun s => (s.modSlice sl0 (fun y => { y with mask := (match mask with | some m => addAll m [] | none => y.mask), userCnt := uc.getD y.userCnt }), rcOk, []))) ∧
  (∀ f sl0 x, Answers 0xC603 f (.sliceDestroy f sl0)
    (fun _ _ s => s.slice sl0 = some x ∧ x.pasid ≠ 0 ∧ s.sliceHolds sl0 x = false)
    (fun s => (s.releaseSlice sl0, rcOk, []))) ∧
  (∀ f sl0 x, Answers 0xC604 f (.sliceStatus f sl0)
    (fun r sl s => s.slice sl0 = some x ∧ (r = 4 → sl = sl0))
    (fun s => (s, rcOk, [sl0, x.host, x.pasid, x.cut.toNat, x.state.code, b2n x.userCnt, b2n x.log.isSome, maskOf x.mask, x.window.getD (2 ^ 64 - 1), x.area.getD (2 ^ 64 - 1), b2n x.chan.isSome, maskOf (s.sliceChans sl0)]
        ++ (if x.userCnt then x.counters else List.replicate 8 0) ++ (s.sliceRings sl0).flatMap (fun n => [(s.ring n).slot, n])))) ∧
  (∀ f sl0 x, Answers 0xC613 f (.sliceCounterClear f sl0)
    (fun r sl s => s.slice sl0 = some x ∧ (r = 4 → sl = sl0 ∧ x.userCnt = true))
    (fun s => (s.modSlice sl0 (fun y => { y with cnt := [] }), rcOk, []))) ∧
  (∀ f sl0 win area x, Answers 0xC609 f (.sliceWindowSet f sl0 win area)
    (fun _ _ s => s.slice sl0 = some x ∧ win.all (fun w => s.windowOk sl0 x w) = true ∧ area.all (fun a => decide (a % 4096 = 0) && s.sliceRange sl0 a 4096) = true)
    (fun s => (s.modSlice sl0 (fun y => { y with window := win.orElse (fun _ => y.window), area := area.orElse (fun _ => y.area) }), rcOk, [])))

/-- SLICE_FREEZE of a slice that is not FROZEN makes it FREEZING and answers when it is FROZEN, of a FROZEN slice at once; SLICE_THAW makes a slice that is not FREEZING active again; SLICE_SAVE writes the image of a frozen slice to the address given and SLICE_RESTORE creates a slice from an image. The four SV4100 opcodes act as their SV8650 commands, on the caller's slice and the lowest free channels.
Completion: for every state and operands that meet the stated conditions on them alone, exec answers a next state for sliceFreeze, sliceFreezeV1, sliceThaw, sliceThawV1, sliceSave, sliceSaveV1, sliceRestore, sliceRestoreV1. -/
def Obligations.SliceFreezeAndSave : Prop :=
  (∀ f sl0 x, Answers 0xC605 f (.sliceFreeze f sl0)
    (fun _ _ s => s.slice sl0 = some x ∧ x.state = .frozen)
    (fun s => (s, rcOk, []))) ∧
  (∀ f sl0 x, Answers 0xC605 f (.sliceFreeze f sl0)
    (fun _ _ s => s.slice sl0 = some x ∧ x.state ≠ .frozen)
    (fun s => ((s.modSlice sl0 (fun y => { y with state := .freezing, freezers := y.freezers ++ [(f, 0xC605)] })).freezeCheck sl0, rcLater, []))) ∧
  (∀ f sl0 x, Answers 0xD041 f (.sliceFreezeV1 f sl0)
    (fun _ _ s => s.slice sl0 = some x ∧ x.state ≠ .frozen)
    (fun s => ((s.modSlice sl0 (fun y => { y with state := .freezing, freezers := y.freezers ++ [(f, 0xD041)] })).freezeCheck sl0, rcLater, []))) ∧
  (∀ f sl0 x, Answers 0xC606 f (.sliceThaw f sl0)
    (fun _ _ s => s.slice sl0 = some x ∧ x.state ≠ .freezing)
    (fun s => (s.modSlice sl0 (fun y => { y with state := .active }), rcOk, []))) ∧
  (∀ f sl0 x, Answers 0xD044 f (.sliceThawV1 f sl0)
    (fun _ _ s => s.slice sl0 = some x ∧ x.state ≠ .freezing)
    (fun s => (s.modSlice sl0 (fun y => { y with state := .active }), rcOk, []))) ∧
  (∀ f sl0 own addr, Answers 0xC607 f (.sliceSave f sl0 own addr)
    (fun _ _ s => s.saveCheck sl0 (some own) addr = none)
    (fun s => (s.saveTo sl0 own addr, rcOk, []))) ∧
  (∀ f sl0 own addr, Answers 0xD042 f (.sliceSaveV1 f sl0 addr)
    (fun _ _ s => s.callerSlice f = some own ∧ s.saveCheck sl0 (some own) addr = none)
    (fun s => (s.saveTo sl0 own addr, rcOk, []))) ∧
  (∀ f host pasid addr chmap img n, Answers 0xC608 f (.sliceRestore f host pasid addr chmap img)
    (fun _ _ s => s.restoreCheck host pasid addr (some chmap) img = none ∧ s.freeSlice = some n)
    (fun s => (s.restoreSlice host pasid chmap img, rcOk, [n]))) ∧
  (∀ f host pasid addr img n, Answers 0xD043 f (.sliceRestoreV1 f host pasid addr img)
    (fun _ _ s => s.restoreCheck host pasid addr none img = none ∧ s.freeSlice = some n)
    (fun s => (s.restoreSlice host pasid (((List.range 64).filter (fun c => s.chanFree c)).take img.chans.length) img, rcOk, [n])))

/-- LOG_START turns the log of a slice on over the extents it reaches, in two buffers of its owner, and asks other homes to log theirs; LOG_HARVEST starts a harvest that answers when its barrier, its recalls and the homes asked are done; LOG_STOP turns the log off.
Completion: for every state and operands that meet the stated conditions on them alone, exec answers a next state for logStart, logHarvest, logStop. -/
def Obligations.DirtyLogs : Prop :=
  (∀ f sl0 own b0 b1 x y, Answers 0xC610 f (.logStart f sl0 own b0 b1)
    (fun _ _ s => s.slice sl0 = some x ∧ s.slice own = some y ∧ x.log = none ∧ b0 % 4096 = 0 ∧ b1 % 4096 = 0 ∧ s.sliceRange own b0 (logBytes (s.sliceExts sl0).length) = true ∧ s.sliceRange own b1 (logBytes (s.sliceExts sl0).length) = true)
    (fun s => ((s.modSlice sl0 (fun z => { z with log := some { owner := own, buf0 := b0, buf1 := b1, second := false, exts := s.sliceExts sl0, bits := [] } })).emits
        ((s.remoteRuns (s.sliceExts sl0)).map (fun q => Out.homeReq q.1 3 q.2.1 q.2.2)), rcOk, []))) ∧
  (∀ f sl0 zero rcl g, Answers 0xC611 f (.logHarvest f sl0 zero rcl)
    (fun _ _ s => (s.slice sl0).bind (fun x => x.log) = some g)
    (fun s => 
      let rs := s.remoteRuns g.exts
      let s0 := if zero then s.zeroLog g else s
      let q : HomeReq := { frame := f, op := 0xC611, arg := sl0, binds := [], asks := rs.map (fun q => { home := q.1, kind := if rcl then 8 else 7, ext := q.2.1, n := q.2.2 }), done := [], tries := 0 }
      let s1 := if rs.isEmpty then s0 else s0.askHomes q
      let h : Harvest := { frame := some f, slice := sl0, back := (0, 0, 0), rcl := rcl, begun := false, sweep := none, bits := 0, remote := rs.map (fun q => q.1) }
      ({ s1 with mbx := { s1.mbx with harvests := s1.mbx.harvests ++ [h] } }, rcLater, []))) ∧
  (∀ f sl0 x g, Answers 0xC612 f (.logStop f sl0)
    (fun _ _ s => s.slice sl0 = some x ∧ x.log = some g)
    (fun s => (s.logOff sl0, rcOk, [])))

/-- SLICE_CHAN_SET lays both rings in the slice's memory and zeroes the reply ring; the doorbells move the request tail and free replies; a request is consumed with a reply entry reserved: one of another phase or with more than 240 payload bytes is answered INVALID_PARAM, a ZORNE command waits to be carried out for the slice, a PEER request waits for manager software, which SLICE_CHAN_GET answers and SLICE_CHAN_PUT replies to.
Completion: for every state and operands that meet the stated conditions on them alone, exec answers a next state for sliceChanSet, sliceChanGet, sliceChanPut, schReqDb, schRepDb, sliceChannelRequest. -/
def Obligations.SliceChannels : Prop :=
  (∀ f sl0 qb ql pb pl vec x, Answers 0xC60A f (.sliceChanSet f sl0 qb ql pb pl vec)
    (fun _ _ s => s.slice sl0 = some x ∧ x.chan = none ∧ s.chanRing sl0 qb ql = true ∧ s.chanRing sl0 pb pl = true ∧ vec ≤ 2047)
    (fun s => ((s.modSlice sl0 (fun y => { y with chan := some { reqBase := qb, reqLog := ql, repBase := pb, repLog := pl, vec := vec, reqTail := 0, reqHead := 0, reqPhase := true, repTail := 0, repHead := 0, repPhase := true, repUsed := 0, peers := [], zornes := [] } })).zeroRing sl0 pb (256 * 2 ^ pl), rcOk, []))) ∧
  (∀ f sl0 c, Answers 0xC60B f (.sliceChanGet f sl0)
    (fun _ _ s => s.schan sl0 = some c)
    (fun s => (s, rcOk, (c.peers.take 15).flatMap (fun p => [p.1, p.2.1, p.2.2.length, packBytes p.2.2])))) ∧
  (∀ f sl0 tag st len pay c p, Answers 0xC60C f (.sliceChanPut f sl0 tag st len pay)
    (fun _ _ s => s.schan sl0 = some c ∧ c.peers.find? (fun p => p.1 == tag) = some p ∧ len ≤ 240 ∧ pay.length = len)
    (fun s => ((s.modSchan sl0 (fun c => { c with peers := c.peers.eraseP (fun p => p.1 == tag) })).schReply sl0 tag p.2.1 st len (packBytes pay) false, rcOk, []))) ∧
  (∀ sl0 tail c, Occurs (.schReqDb sl0 tail)
    (fun s => s.running = true ∧ s.schan sl0 = some c ∧ tail < 2 ^ c.reqLog)
    (fun s => s.modSchan sl0 (fun c => { c with reqTail := tail }))) ∧
  (∀ sl0 head c, Occurs (.schRepDb sl0 head)
    (fun s => s.running = true ∧ s.schan sl0 = some c ∧ head < 2 ^ c.repLog ∧ (head + 2 ^ c.repLog - c.repHead) % 2 ^ c.repLog + c.peers.length + c.zornes.length ≤ c.repUsed)
    (fun s => s.modSchan sl0 (fun c => { c with repHead := head, repUsed := c.repUsed - (head + 2 ^ c.repLog - c.repHead) % 2 ^ c.repLog }))) ∧
  (∀ sl0 ph cls op tag len pay x c, Occurs (.sliceChannelRequest sl0 ph cls op tag len pay)
    (fun s => s.glob.pstate = .active ∧ s.slice sl0 = some x ∧ x.state = .active ∧ s.schan sl0 = some c ∧ c.zornes = [] ∧ c.reqHead ≠ c.reqTail ∧ c.repUsed < 2 ^ c.repLog ∧ ph = c.reqPhase ∧ len ≤ 240)
    (fun s => 
      let s1 := s.modSchan sl0 (fun c =>
        let h := (c.reqHead + 1) % 2 ^ c.reqLog
        { c with reqHead := h, reqPhase := if h = 0 then ! c.reqPhase else c.reqPhase, repUsed := c.repUsed + 1 })
      if cls then s1.modSchan sl0 (fun c => { c with zornes := c.zornes ++ [(tag, op)] })
      else (s1.modSchan sl0 (fun c => { c with peers := c.peers ++ [(tag, op, pay.take len)] })).summary 2 0)) ∧
  (∀ sl0 ph cls op tag len pay x c, Occurs (.sliceChannelRequest sl0 ph cls op tag len pay)
    (fun s => s.glob.pstate = .active ∧ s.slice sl0 = some x ∧ x.state = .active ∧ s.schan sl0 = some c ∧ c.zornes = [] ∧ c.reqHead ≠ c.reqTail ∧ c.repUsed < 2 ^ c.repLog ∧ (ph ≠ c.reqPhase ∨ 240 < len))
    (fun s => 
      (s.modSchan sl0 (fun c =>
        let h := (c.reqHead + 1) % 2 ^ c.reqLog
        { c with reqHead := h, reqPhase := if h = 0 then ! c.reqPhase else c.reqPhase, repUsed := c.repUsed + 1 })).schReply sl0 tag op rcParam 0 0 cls))

/-- DMA_CH_SET stores owner, priority, share and watchdog of an idle channel whose slices are ACTIVE; DMA_RING_ASSIGN gives a ring its place, channel and completion ring, a completion ring in use keeping its place and indices; DMA_RING_RELEASE takes a ring that is OFF and idle; DMA_STATUS answers channels, rings and windows; DMA_ALIAS_SET defines or removes a window whose sets are homed here, or asks their homes first; DMA_ALIAS_STATUS answers a window and its bindings.
Completion: for every state and operands that meet the stated conditions on them alone, exec answers a next state for dmaChSet, dmaRingAssign, dmaRingRelease, dmaStatus, dmaAliasSet, dmaAliasStatus. -/
def Obligations.DmaAdmin : Prop :=
  (∀ f ch sl0 prio share wdog, Answers 0xC701 f (.dmaChSet f ch sl0 prio share wdog)
    (fun _ _ s => chanOk ch = true ∧ (∀ n, sl0 = some n → n = 0x1FF ∨ (s.slice n).isSome = true) ∧ prio.all (fun n => decide (n ≤ 7)) = true ∧ share.all (fun n => decide (n ≤ 255)) = true ∧ wdog.all (fun n => decide (n ≤ 60000)) = true
      ∧ s.chanHeld ch = false ∧ s.notActive (s.chan ch).slice = false ∧ s.notActive (sl0.bind (fun n => if n = 0x1FF then none else some n)) = false ∧ s.ringsOfCh ch = [])
    (fun s => (s.modCh ch (fun x => { x with slice := (match sl0 with | some n => if n = 0x1FF then none else some n | none => x.slice), prio := prio.getD x.prio, share := share.getD x.share, wdog := wdog.getD x.wdog }), rcOk, []))) ∧
  (∀ f ring ch slot sb sl0 cq cb cl vec, Answers 0xC702 f (.dmaRingAssign f ring ch slot sb sl0 cq cb cl vec)
    (fun _ _ s => s.ringCheck ring ch slot sb sl0 cq cb cl vec = none ∧ s.ringsOfCq cq = [])
    (fun s => 
      let s1 := s.modRing ring (fun _ => { state := .off, ch := ch, slot := slot, base := sb, log2 := sl0, cq := cq })
      ((s1.modCring cq (fun _ => { slice := (s.chan ch).slice, base := cb, log2 := cl, vec := vec })).zeroRing ((s.chan ch).slice.getD 512) cb (16 * 2 ^ cl), rcOk, []))) ∧
  (∀ f ring ch slot sb sl0 cq cb cl vec, Answers 0xC702 f (.dmaRingAssign f ring ch slot sb sl0 cq cb cl vec)
    (fun _ _ s => s.ringCheck ring ch slot sb sl0 cq cb cl vec = none ∧ s.ringsOfCq cq ≠ [])
    (fun s => ((s.modRing ring (fun _ => { state := .off, ch := ch, slot := slot, base := sb, log2 := sl0, cq := cq })).modCring cq (fun c => { c with vec := vec }), rcOk, []))) ∧
  (∀ f ring, Answers 0xC703 f (.dmaRingRelease f ring)
    (fun _ _ s => ring ≤ 255 ∧ (s.ring ring).state = .off ∧ s.ringIdle ring = true)
    (fun s => 
      let s1 := (s.modRing ring (fun _ => {})).modCh (s.ring ring).ch (fun x => { x with pre := x.pre.filter (fun y => y.ring != ring) })
      (if (s1.ringsOfCq (s.ring ring).cq).isEmpty then s1.modCring (s.ring ring).cq (fun _ => {}) else s1, rcOk, []))) ∧
  (∀ f sl0, Answers 0xC704 f (.dmaStatus f sl0)
    (fun r sl s => (r = 4 → sl = sl0) ∧ (sl0 = 0x1FF ∨ (s.slice sl0).isSome = true))
    (fun s => 
      let cs := if sl0 = 0x1FF then List.range 64 else s.sliceChans sl0
      let rs := if sl0 = 0x1FF then (List.range 256).filter (fun n => (s.ring n).state != .unassigned) else s.sliceRings sl0
      let ws := (List.range 16).filter (fun w => match (s.win w).dfn with | some d => sl0 == 0x1FF || d.owner == sl0 | none => false)
      (s, rcOk, cs.flatMap (fun c => [c, s.chStatus c]) ++ rs.flatMap (fun n => [n, s.ringStatus n, s.cqStatus (s.ring n).cq]) ++ ws.flatMap (fun w => [w, b2n (s.win w).activeB, (s.win w).epoch, b2n (s.win w).step.isSome])))) ∧
  (∀ f win, Answers 0xC705 f (.dmaAliasSet f win none)
    (fun _ _ s => s.aliasCheck win none = none)
    (fun s => (s.aliasWrite win none, rcOk, []))) ∧
  (∀ f win d, Answers 0xC705 f (.dmaAliasSet f win (some d))
    (fun _ _ s => s.aliasCheck win (some d) = none ∧ aliasFar s.glob.midx d = [])
    (fun s => (s.aliasWrite win (some d), rcOk, []))) ∧
  (∀ f win d, Answers 0xC705 f (.dmaAliasSet f win (some d))
    (fun _ _ s => s.aliasCheck win (some d) = none ∧ aliasFar s.glob.midx d ≠ [])
    (fun s => 
      let a : BindReq := { hoffExt := d.owner, home := d.homeA, fext := d.fextA, nm1 := d.next - 1, access := 0, dcr := 0 }
      let b : BindReq := { hoffExt := d.owner, home := d.homeB, fext := d.fextB, nm1 := d.next - 1, access := 0, dcr := 0 }
      (s.askHomes { frame := f, op := 0xC705, arg := win, binds := [a, b], asks := (aliasFar s.glob.midx d).map (fun x => { home := x.1, kind := 6, ext := x.2.1, n := x.2.2 }), done := [], tries := 0 }, rcLater, []))) ∧
  (∀ f win d, Answers 0xC706 f (.dmaAliasStatus f win)
    (fun _ _ s => win ≤ 15 ∧ (s.win win).dfn = some d)
    (fun s => (s, rcOk, [d.next, d.homeA, d.fextA, d.homeB, d.fextB, d.owner, b2n (s.win win).activeB, (s.win win).epoch, b2n (s.win win).step.isSome]
        ++ (s.pool.ent.filter (fun e => e.2.home == 15 && e.2.fext / 4096 == win)).flatMap (fun e => [e.1 / 512, e.1 % 512]))))

/-- A write of a submission or completion doorbell, of EN or ABORT of a ring, and of CH_STOP acts on its ring or channel while the module runs; a ring in DRAIN whose begun descriptors are done enters OFF.
Completion: for every state and operands that meet the stated conditions on them alone, exec answers a next state for dmaSqDb, dmaCqDb, dmaRingCtlEn, dmaRingCtlAbort, chStop, drainDone. -/
def Obligations.DmaDoorbells : Prop :=
  (∀ ring tail, Occurs (.dmaSqDb ring tail)
    (fun s => s.running = true ∧ ring < 256)
    (fun s => s.sqDb ring (tail % 65536))) ∧
  (∀ ring head, Occurs (.dmaCqDb ring head)
    (fun s => s.running = true ∧ ring < 256)
    (fun s => s.cqDb ring (head % 65536))) ∧
  (∀ ring en, Occurs (.dmaRingCtlEn ring en)
    (fun s => s.running = true ∧ ring < 256)
    (fun s => s.ringEn ring en)) ∧
  (∀ ring, Occurs (.dmaRingCtlAbort ring)
    (fun s => s.running = true ∧ ring < 256)
    (fun s => s.ringAbort ring)) ∧
  (∀ ch stop, Occurs (.chStop ch stop)
    (fun s => s.running = true ∧ chanOk ch = true)
    (fun s => s.modCh ch (fun x => { x with stop := stop }))) ∧
  (∀ ring, Occurs (.drainDone ring)
    (fun s => ring < 256 ∧ (s.ring ring).state = .drain ∧ s.begunOf ring = [] ∧ (s.drainList ring = [] ∨ 0 < (s.cring (s.ring ring).cq).free))
    (fun s => s.drainEnd ring))

/-- A channel reads the entry at FETCH of a running ring with something posted, as a shared read that is not recorded, begins the next prefetched descriptor with the status its checks give, reads ahead the next burst of a COPY, FILL, CHECK or ATOMIC, issues the burst that takes the mover once its buckets allow it, and completes the oldest finished descriptor: a NOP or a FENCE when it is that one.
Completion: for every state and operands that meet the stated conditions on them alone, exec answers a next state for descriptorFetch, descriptorBegin, descriptorComplete, nop, fence, copy, fill, check, atomic, burstBegin. -/
def Obligations.DmaDescriptors : Prop :=
  (∀ ch ring i n a, Occurs (.descriptorFetch ch ring i)
    (fun s => (s.ring ring).fetch = i ∧ s.chRuns ch = true ∧ s.chActive ch = true ∧ (s.ring ring).state = .run ∧ (s.ring ring).ch = ch ∧ ring < 256 ∧ (s.chan ch).pre.length + (s.chan ch).fetching.length < 1920 ∧ (s.chan ch).fetching.any (fun y => y.1 == ring) = false ∧ 0 < (s.ring ring).posted ∧ (s.chan ch).slice = some n ∧ s.sliceFpa n ((s.ring ring).base + 64 * (s.ring ring).fetch) = some a)
    (fun s => 
      (s.modCh ch (fun x => { x with fetching := x.fetching ++ [(ring, lineOf a.2)] })).cross (clusterPoint ch)
        { kind := .rds, r := { src := .dma ch, fpa := lineOf a.2 * 64, nt := true, mask := 0, data := 0 }, record := 0, nextRec := 0 } .clean)) ∧
  (∀ ch n g, Occurs (.descriptorBegin ch)
    (fun s => s.chRuns ch = true ∧ s.chActive ch = true ∧ (s.chan ch).stop = false ∧ (s.chan ch).cur = none ∧ s.nextRing ch = some n ∧ (s.chan ch).pre.find? (fun e => e.ring == n) = some g)
    (fun s => 
      let b : Begun := { ring := n, idx := g.idx, desc := g.desc, num := s.dma.nextNum, at_ := s.now, pos := 0, done := 0, status := s.beginStatus g, issued := s.beginStatus g != 0 || dOpcode g.desc == 0 || dOpcode g.desc == 6, bursts := [], nburst := 0, crc := 0, applied := 0, refused := 0, taken := 0, releases := 0, recs := [], form := none, committed := false }
      let s1 := s.modCh ch (fun x => { x with begun := x.begun ++ [b], pre := x.pre.erase g, last := some (n, g.idx), wdogNow := max 1 x.wdog, staging := [] })
      let s2 := s1.modCring (s.ring n).cq (fun c => { c with reserved := c.reserved + 1 })
      { s2 with dma := { s2.dma with nextNum := s2.dma.nextNum + 1 } })) ∧
  (∀ ch b, Occurs (.descriptorComplete ch)
    (fun s => s.running = true ∧ s.nextDone ch = some b)
    (fun s => s.complete ch b)) ∧
  (∀ ch b, Occurs (.nop ch)
    (fun s => s.running = true ∧ s.nextDone ch = some b ∧ dOpcode b.desc = 0)
    (fun s => s.complete ch b)) ∧
  (∀ ch b, Occurs (.fence ch)
    (fun s => s.running = true ∧ s.nextDone ch = some b ∧ dOpcode b.desc = 6)
    (fun s => s.complete ch b)) ∧
  (∀ ch b n, Occurs (.copy ch)
    (fun s => s.chRuns ch = true ∧ (s.chan ch).cur = some b ∧ dOpcode b.desc = 1 ∧ b.canForm = true ∧ (s.chan ch).slice = some n)
    (fun s => s.formBurst ch n b)) ∧
  (∀ ch b n, Occurs (.fill ch)
    (fun s => s.chRuns ch = true ∧ (s.chan ch).cur = some b ∧ dOpcode b.desc = 2 ∧ b.canForm = true ∧ (s.chan ch).slice = some n)
    (fun s => s.formBurst ch n b)) ∧
  (∀ ch b n, Occurs (.check ch)
    (fun s => s.chRuns ch = true ∧ (s.chan ch).cur = some b ∧ dOpcode b.desc = 3 ∧ b.canForm = true ∧ (s.chan ch).slice = some n)
    (fun s => s.formBurst ch n b)) ∧
  (∀ ch b n, Occurs (.atomic ch)
    (fun s => s.chRuns ch = true ∧ (s.chan ch).cur = some b ∧ dOpcode b.desc = 4 ∧ b.canForm = true ∧ (s.chan ch).slice = some n)
    (fun s => s.formBurst ch n b)) ∧
  (∀ ch b g, Occurs (.burstBegin ch)
    (fun s => s.burstReady ch = true ∧ (s.burstAllowed ch = false ∨ s.moverPick (ch / 8) = some ch) ∧ (s.chan ch).cur = some b ∧ b.form = some g)
    (fun s => 
      let x := s.burstCharge b g
      let r := s.charge (s.chan ch).slice x.1 x.2.1 x.2.2 (.burst ch)
      if r.2 then r.1.burstGo ch else r.1))

/-- A FLIP at the head of its channel whose window is defined and owned by its slice begins step 1, or with nothing to change writes the epoch word; steps 2 to 7 follow one by one, the commit exchanging the active set and advancing EPOCH, the last writing the epoch word and completing the descriptor. A DREQ edge releases every paced descriptor in progress that selects the input; the watchdog stops a descriptor with WATCHDOG and reports it.
Completion: for every state and operands that meet the stated conditions on them alone, exec answers a next state for flip, flipPrepare, flipCommit, flipDrainDone, flipSweepDone, dreqEdge, dmaWatchdog. -/
def Obligations.DmaFlips : Prop :=
  (∀ ch b n d fpa, Occurs (.flip ch)
    (fun s => s.chRuns ch = true ∧ s.flipDue ch = some (b, n) ∧ (s.win (dfld b.desc 419 416)).dfn = some d ∧ d.owner = n ∧ s.epochPlace n b.desc = .ok fpa ∧ bit b.desc.toNat 424 ≠ (s.win (dfld b.desc 419 416)).activeB)
    (fun s => (s.setBegun ch { b with issued := true }).modWin (dfld b.desc 419 416)
        (fun x => { x with flip := some (ch, b.ring, b.idx, fpa, bit b.desc.toNat 424), step := some 1, sweep := none, told := false, olds := [] }))) ∧
  (∀ ch b n d fpa, Occurs (.flip ch)
    (fun s => s.chRuns ch = true ∧ s.flipDue ch = some (b, n) ∧ (s.win (dfld b.desc 419 416)).dfn = some d ∧ d.owner = n ∧ s.epochPlace n b.desc = .ok fpa ∧ bit b.desc.toNat 424 = (s.win (dfld b.desc 419 416)).activeB)
    (fun s => (s.setBegun ch { b with issued := true }).epochWrite ch fpa (s.win (dfld b.desc 419 416)).epoch)) ∧
  (∀ w, Occurs (.flipPrepare w)
    (fun s => (s.win w).step = some 1 ∧ s.running = true ∧ s.dma.parked = false)
    (fun s => s.modWin w (fun x => { x with step := some 2 }))) ∧
  (∀ w g d, Occurs (.flipCommit w)
    (fun s => (s.win w).step = some 2 ∧ s.running = true ∧ s.dma.parked = false ∧ (s.win w).flip = some g ∧ (s.win w).dfn = some d)
    (fun s => 
      let old := (s.win w).activeB
      let olds := (s.keeper.txns.map (fun t => t.q)).filter (fun q => setHas d old q.r.fpa) ++ (s.keeper.cq ++ s.xbar.reqs).filter (fun q => setHas d old q.r.fpa)
      (s.modWin w (fun x => { x with step := some 3, activeB := g.2.2.2.2, epoch := (x.epoch + 1) % 2 ^ 63, olds := olds.map (fun q => (lineOf q.r.fpa, q.r.src)) })).modCh g.1
        (fun c => { c with begun := c.begun.map (fun b => if b.ring = g.2.1 ∧ b.idx = g.2.2.1 then { b with committed := true } else b) }))) ∧
  (∀ w d, Occurs (.flipDrainDone w)
    (fun s => (s.win w).step = some 3 ∧ s.running = true ∧ s.flipDrained w = true ∧ (s.win w).dfn = some d)
    (fun s => 
      let x := s.sweepStart 2 w (fun fpa => setHas d (! (s.win w).activeB) fpa) (fun a => ! a.isMod) false false
      x.1.modWin w (fun y => { y with step := some 4, sweep := some x.2 }))) ∧
  (∀ w g n, Occurs (.flipSweepDone w)
    (fun s => (s.win w).step = some 4 ∧ s.running = true ∧ s.dma.parked = false ∧ (s.win w).sweep = some n ∧ s.sweepQuiet n = true ∧ (s.win w).flip = some g)
    (fun s => 
      let s1 := s.sweepEnd n
      let s2 := match (s1.chan g.1).begun.find? (fun b => b.ring == g.2.1 && b.idx == g.2.2.1) with
        | some b => if (s.win w).told then s1 else s1.complete g.1 b
        | none => s1
      (s2.epochWrite g.1 g.2.2.2.1 (s.win w).epoch).modWin w (fun x => { x with step := none, flip := none, sweep := none, olds := [], told := false }))) ∧
  (∀ n, Occurs (.dreqEdge n)
    (fun s => n < 16 ∧ s.running = true ∧ s.dma.parked = false)
    (fun s => 
      let s0 : State := { s with dma := { s.dma with dreq := s.dma.dreq ||| ((1 : BitVec 16) <<< n) } }
      (List.range 64).foldl (fun s c => match (s.chan c).cur with
        | some b =>
          if dPace b.desc ∧ moves (dOpcode b.desc) ∧ dfld b.desc 11 8 = n then
            (if 255 ≤ b.releases then s.dmaEvent 12 b.ring c else s.setBegun c { b with releases := b.releases + 1 })
          else s
        | none => s) s0)) ∧
  (∀ ch b, Occurs (.dmaWatchdog ch)
    (fun s => chanOk ch = true ∧ s.running = true ∧ s.dma.parked = false ∧ (s.chan ch).watched = some b ∧ s.nextDone ch ≠ some b)
    (fun s => 
      let g := fun (_ : Nat) (w : Window16) => match w.flip, w.step with
        | some fl, some st => if fl.1 = ch ∧ fl.2.1 = b.ring ∧ fl.2.2.1 = b.idx then (if st < 3 then { w with flip := none, step := none } else { w with told := true }) else w
        | _, _ => w
      let s1 : State := { s with dma := { s.dma with win := Tbl.mapv {} g s.dma.win }, shape := { s.shape with waiting := s.shape.waiting.filter (fun w => ! (w.work == .burst ch && ! b.issued)) } }
      let s2 := if b.issued then s1.setBegun ch { b with status := 0xB } else s1.stopDesc ch b 0xB
      (s2.dmaEvent 13 b.ring ch).fault 0x010E (s.chLoc ch) 0xFF))

/-- WARD_REGION_SET writes a region that fits in the shadow and both inactive banks while no copying runs; WARD_REGION_GET answers it in force and in shadow; WARD_CUT_SET stages a cut; WARD_COMMIT, and a write of WARD_COMMIT with GO, request the commit of an epoch, and the command answers OK for the next epoch and INVALID_PARAM for another; WARD_STATUS_GET answers the registers of Table 9.12 and the flagged regions.
Completion: for every state and operands that meet the stated conditions on them alone, exec answers a next state for wardRegionSet, wardRegionGet, wardCutSet, wardCommit, wardStatusGet, wardCommitGo. -/
def Obligations.WardCommands : Prop :=
  (∀ f n x, Answers 0xC801 f (.wardRegionSet f n x)
    (fun _ _ s => n < 4096 ∧ regionFits x = true ∧ s.ward.copying = false)
    (fun s => ({ s with ward := { s.ward with shadow := Tbl.set {} s.ward.shadow n x, bank0 := Tbl.set {} s.ward.bank0 n x, bank1 := Tbl.set {} s.ward.bank1 n x } }, rcOk, []))) ∧
  (∀ f n, Answers 0xC802 f (.wardRegionGet f n)
    (fun _ _ _ => n < 4096)
    (fun s => (s, rcOk, [regionPack (Tbl.get ({} : Region) s.ward.now n), regionPack (Tbl.get ({} : Region) s.ward.shadow n)]))) ∧
  (∀ f i cut, Answers 0xC803 f (.wardCutSet f true i cut)
    (fun _ _ _ => i < 16)
    (fun s => ({ s with ward := { s.ward with stDev := Tbl.put s.ward.stDev i cut } }, rcOk, []))) ∧
  (∀ f i cut, Answers 0xC803 f (.wardCutSet f false i cut)
    (fun _ _ s => (s.slice i).isSome = true)
    (fun s => ({ s with ward := { s.ward with stSlice := Tbl.put s.ward.stSlice i cut } }, rcOk, []))) ∧
  (∀ f t, Answers 0xC804 f (.wardCommit f t)
    (fun _ _ _ => True)
    (fun s => (s.wardRequest t, if t = s.nextEpoch then rcOk else rcParam, []))) ∧
  (∀ f, Answers 0xC805 f (.wardStatusGet f)
    (fun _ _ _ => True)
    (fun s => let s := s.tvFixAll [4, 5, 6, 7]
      (s, rcOk, [s.ward.ctl0.maj.toNat, s.ward.tgt0.maj.toNat % 2 ^ 32 * 2 ^ 32, s.ward.epoch, s.wardDrain, s.wardStatus, s.wardAudit, s.ward.event.read.toNat] ++ s.ward.flagged))) ∧
  (∀ t go, Occurs (.wardCommitGo t go)
    (fun s => s.running = true)
    (fun s => s.wardCommitWrite t go))

/-- The oldest accepted commit passes step 2 when both inactive banks equal the shadow, and is refused when they do not; the switch takes the new table, the staged cuts and WARD_CTL into force and advances WARD_EPOCH; when copying ends, the shadow and the inactive banks equal the table in force.
Completion: for every state and operands that meet the stated conditions on them alone, exec answers a next state for wardCommitCheck, wardSwitch, wardCopyDone. -/
def Obligations.WardSteps : Prop :=
  (Occurs (.wardCommitCheck)
    (fun s => s.running = true ∧ s.ward.accepted ≠ [] ∧ s.ward.checked = false ∧ s.ward.copying = false ∧ s.wardHeld = false ∧ s.ward.bank0 = s.ward.shadow ∧ s.ward.bank1 = s.ward.shadow)
    (fun s => ({ s with ward := { s.ward with checked := true, flagged := s.auditList, auditEpoch := (s.ward.epoch + 1) % 2 ^ 32 } } : State))) ∧
  (Occurs (.wardCommitCheck)
    (fun s => s.running = true ∧ s.ward.accepted ≠ [] ∧ s.ward.checked = false ∧ s.ward.copying = false ∧ s.wardHeld = false ∧ ¬ (s.ward.bank0 = s.ward.shadow ∧ s.ward.bank1 = s.ward.shadow))
    (fun s => s.wardRefuse)) ∧
  (Occurs (.wardSwitch)
    (fun s => s.running = true ∧ s.ward.checked = true)
    (fun s => 
      let w := s.applyCuts.ward
      let s2 : State := { s.applyCuts with ward := { w with now := w.bank0, bank0 := w.now, bank1 := w.now, ctlNow := w.ctl0.maj, epoch := (w.epoch + 1) % 2 ^ 32, accepted := w.accepted.drop 1, checked := false, copying := true } }
      if s2.ward.flagged.isEmpty then s2 else s2.wardEvent 20 0 0)) ∧
  (Occurs (.wardCopyDone)
    (fun s => s.running = true ∧ s.ward.copying = true)
    (fun s => ({ s with ward := { s.ward with shadow := s.ward.now, bank0 := s.ward.now, bank1 := s.ward.now, copying := false } } : State)))

/-- SHAPE_BKT_SET configures a bucket that exists with values in range and lets the charges go that it no longer holds; SHAPE_BKT_GET answers its configuration and tokens, to a TENANT only its own slice's; SHAPE_STATUS answers queue occupancies and the buckets with waiting charges; the oldest charge waiting on a bucket proceeds when its buckets allow it; a request enters a shaping queue that holds fewer than 256.
Completion: for every state and operands that meet the stated conditions on them alone, exec answers a next state for shapeBktSet, shapeBktGet, shapeStatus, chargeProceed, shapingQueueEntry. -/
def Obligations.Shaping : Prop :=
  (∀ f agg sl0 b cfg, Answers 0xC901 f (.shapeBktSet f agg sl0 b cfg)
    (fun _ _ s => s.bktExists agg sl0 b = true ∧ s.bktRefused agg sl0 b cfg = false ∧ ¬ (0x47 < bits cfg.toNat 59 53 ∧ bits cfg.toNat 59 53 < 0x7F))
    (fun s => 
      let k := bktKey agg sl0 b
      let new := (s.bucket k).configure cfg
      let s1 := s.putBucket k new
      let s2 : State := if (s.bucket k).en ∧ ¬ new.en then { s1 with shape := { s1.shape with waiting := s1.shape.waiting.map (fun c => { c with bkts := c.bkts.filter (fun x => x != k) }) } } else s1
      (s2.freeCharges (s2.shape.waiting.length + 1), rcOk, []))) ∧
  (∀ f agg sl0 b, Answers 0xC902 f (.shapeBktGet f agg sl0 b)
    (fun r sl s => s.bktExists agg sl0 b = true ∧ (r = 4 → agg = false ∧ sl = sl0))
    (fun s => (s, rcOk, [(s.bucket (bktKey agg sl0 b)).cfg.toNat, (s.bucket (bktKey agg sl0 b)).tokReg]))) ∧
  (∀ f, Answers 0xC903 f (.shapeStatus f)
    (fun _ _ _ => True)
    (fun s => 
      let ports := ((List.range 64).filter s.isUp).flatMap (fun p => [p, (s.hs.shapeQ.filter (fun x => x.1 == p && x.2.1)).length])
      let keys := addAll (s.shape.waiting.flatMap (fun c => c.bkts)) []
      (s, rcOk, ports ++ keys.flatMap (fun k => [b2n k.1, k.2, (s.shape.waiting.filter (fun c => c.bkts.contains k)).length])))) ∧
  (∀ agg sl0 b c, Occurs (.chargeProceed agg sl0 b)
    (fun s => s.shape.waiting.find? (fun c => c.bkts.contains (bktKey agg sl0 b)) = some c ∧ s.mayProceed c = true)
    (fun s => (s.proceedCharge c).freeCharges (s.shape.waiting.length + 1))) ∧
  (∀ port i, Occurs (.shapingQueueEntry port)
    (fun s => s.hs.shapeQ.findIdx? (fun x => x.1 == port && ! x.2.1) = some i ∧ (s.hs.shapeQ.filter (fun x => x.1 == port && x.2.1)).length < 256)
    (fun s => ({ s with hs := { s.hs with shapeQ := s.hs.shapeQ.modify i (fun x => (x.1, true, x.2.2)) } } : State)))

/-- GATE_LIST_SET writes the shadow set of a gated point, with 1 to 128 entries of non-zero intervals and a cycle in range; GATE_COMMIT makes a good shadow set pending from a time 2 microseconds ahead; GATE_GET answers both sets; GATE_TSYNC_SET stores LOSS from 1 ms to 6.5 s. A free-running pending set swaps at its time, a due cycle starts, an entry gives way to the next after its interval; a TSYNC edge is accepted 1 microsecond or more after the last and otherwise is TSYNC_EARLY, and TSYNC_LOSS is raised.
Completion: for every state and operands that meet the stated conditions on them alone, exec answers a next state for gateListSet, gateCommit, gateGet, gateTsyncSet, gateSwap, cycleStart, gateEntry, tsync, tsyncLoss. -/
def Obligations.Gates : Prop :=
  (∀ f p ctl base es, Answers 0xCA01 f (.gateListSet f p ctl base es)
    (fun _ _ s => s.gated p = true ∧ es ≠ [] ∧ es.length ≤ 128 ∧ es.length = bits ctl.toNat 61 54 + 1 ∧ es.all (fun e => bits e.toNat 23 0 != 0) = true
      ∧ 125 ≤ ({ ctl := ctl, base := base, list := es } : GateSet).cycle ∧ ({ ctl := ctl, base := base, list := es } : GateSet).cycle ≤ 12500000)
    (fun s => (s.modGate p (fun g => { g with shadow := { ctl := ctl &&& 0xFFC0FFFFFF000000, base := base, list := es.map (fun e => e &&& 0x07FFFFFF) } }), rcOk, []))) ∧
  (∀ f p, Answers 0xCA02 f (.gateCommit f p)
    (fun _ _ s => s.gated p = true ∧ (s.gate p).pending = none ∧ s.setOk p (s.gate p).shadow = true)
    (fun s => (s.modGate p (fun x => { x with pending := some ((s.gate p).shadow, if (s.gate p).shadow.tsync then s.shape.mtime + 2000 else (s.gate p).shadow.startFrom (s.shape.mtime + 2000)) }), rcOk, []))) ∧
  (∀ f p, Answers 0xCA03 f (.gateGet f p)
    (fun _ _ s => s.gated p = true)
    (fun s => (s, rcOk, (s.gate p).now.report ++ (s.gate p).shadow.report ++ [b2n (s.gate p).pending.isSome]))) ∧
  (∀ f loss, Answers 0xCA05 f (.gateTsyncSet f loss)
    (fun _ _ _ => 10 ≤ loss ∧ loss ≤ 65000)
    (fun s => ({ s with shape := { s.shape with loss := loss } }, rcOk, []))) ∧
  (∀ p x, Occurs (.gateSwap p)
    (fun s => (s.gate p).pending = some x ∧ x.1.tsync = false ∧ x.2 ≤ s.shape.mtime ∧ s.shape.running = true)
    (fun s => s.overrunCheck (s.swapGate p x.2) p)) ∧
  (∀ p t, Occurs (.cycleStart p)
    (fun s => s.shape.running = true ∧ s.cycleDue p = some t)
    (fun s => s.overrunCheck (s.restart p t) p)) ∧
  (∀ p e, Occurs (.gateEntry p)
    (fun s => s.shape.running = true ∧ (s.gate p).now.en = true ∧ (s.gate p).entry + 1 < (s.gate p).now.spans.length ∧ (s.gate p).now.spans[(s.gate p).entry]? = some e ∧ (s.gate p).entryAt + 8 * e.2 ≤ s.shape.mtime)
    (fun s => s.overrunCheck (s.modGate p (fun g => { g with entry := (s.gate p).entry + 1, entryAt := (s.gate p).entryAt + 8 * e.2 })) p)) ∧
  (Occurs (.tsync)
    (fun s => s.running = true ∧ s.shape.running = true ∧ s.shape.edgeAt.any (fun t => decide (s.now < t + 25)) = true)
    (fun s => ({ s with shape := { s.shape with event := s.shape.event.raise 14 0 0 } } : State))) ∧
  (Occurs (.tsync)
    (fun s => s.running = true ∧ s.shape.running = true ∧ s.shape.edgeAt.any (fun t => decide (s.now < t + 25)) = false)
    (fun s => 
      let s1 := (s.shape.gate.map (fun e => e.1)).foldl (fun s p => s.tsyncAt p) s
      { s1 with shape := { s1.shape with stamp := (s.shape.mtime + 2 ^ 64 - 64) % 2 ^ 64, edgeAt := some s.now } })) ∧
  (Occurs (.tsyncLoss)
    (fun s => s.running = true ∧ s.shape.running = true)
    (fun s => ({ s with shape := { s.shape with event := s.shape.event.raise 15 0 0 } } : State)))

/-- HIER_STATUS answers role, members, links and reserved indices; HIER_KEY_SET stores the key; HIER_SET stores settings within range and order, and P0 distributes them; HIER_ADMIT admits the worker that waits; HIER_REMOVE of a member whose extents no binding here names asks the other members whether theirs do; HIER_FORGET drops a reserved index; HIER_TRUNK_DISABLE and _ENABLE switch a trunk port.
Completion: for every state and operands that meet the stated conditions on them alone, exec answers a next state for hierStatus, hierKeySet, hierSet, hierAdmit, hierRemove, hierForget, hierTrunkDisable, hierTrunkEnable. -/
def Obligations.HierarchyCommands : Prop :=
  (∀ f, Answers 0xCB01 f (.hierStatus f)
    (fun _ _ _ => True)
    (fun s => (s, rcOk, [s.glob.hrole, s.glob.midx] ++ s.hier.members.flatMap (fun m => [m.idx, m.serial]) ++ (List.range 8).flatMap (fun t => [(s.tp t).state.ctorIdx, (s.tp t).peerIdx, (s.tp t).peerSer])
        ++ s.hier.reserved.flatMap (fun x => [x.1, x.2.1])))) ∧
  (∀ f key, Answers 0xCB02 f (.hierKeySet f key)
    (fun _ _ _ => True)
    (fun s => ({ s with hier := { s.hier with key := some key } }, rcOk, []))) ∧
  (∀ f pref auto ms tr, Answers 0xCB03 f (.hierSet f pref auto ms tr)
    (fun _ _ s => ms.all (fun n => decide (100 ≤ n ∧ n ≤ 10000)) = true ∧ tr.all (fun n => decide (2 ≤ n ∧ n ≤ 128)) = true ∧ (s.hierSettings pref auto ms tr).timeoutsOk = true ∧ (s.hierSettings pref auto ms tr).gatesOk = true)
    (fun s => 
      let s1 := s.hierSettings pref auto ms tr
      (if s1.glob.hrole = 1 then s1.toMembers 6 0 0 else s1, rcOk, []))) ∧
  (∀ f sn j, Answers 0xCB04 f (.hierAdmit f sn)
    (fun _ _ s => s.hier.join = some j ∧ j.serial = sn ∧ j.admitted = false)
    (fun s => (({ s with hier := { s.hier with join := some { j with admitted := true } } } : State).toMembers 2 j.idx sn, rcOk, []))) ∧
  (∀ f i m, Answers 0xCB05 f (.hierRemove f i)
    (fun _ _ s => i ≠ s.glob.midx ∧ s.hier.members.find? (fun m => m.idx == i) = some m ∧ s.hier.lost.contains i = false ∧ s.opRunning 11 = false ∧ s.hier.join.any (fun j => j.idx == i) = false ∧ s.pool.homeReqs.any (fun q => q.op == 0xCB05) = false ∧ s.bindsHome i = false)
    (fun s => 
      let others := (s.hier.members.map (fun m => m.idx)).filter (fun m => m != s.glob.midx && ! s.hier.lost.contains m)
      (s.askHomes { frame := f, op := 0xCB05, arg := i, binds := [], asks := others.map (fun m => { home := m, kind := 9, ext := i, n := 0 }), done := [], tries := 0 }, rcLater, []))) ∧
  (∀ f i, Answers 0xCB06 f (.hierForget f i)
    (fun _ _ s => s.hier.reserved.any (fun x => x.2.1 == i) = true)
    (fun s => ({ s with hier := { s.hier with reserved := s.hier.reserved.filter (fun x => x.2.1 != i) } }, rcOk, []))) ∧
  (∀ f t, Answers 0xCB07 f (.hierTrunkDisable f t)
    (fun _ _ s => t < 8 ∧ (s.tp t).stopped = false)
    (fun s => (s.tpDisable t, rcOk, []))) ∧
  (∀ f t, Answers 0xCB08 f (.hierTrunkEnable f t)
    (fun _ _ _ => t < 8)
    (fun s => (s.tpEnable t, rcOk, [])))

/-- An MA that prefers MANAGER and has heard of none declares itself P0; a mesh that completes ends the join at P0 and at the worker, one that times out fails it; a worker retries; a removal goes from step to step at P0, sweeping the worker's lines in step 3, and ends at the worker in its own leave; P0 raises SPLIT for a pair a worker names and a worker follows P0; a LEAVE removes the member and ends the removal.
Completion: for every state and operands that meet the stated conditions on them alone, exec answers a next state for managerDeclare, meshComplete, meshTimeout, joinRetry, hierRemoveStepDone, hierarchyControl, leave. -/
def Obligations.HierarchyEvents : Prop :=
  (Occurs (.managerDeclare)
    (fun s => s.glob.pstate = .active ∧ s.glob.isMA = true ∧ s.hier.prefMgr = true ∧ s.hier.wasWorker = false ∧ s.glob.hrole = 0 ∧ (∀ t < 8, ¬ ((s.tp t).peerRole = 1 ∧ (s.tp t).state ≠ .off ∧ (s.tp t).state ≠ .train)))
    (fun s => s.becomeP0)) ∧
  (∀ j, Occurs (.meshComplete)
    (fun s => s.glob.pstate = .active ∧ s.glob.hrole = 1 ∧ s.hier.join = some j ∧ j.admitted = true ∧ (s.tp j.tp).state = .active)
    (fun s => ((((({ s with hier := { s.hier with join := none } } : State).moduleArrives j.tp).toMembers 3 j.idx j.serial).hierEvent 1 j.serial).joinNext))) ∧
  (Occurs (.meshComplete)
    (fun s => s.glob.pstate = .active ∧ s.glob.hrole = 2 ∧ s.glob.midx ≠ 15 ∧ s.hier.admitted = true ∧ s.hier.joined = false ∧ s.meshed = true ∧ s.hier.join = none)
    (fun s => 
      let s1 : State := { s with hier := { s.hier with joined := true, joinFailed := none } }
      (s1.liveTrunks.foldl (fun s t => s.moduleArrives t) s1).addExpanders)) ∧
  (∀ j, Occurs (.meshTimeout)
    (fun s => s.glob.pstate = .active ∧ s.glob.hrole = 1 ∧ s.hier.join = some j ∧ j.admitted = true)
    (fun s => 
      let s1 := ((s.emit (.hierMsg j.tp (s.hierMsgOf 7 j.idx j.serial))).forgetAgent (.mod j.idx)).tpClear j.tp
      let h : Hier := { s1.hier with join := none, members := s1.hier.members.filter (fun m => m.idx != j.idx), reserved := s1.hier.reserved ++ [(j.serial, j.idx, s1.now + msTicks (Tbl.get ({} : Machine.PSet) s.pool.pset (0x40 + j.tp)).timer)] }
      (({ s1 with hier := h } : State).hierEvent 2 j.serial).joinNext)) ∧
  (Occurs (.joinRetry)
    (fun s => s.glob.pstate = .active ∧ s.glob.hrole = 2 ∧ s.hier.joinFailed.isSome = true)
    (fun s => (List.range 8).foldl (fun s t => s.tpStart t) ({ s with hier := { s.hier with joinFailed := none } } : State))) ∧
  (∀ i n, Occurs (.hierRemoveStepDone)
    (fun s => s.hier.remove = some (i, n) ∧ i ≠ s.glob.midx ∧ n < 3 ∧ (n = 2 → s.leaveQuiet i = true))
    (fun s => 
      let s1 := ({ s with hier := { s.hier with remove := some (i, n + 1) } } : State).posOp 11 (n + 1)
      if n = 1 then s1.leaveSweep i else s1)) ∧
  (∀ n, Occurs (.hierRemoveStepDone)
    (fun s => s.hier.remove = some (s.glob.midx, n) ∧ (s.keeper.wbs.filter (fun w => w.1 == .mod s.glob.midx)) = [])
    (fun s => s.leaveSelf)) ∧
  (∀ t m, Occurs (.hierarchyControl t m)
    (fun s => s.trunkLive t = true ∧ (s.tp t).state = .active ∧ m.idx < 16 ∧ s.glob.hrole = 1 ∧ m.kind = 5)
    (fun s => s.splitTold m (s.tp t).peerIdx)) ∧
  (∀ t m, Occurs (.hierarchyControl t m)
    (fun s => s.trunkLive t = true ∧ (s.tp t).state = .active ∧ m.idx < 16 ∧ s.glob.hrole ≠ 1 ∧ (s.tp t).p0 = true)
    (fun s => s.fromP0 m)) ∧
  (∀ t i, Occurs (.leave t i)
    (fun s => s.trunkLive t = true ∧ (s.tp t).state = .active ∧ (s.tp t).peerIdx = i)
    (fun s => if s.glob.hrole = 1 then (s.memberLeft i).removeEnds i (s.tp t).peerSer else s.memberLeft i))

/-- FAULT_LOG_GET answers 1 to 127 records from SEQ on with the GAP flag; FAULT_STATUS the registers and counts; FAULT_REACTION_SET sets or deletes a class reaction that Table 12.7 allows; REACTION_DRYRUN answers what a report would do; FAULT_LOG_CLEAR empties log, protected records and counters; ALIVE_SET stores 100 Hz to 10 kHz, for the next start where ALIVE does not run. A source reports a code with its own handling, an invalid wire pair raises a report of its source's class and takes a plane whose half reports out of service, and a merge window closes when its element has left its state.
Completion: for every state and operands that meet the stated conditions on them alone, exec answers a next state for faultLogGet, faultStatus, faultReactionSet, reactionDryrun, faultLogClear, aliveSet, faultReport, wire, reactionWindowClose. -/
def Obligations.FaultCommands : Prop :=
  (∀ f q n, Answers 0xCC01 f (.faultLogGet f q n)
    (fun _ _ _ => 0 < n ∧ n ≤ 127)
    (fun s => (s, rcOk, b2n (decide (max q 1 ≤ s.faults.gapTo))
        :: ((s.faults.records.filter (fun x => decide (q ≤ x.seq))).take n).map FRec.pack))) ∧
  (∀ f, Answers 0xCC02 f (.faultStatus f)
    (fun _ _ _ => True)
    (fun s => (s, rcOk, [s.faults.event.read.toNat, s.faults.status, s.faults.aliveStatus, s.faults.lost.read]
        ++ (List.range 6).map (fun c => (Tbl.get ({} : Cnt) s.faults.cnt c).read) ++ (List.range 7).map (fun d => Tbl.get 0 s.faults.perDie d)))) ∧
  (∀ f c pat a irq i, Answers 0xCC03 f (.faultReactionSet f true c pat a irq i false)
    (fun _ _ _ => reactOk c (a.getD 0) irq = true)
    (fun s => ({ s with faults := { s.faults with react := Tbl.put s.faults.react c (a.getD 0, irq) } }, rcOk, []))) ∧
  (∀ f c pat a irq i, Answers 0xCC03 f (.faultReactionSet f true c pat a irq i true)
    (fun _ _ _ => c ≤ 4)
    (fun s => ({ s with faults := { s.faults with react := Tbl.del s.faults.react c } }, rcOk, []))) ∧
  (∀ f c pat a irq i, Answers 0xCC03 f (.faultReactionSet f false c pat a irq i true)
    (fun _ _ s => (Tbl.find s.faults.overrides i).isSome = true)
    (fun s => ({ s with faults := { s.faults with overrides := Tbl.del s.faults.overrides i } }, rcOk, []))) ∧
  (∀ f c pat a irq i k, Answers 0xCC03 f (.faultReactionSet f false c pat a irq i false)
    (fun _ _ s => c ≠ 0xFF ∧ codeClass c = some k ∧ s.locExists pat = true ∧ i ≤ 63 ∧ reactOk k (a.getD 0) irq = true)
    (fun s => ({ s with faults := { s.faults with overrides := Tbl.put s.faults.overrides i { code := c, pat := pat, action := a, irq := irq } } }, rcOk, []))) ∧
  (∀ f c l, Answers 0xCC04 f (.reactionDryrun f true c l)
    (fun _ _ s => c ≤ 5 ∧ s.locExists l = true)
    (fun s => 
      let ch := Tbl.get (defaultReact c) s.faults.react c
      let rx := reactBits ch c l
      let a := rx.2
      let out := fun (x : List Nat) => if a = 0 then 0 else maskOf x
      (s, rcOk, [c, rx.1, (actElem a l).toNat, out (s.locPorts (actElem a l)), out (locTrunks (actElem a l)), out (locSlices (actElem a l)), out (locChans (actElem a l)), b2n (s.lostBy c l)]))) ∧
  (∀ f, Answers 0xCC05 f (.faultLogClear f)
    (fun _ _ _ => True)
    (fun s => ({ s with faults := { s.faults with log := [], prot := [], cnt := [], lost := {}, perDie := [] } }, rcOk, []))) ∧
  (∀ f hz, Answers 0xCC06 f (.aliveSet f hz)
    (fun _ _ s => 100 ≤ hz ∧ hz ≤ 10000 ∧ s.faults.alive = true)
    (fun s => ({ s with faults := { s.faults with aliveHz := hz } }, rcOk, []))) ∧
  (∀ f hz, Answers 0xCC06 f (.aliveSet f hz)
    (fun _ _ s => 100 ≤ hz ∧ hz ≤ 10000 ∧ s.faults.alive = false)
    (fun s => ({ s with faults := { s.faults with aliveNext := some hz } }, rcOk, []))) ∧
  (∀ c l d p, Occurs (.faultReport c l d p)
    (fun s => (codeClass c).isSome = true ∧ s.locExists l = true ∧ s.glob.pstate ≠ .off)
    (fun s => ((s.ownHandling c l d).report c l d p).count 0x73 (if l.die = 2 ∨ l.die = 3 then 0 else 1) 0 (b2n (c == 0x0004)))) ∧
  (∀ l x, Occurs (.wire l x)
    (fun s => s.locExists l = true ∧ s.glob.pstate ≠ .off)
    (fun s => if l.level = 2 ∧ l.die ≤ 1 ∧ x ≠ 0 ∧ x ≠ 1 ∧ x ≠ 4 then (s.reportC (wireClass l x) 0x00FF l 0 0xFF true).planeOut (x % 4) else s.reportC (wireClass l x) 0x00FF l 0 0xFF true)) ∧
  (∀ l, Occurs (.reactionWindowClose l)
    (fun s => s.faults.windows.any (fun w => w.elem == l) = true)
    (fun s => { s with faults := { s.faults with windows := s.faults.windows.filter (fun w => w.elem != l) } }))

/-- POWER_STATUS answers SILL_CTL, SILL_LIMITS, SILL_STATUS, SILL_EVENT, the meters and the states; POWER_SET stores both registers where every field is in range and RAMP_MS x FAST_A is 150 or more, and EN acts as a write of it; POWER_STATE_SET takes the module from one of STANDBY, READY and ACTIVE to another, keeping START_STATE where asked; ENERGY_CLEAR zeroes the accumulator; THERMAL_SET stores WARN 60 to 120 and CRIT 70 to 122 at least 2 apart; THERMAL_STATUS answers the sixteen readings and the raised alarms.
Completion: for every state and operands that meet the stated conditions on them alone, exec answers a next state for powerStatus, powerSet, powerStateSet, energyClear, thermalSet, thermalStatus. -/
def Obligations.PowerCommands : Prop :=
  (∀ f, Answers 0xCD01 f (.powerStatus f)
    (fun _ _ _ => True)
    (fun s => let s := s.tvFixAll [2, 3]
      (s.drawn, rcOk, [s.sillCtl, s.sillLim, s.sillStatus, s.sill.event.read.toNat, s.sill.volt.toNat, s.sill.curr.toNat,
        s.sill.updates * 2 ^ 32 + s.sill.power, s.sill.energy, s.glob.pstate.code, s.sill.start.code]))) ∧
  (∀ f c l, Answers 0xCD02 f (.powerSet f c l)
    (fun _ _ _ => ctlOk c.toNat = true ∧ limOk l.toNat = true ∧ rampOk c.toNat l.toNat = true)
    (fun s => (({ s with sill := { s.sill with ctl := Tri.all ((c &&& ctlMask &&& 0x7FFFFFFFFFFFFFFF) ||| (s.sill.ctl.maj &&& 0x8000000000000000)), limits := Tri.all (l &&& limMask) } } : State).sillEn (bit c.toNat 63), rcOk, []))) ∧
  (∀ f p, Answers 0xCD03 f (.powerStateSet f 1 p)
    (fun _ _ s => s.glob.pstate = .active ∧ s.inUse = false)
    (fun s => (({ s with sill := { s.sill with goal := .standby, start := if p then .standby else s.sill.start } } : State).leaveActive.leaveReady, rcOk, []))) ∧
  (∀ f p, Answers 0xCD03 f (.powerStateSet f 2 p)
    (fun _ _ s => s.glob.pstate = .active ∧ s.inUse = false)
    (fun s => (({ s with sill := { s.sill with goal := .ready, start := if p then .ready else s.sill.start } } : State).leaveActive, rcOk, []))) ∧
  (∀ f p, Answers 0xCD03 f (.powerStateSet f 3 p)
    (fun _ _ s => s.glob.pstate = .ready)
    (fun s => (({ s with sill := { s.sill with goal := .active, start := if p then .active else s.sill.start } } : State).enterActive, rcOk, []))) ∧
  (∀ f p, Answers 0xCD03 f (.powerStateSet f 1 p)
    (fun _ _ s => s.glob.pstate = .ready ∧ s.inUse = false)
    (fun s => (({ s with sill := { s.sill with goal := .standby, start := if p then .standby else s.sill.start } } : State).leaveReady, rcOk, []))) ∧
  (∀ f p t, Answers 0xCD03 f (.powerStateSet f t p)
    (fun _ _ s => (t = 2 ∨ t = 3) ∧ s.glob.pstate = .standby ∧ s.sill.state = .on ∧ s.sill.selfTest = true)
    (fun s => ({ s with sill := { s.sill with goal := (if t = 2 then .ready else .active), start := (if p then (if t = 2 then .ready else .active) else s.sill.start), pol := s.svc.rstN } }, rcOk, []))) ∧
  (∀ f, Answers 0xCD04 f (.energyClear f)
    (fun _ _ _ => True)
    (fun s => ({ s with sill := { s.sill with energy := 0, energyRem := 0 } }, rcOk, []))) ∧
  (∀ f g w c, Answers 0xCD05 f (.thermalSet f g w c)
    (fun _ _ _ => g ≤ 2 ∧ 60 ≤ w ∧ w ≤ 120 ∧ 70 ≤ c ∧ c ≤ 122 ∧ w + 2 ≤ c)
    (fun s => ({ s with therm := { s.therm with warn := Tbl.set 115 s.therm.warn g w, crit := Tbl.set 120 s.therm.crit g c } }, rcOk, []))) ∧
  (∀ f, Answers 0xCD06 f (.thermalStatus f)
    (fun _ _ _ => True)
    (fun s => (s, rcOk, (List.range 16).map (fun n => Tbl.get 0x8000 s.therm.reading n) ++ [s.therm.raised.foldl (fun m i => m + 2 ^ i) 0])))

/-- WAIT becomes QUAL, QUAL becomes RAMP or falls back to WAIT, RAMP becomes ON at power good; SOA, fast and slow trips go to COOL with LAST_TRIP and the cool-down; COOL ends in QUAL with one retry less, or in LATCHED; overvoltage goes to OV_OFF and recovers to RAMP; a recharge of the bulk keeps ON; EN = 0 disables and EN = 1 enters WAIT; a feed that changes raises FEED_CHANGE.
Completion: for every state and operands that meet the stated conditions on them alone, exec answers a next state for qualStart, qualDone, qualLeavesRange, powerGood, sillSoa, sillFastTrip, sillSlowTrip, coolEnd, retryReload, sillOv, ovRecover, bulkRecharge, bulkRechargeEnd, sillCtlEn, feedChange. -/
def Obligations.SillEvents : Prop :=
  (Occurs (.qualStart)
    (fun s => s.glob.pstate ≠ .off ∧ s.sill.stuck = false ∧ s.sill.state = .wait)
    (fun s => { s with sill := { s.sill with state := .qual } })) ∧
  (Occurs (.qualDone)
    (fun s => s.glob.pstate ≠ .off ∧ s.sill.stuck = false ∧ s.sill.state = .qual)
    (fun s => { s with sill := { s.sill with state := .ramp, rampMs := ctlRamp s.sillCtl } })) ∧
  (Occurs (.qualLeavesRange)
    (fun s => s.glob.pstate ≠ .off ∧ s.sill.stuck = false ∧ s.sill.state = .qual)
    (fun s => { s with sill := { s.sill with state := .wait } })) ∧
  (Occurs (.powerGood)
    (fun s => s.glob.pstate ≠ .off ∧ s.sill.stuck = false ∧ s.sill.state = .ramp)
    (fun s => { s with sill := { s.sill with state := .on, turnedOff := false, recharge := false, selfTest := if s.glob.pstate = .standby then false else s.sill.selfTest } })) ∧
  (Occurs (.sillSoa)
    (fun s => s.glob.pstate ≠ .off ∧ s.sill.stuck = false ∧ (s.sill.state = .ramp ∨ s.sill.state = .on ∧ s.sill.recharge = true))
    (fun s => s.trip 3 0x0604)) ∧
  (Occurs (.sillFastTrip)
    (fun s => s.glob.pstate ≠ .off ∧ s.sill.stuck = false ∧ s.sill.state = .ramp)
    (fun s => s.trip 4 0x0601)) ∧
  (Occurs (.sillFastTrip)
    (fun s => s.glob.pstate ≠ .off ∧ s.sill.stuck = false ∧ s.sill.state = .on)
    (fun s => s.trip 1 0x0602)) ∧
  (Occurs (.sillSlowTrip)
    (fun s => s.glob.pstate ≠ .off ∧ s.sill.stuck = false ∧ s.sill.state = .on ∧ s.sill.recharge = false)
    (fun s => s.trip 2 0x0603)) ∧
  (Occurs (.coolEnd)
    (fun s => s.glob.pstate ≠ .off ∧ s.sill.stuck = false ∧ s.sill.state = .cool ∧ s.sill.retry ≠ 0)
    (fun s => { s with sill := { s.sill with state := .qual, retry := s.sill.retry - 1, coolEnd := none } })) ∧
  (Occurs (.coolEnd)
    (fun s => s.glob.pstate ≠ .off ∧ s.sill.stuck = false ∧ s.sill.state = .cool ∧ s.sill.retry = 0)
    (fun s => (({ s with sill := { s.sill with state := .latched, coolEnd := none } } : State).sillEvent 22).fault 0x0607 (s.dieLoc 6) 0xFF)) ∧
  (Occurs (.retryReload)
    (fun s => s.glob.pstate ≠ .off ∧ s.sill.state = .on)
    (fun s => { s with sill := { s.sill with retry := s.retries } })) ∧
  (Occurs (.sillOv)
    (fun s => s.glob.pstate ≠ .off ∧ s.sill.stuck = false ∧ s.sill.state = .ramp)
    (fun s => (({ s with sill := { s.sill with state := .ovOff } } : State).sillEvent 18).fault 0x0605 (s.dieLoc 6) 0xFF)) ∧
  (Occurs (.sillOv)
    (fun s => s.glob.pstate ≠ .off ∧ s.sill.stuck = false ∧ s.sill.state = .on)
    (fun s => ((({ s with sill := { s.sill with state := .ovOff } } : State).sillEvent 18).fault 0x0605 (s.dieLoc 6) 0xFF).turnOff 2)) ∧
  (Occurs (.ovRecover)
    (fun s => s.glob.pstate ≠ .off ∧ s.sill.stuck = false ∧ s.sill.state = .ovOff)
    (fun s => { s with sill := { s.sill with state := .ramp, rampMs := ctlRamp s.sillCtl } })) ∧
  (Occurs (.bulkRecharge)
    (fun s => s.glob.pstate ≠ .off ∧ s.sill.stuck = false ∧ s.sill.state = .on ∧ s.sill.turnedOff = false)
    (fun s => { s with sill := { s.sill with recharge := true, rampMs := ctlRamp s.sillCtl } })) ∧
  (Occurs (.bulkRechargeEnd)
    (fun s => s.glob.pstate ≠ .off ∧ s.sill.stuck = false ∧ s.sill.state = .on ∧ s.sill.recharge = true)
    (fun s => { s with sill := { s.sill with recharge := false } })) ∧
  (Occurs (.sillCtlEn true)
    (fun s => s.glob.pstate ≠ .off ∧ s.glob.pstate ≠ .moduleReset ∧ s.locked 0 = false ∧ bit s.sillCtl 63 = false ∧ s.sill.stuck = false ∧ s.sill.state ≠ .on)
    (fun s => { s with sill := { s.sill with ctl := Tri.all ((s.sill.ctl.maj &&& 0x7FFFFFFFFFFFFFFF) ||| 0x8000000000000000), retry := ({ s with sill := { s.sill with ctl := Tri.all ((s.sill.ctl.maj &&& 0x7FFFFFFFFFFFFFFF) ||| 0x8000000000000000) } } : State).retries, state := .wait, offAfter := false } })) ∧
  (Occurs (.sillCtlEn false)
    (fun s => (s.glob.pstate = .ready ∨ s.glob.pstate = .active) ∧ s.locked 0 = false ∧ bit s.sillCtl 63 = true ∧ s.sill.stuck = false)
    (fun s => ({ s with sill := { s.sill with ctl := Tri.all ((s.sill.ctl.maj &&& 0x7FFFFFFFFFFFFFFF) ||| 0), offAfter := true } } : State).pfwAssert 4)) ∧
  (Occurs (.sillCtlEn false)
    (fun s => s.glob.pstate = .standby ∧ s.locked 0 = false ∧ bit s.sillCtl 63 = true ∧ s.sill.stuck = false)
    (fun s => 
      let s1 : State := { s with sill := { s.sill with ctl := Tri.all ((s.sill.ctl.maj &&& 0x7FFFFFFFFFFFFFFF) ||| 0), state := .disabled, coolEnd := none, recharge := false } }
      (if s.sill.state = .on then s1.turnOff 4 else s1))) ∧
  (∀ st, Occurs (.feedChange true st)
    (fun s => s.glob.pstate ≠ .off ∧ st ≤ 5 ∧ s.sill.feedB ≠ st)
    (fun s => (({ s with sill := { s.sill with feedB := st } } : State).sillEvent 19).fault 0x0606 (s.dieLoc 6) 0xFF)) ∧
  (∀ st, Occurs (.feedChange false st)
    (fun s => s.glob.pstate ≠ .off ∧ st ≤ 5 ∧ s.sill.feedA ≠ st)
    (fun s => (({ s with sill := { s.sill with feedA := st } } : State).sillEvent 19).fault 0x0606 (s.dieLoc 6) 0xFF))

/-- V_IN below its threshold asserts PFW_N; the sleep of a brownout puts the trunks in TL3 and flushes the expanders; PFW_N is released once V_IN is good; POL_STOP stops the converters; a meter update stores the samples and adds to the energy; GPF goes to the expanders and hosts are answered when all have completed; a passed self-test starts ALIVE and the cores, a failed one is ROOT_SELFTEST; start-up enters READY and heads for its goal; COLD reset leaves what flash keeps, and its release enters STANDBY and WAIT.
Completion: for every state and operands that meet the stated conditions on them alone, exec answers a next state for sillBrownout, brownoutSleep, pfwRelease, polStop, meterUpdate, gpfRequest, gpfCompletion, selfTestDone, startupReady, coldReset, coldRelease. -/
def Obligations.PowerEvents : Prop :=
  (Occurs (.sillBrownout)
    (fun s => s.glob.pstate ≠ .off ∧ s.sill.pfw = false)
    (fun s => s.pfwAssert 1)) ∧
  (Occurs (.brownoutSleep)
    (fun s => s.glob.pstate = .brownout ∧ s.sill.brownStep = 4 ∧ s.sill.resetWaits = some true)
    (fun s => ({ s with sill := { s.sill with brownStep := 5 } } : State).mrTrigger true)) ∧
  (Occurs (.brownoutSleep)
    (fun s => s.glob.pstate = .brownout ∧ s.sill.brownStep = 4 ∧ s.sill.resetWaits = none)
    (fun s => 
      let s1 := (List.range 8).foldl (fun s t =>
        (if (s.tp t).state = .active then (s.emit (.control t 6 [1])).tpHold t 9 else s).modTp t (fun x => { x with tx := .tl3, rx := .tl3 })) s
      let ex := (s1.pool.partner.filter (fun e => e.2.kind == 3 && e.2.timerEnd == none)).map (·.1)
      let s2 := s1.emits (ex.map (fun p => Out.gpf p false))
      let off := s2.sill.offAfter && ! s2.sill.stuck
      ({ s2 with sill := { s2.sill with brownStep := 6, gpfExps := addAll ex s2.sill.gpfExps, offAfter := s2.sill.offAfter && ! off, turnedOff := s2.sill.turnedOff || off, state := if off then .disabled else s2.sill.state } } : State).gpfAnswer)) ∧
  (Occurs (.pfwRelease)
    (fun s => s.sill.pfw = true ∧ s.sill.state = .on ∧ s.sill.turnedOff = false ∧ s.glob.pstate ≠ .brownout)
    (fun s => (({ s with sill := { s.sill with pfw := false, pfwCause := 0 } } : State).emit (.pin .pfwN true)).sillEvent 20)) ∧
  (Occurs (.polStop)
    (fun s => s.sill.turnedOff = true ∧ s.sill.pol = true)
    (fun s => 
      let s2 := s.moduleCut.mrRelease
      { s2 with glob := { s2.glob with pstate := .standby }, svc := { s2.svc with mr := .idle, thermHold := [] }
                sill := { s2.sill with pol := false, brownStep := 0, resetWaits := none, goal := s2.sill.start, gpfHosts := [], gpfExps := [], selfTest := false } })) ∧
  (∀ va vb vin vk ia ib iin, Occurs (.meterUpdate va vb vin vk ia ib iin true)
    (fun s => s.glob.pstate ≠ .off ∧ va ≤ 65535 ∧ vb ≤ 65535 ∧ vin ≤ 65535 ∧ vk ≤ 65535 ∧ ia ≤ 65535 ∧ ib ≤ 65535 ∧ iin ≤ 65535)
    (fun s => { s with sill := { s.sill with volt := BitVec.ofNat 64 (va * 2 ^ 48 + vb * 2 ^ 32 + vin * 2 ^ 16 + vk), curr := BitVec.ofNat 64 (ia * 2 ^ 48 + ib * 2 ^ 32 + iin * 2 ^ 16), updates := (s.sill.updates + 1) % 2 ^ 32, power := vin * iin / 100, energy := (s.sill.energy + (s.sill.energyRem + vin * iin / 100) / 10) % 2 ^ 64, energyRem := (s.sill.energyRem + vin * iin / 100) % 10 } })) ∧
  (∀ p, Occurs (.gpfRequest p)
    (fun s => s.isUp p = true ∧ (s.port p).up = true ∧ s.glob.pstate = .brownout)
    (fun s => ({ s with sill := { s.sill with gpfHosts := addOnce p s.sill.gpfHosts } } : State).gpfAnswer)) ∧
  (∀ p, Occurs (.gpfRequest p)
    (fun s => s.isUp p = true ∧ (s.port p).up = true ∧ s.glob.pstate = .active)
    (fun s => 
      let s2 := ({ s with sill := { s.sill with gpfHosts := addOnce p s.sill.gpfHosts } } : State).writeBack
      let ex := (s2.pool.partner.filter (fun e => e.2.kind == 3 && e.2.timerEnd == none)).map (·.1)
      (({ s2 with sill := { s2.sill with gpfExps := addAll ex s2.sill.gpfExps } } : State).emits (ex.map (fun p => Out.gpf p false))).gpfAnswer)) ∧
  (∀ p, Occurs (.gpfCompletion p)
    (fun s => s.sill.gpfExps.contains p = true)
    (fun s => ({ s with sill := { s.sill with gpfExps := dropOf p s.sill.gpfExps } } : State).gpfAnswer)) ∧
  (Occurs (.selfTestDone true)
    (fun s => s.sill.state = .on ∧ s.glob.pstate = .standby ∧ s.sill.selfTest = false)
    (fun s => 
      let s1 : State := { s.aliveOn with sill := { s.sill with selfTest := true } }
      let s2 := if s1.svc.coldBoot then s1.coreBoot 1 else { s1 with svc := { s1.svc with coresRun := true } }
      { s2 with sill := { s2.sill with pol := s2.svc.rstN && s2.sill.goal != .standby } })) ∧
  (Occurs (.selfTestDone false)
    (fun s => s.sill.state = .on ∧ s.glob.pstate = .standby ∧ s.sill.selfTest = false)
    (fun s => s.fault 0x0502 (mkLoc s.pk 15 15 15 255) 0xFF)) ∧
  (Occurs (.startupReady)
    (fun s => s.glob.pstate = .standby ∧ s.sill.pol = true ∧ s.sill.state = .on ∧ s.svc.rstN = true ∧ s.svc.pll0 = true ∧ s.svc.pll1 = true)
    (fun s => s.enterReady.toGoal)) ∧
  (∀ s : State, s.glob.pstate ≠ .off → exec .coldReset s = .next (s.cold.emits [.pin .pfwN false, .pin .alive false])) ∧
  (Occurs (.coldRelease)
    (fun s => s.glob.pstate = .off)
    (fun s => ({ s with glob := { s.glob with pstate := .standby }, sill := { s.sill with state := .wait, retry := s.retries } } : State).emit (.pin .pfwN true)))

/-- A sensor update stores sixteen readings, raises an alarm on rising through its threshold and re-arms it 3 degrees below, and lets D6 out of its hold once it is cool; a die past its comparator is reported and stopped, D6 stopping the module; a test instruction takes effect in STANDBY and READY and acts as BYPASS in ACTIVE, and replacing one in effect, or Test-Logic-Reset, causes a MODULE reset.
Completion: for every state and operands that meet the stated conditions on them alone, exec answers a next state for thermalSensorUpdate, dieThermal, tapInstruction, testLogicReset. -/
def Obligations.ThermalAndTest : Prop :=
  (∀ rs, Occurs (.thermalSensorUpdate rs)
    (fun s => s.glob.pstate ≠ .off ∧ rs.length = 16)
    (fun s => 
      let s1 := rs.zipIdx.foldl (fun (s : State) x =>
        if s.therm.bad.contains x.2 ∨ ¬ s.sensorOn x.2 then { s with therm := { s.therm with reading := Tbl.set 0x8000 s.therm.reading x.2 0x8000 } }
        else
          let s2 : State := { s with therm := { s.therm with reading := Tbl.set 0x8000 s.therm.reading x.2 (x.1 % 0x10000) } }
          match sensorGroup x.2 with
          | some g => if x.1 % 0x10000 = 0x8000 then s2 else (s2.alarm x.2 g (tempOf (x.1 % 0x10000)) false).alarm x.2 g (tempOf (x.1 % 0x10000)) true
          | none => s2) s
      if s1.hot 14 then s1
      else { s1 with svc := { s1.svc with thermHold := dropOf 6 s1.svc.thermHold }, therm := { s1.therm with tripped := dropOf 6 s1.therm.tripped } })) ∧
  (∀ d, Occurs (.dieThermal d)
    (fun s => d < 6 ∧ s.running = true)
    (fun s => 
      let s2 := (({ s with therm := { s.therm with tripped := addOnce d s.therm.tripped } } : State).fault 0x0406 (s.dieLoc d) 0xFF).settle
      if s2.svc.stoppedDies.contains d ∨ s2.glob.pstate = .stopped then s2 else s2.stopDie d)) ∧
  (Occurs (.dieThermal 6)
    (fun s => s.glob.pstate ≠ .off)
    (fun s => 
      let s3 := ((({ s with therm := { s.therm with tripped := addOnce 6 s.therm.tripped } } : State).fault 0x0406 (s.dieLoc 6) 0xFF).settle).stopModule 2
      { s3 with sill := { s3.sill with pol := false } })) ∧
  (∀ op, Occurs (.tapInstruction op)
    (fun s => s.glob.pstate ≠ .off ∧ s.therm.tapLive = false)
    (fun s => ({ s with therm := { s.therm with tap := op % 16, tapLive := tapTest op && (s.glob.pstate == .standby || s.glob.pstate == .ready) } } : State))) ∧
  (∀ op, Occurs (.tapInstruction op)
    (fun s => s.glob.pstate ≠ .off ∧ s.therm.tapLive = true)
    (fun s => ({ s with therm := { s.therm with tap := op % 16, tapLive := tapTest op && (s.glob.pstate == .standby || s.glob.pstate == .ready) } } : State).mrTrigger false)) ∧
  (Occurs (.testLogicReset)
    (fun s => s.glob.pstate ≠ .off ∧ s.therm.tapLive = false)
    (fun s => ({ s with therm := { s.therm with tap := 0, tapLive := false } } : State))) ∧
  (Occurs (.testLogicReset)
    (fun s => s.glob.pstate ≠ .off ∧ s.therm.tapLive = true)
    (fun s => ({ s with therm := { s.therm with tap := 0, tapLive := false } } : State).mrTrigger false))

/-- PERF_CNT_SET sets the selector, and where given the count and the overflow bit, of a programmable counter; PERF_CNT_GET answers it, with a port's top-down counters; PERF_OVF_SET sets the overflow interrupt; PERF_SAMPLE_SET sets a sampler whose setting is in range, a setting of EN starting its ring anew; FREEZE and CLEAR act at once; HEAD frees records; a completed transaction is written as a record or lost where the ring is full; a waiting overflow message is sent if OVF is still set.
Completion: for every state and operands that meet the stated conditions on them alone, exec answers a next state for perfCntSet, perfCntGet, perfOvfSet, perfSampleSet, perfCtlFreeze, perfCtlClear, perfSmpHead, sampleRecord, overflowMessage. -/
def Obligations.PerfMonitor : Prop :=
  (∀ f g p i sel, Answers 0xCE01 f (.perfCntSet f g p i sel none false)
    (fun _ _ s => s.perfNamed g p i = none ∧ s.selOk g p sel.toNat = true)
    (fun s => ({ s with perf := { s.perf with sel := Tbl.set selReset s.perf.sel (perfKey g p i) (sel &&& 0xFFFF00FF), cnt := Tbl.set {} s.perf.cnt (perfKey g p i) (Tbl.get ({} : Cnt) s.perf.cnt (perfKey g p i)) } }, rcOk, []))) ∧
  (∀ f g p i sel n, Answers 0xCE01 f (.perfCntSet f g p i sel (some n) true)
    (fun _ _ s => s.perfNamed g p i = none ∧ s.selOk g p sel.toNat = true ∧ n < 2 ^ 48)
    (fun s => ({ s with perf := { s.perf with sel := Tbl.set selReset s.perf.sel (perfKey g p i) (sel &&& 0xFFFF00FF), cnt := Tbl.set {} s.perf.cnt (perfKey g p i) { count := BitVec.ofNat 48 n, ovf := false } } }, rcOk, []))) ∧
  (∀ f p i, Answers 0xCE02 f (.perfCntGet f true p i)
    (fun _ _ _ => i ≤ 15)
    (fun s => (s, rcOk, [(Tbl.get ({} : Cnt) s.perf.cnt (512 + i)).read, s.sel (512 + i)]))) ∧
  (∀ f p i, Answers 0xCE02 f (.perfCntGet f false p i)
    (fun _ _ s => i ≤ 3 ∧ p ≤ 63 ∧ s.isPort p = true)
    (fun s => (s, rcOk, [(Tbl.get ({} : Cnt) s.perf.cnt (8 * p + 4 + i)).read, s.sel (8 * p + 4 + i)] ++ (List.range 4).map (fun j => (Tbl.get ({} : Cnt) s.perf.cnt (8 * p + j)).read)))) ∧
  (∀ f en v, Answers 0xCE04 f (.perfOvfSet f en v)
    (fun _ _ _ => v ≤ 2047)
    (fun s => ({ s with perf := { s.perf with ovfEn := en, ovfVec := v, ovfPend := en && s.perf.ovfPend } }, rcOk, []))) ∧
  (∀ f i c, Answers 0xCE03 f (.perfSampleSet f i c)
    (fun _ _ s => i ≤ 3 ∧ c.length = 12 ∧ (smpOf c).ok = true ∧ (Tbl.get ({} : Sampler) s.perf.smp i).en = false ∧ (smpOf c).en = true)
    (fun s => ({ s with perf := { s.perf with smp := Tbl.set {} s.perf.smp i { smpOf c with sel := (Tbl.get ({} : Sampler) s.perf.smp i).sel, ended := (Tbl.get ({} : Sampler) s.perf.smp i).ended } } }, rcOk, []))) ∧
  (∀ f i c, Answers 0xCE03 f (.perfSampleSet f i c)
    (fun _ _ s => i ≤ 3 ∧ c.length = 12 ∧ (smpOf c).ok = true ∧ (Tbl.get ({} : Sampler) s.perf.smp i).en = true ∧ (smpOf c).setting = (Tbl.get ({} : Sampler) s.perf.smp i).setting)
    (fun s => ({ s with perf := { s.perf with smp := Tbl.set {} s.perf.smp i { Tbl.get ({} : Sampler) s.perf.smp i with en := (smpOf c).en } } }, rcOk, []))) ∧
  (∀ b, Occurs (.perfCtlFreeze b)
    (fun s => s.running = true)
    (fun s => { s with perf := { s.perf with freeze := b } })) ∧
  (Occurs (.perfCtlClear)
    (fun s => s.running = true)
    (fun s => { s with perf := { s.perf with cnt := [] } })) ∧
  (∀ i h, Occurs (.perfSmpHead i h)
    (fun s => s.running = true ∧ i < 4 ∧ h < 65536)
    (fun s => s.smpHead i h)) ∧
  (∀ i ns t r, Occurs (.sampleRecord i ns)
    (fun s => s.running = true ∧ i < 4 ∧ (Tbl.get ({} : Sampler) s.perf.smp i).ended = t :: r ∧ (Tbl.get ({} : Sampler) s.perf.smp i).used < 2 ^ (Tbl.get ({} : Sampler) s.perf.smp i).log2)
    (fun s => s.smpWrite i { Tbl.get ({} : Sampler) s.perf.smp i with ended := r } t ns)) ∧
  (∀ i ns t r, Occurs (.sampleRecord i ns)
    (fun s => s.running = true ∧ i < 4 ∧ (Tbl.get ({} : Sampler) s.perf.smp i).ended = t :: r ∧ 2 ^ (Tbl.get ({} : Sampler) s.perf.smp i).log2 ≤ (Tbl.get ({} : Sampler) s.perf.smp i).used)
    (fun s => s.smpLose i { Tbl.get ({} : Sampler) s.perf.smp i with ended := r })) ∧
  (Occurs (.overflowMessage)
    (fun s => s.running = true ∧ s.perf.ovfPend = true ∧ s.perf.ovfLast = none ∧ s.perf.event.has 23 = true ∧ s.perf.ovfEn = true)
    (fun s => s.ovfSend (bits s.perf.event.val.toNat 21 12))) ∧
  (Occurs (.overflowMessage)
    (fun s => s.running = true ∧ s.perf.ovfPend = true ∧ s.perf.ovfLast = none ∧ s.perf.event.has 23 = false)
    (fun s => { s with perf := { s.perf with ovfPend := false } }))

/-- FW_INFO answers the banks and the minimum SVN; FW_TRANSFER at offset 0 erases the bank that is not ACTIVE and puts it in STAGING with the data, and further data follow in sequence; FW_VERIFY starts the verification of a bank in STAGING; its end makes the bank STAGED, or INVALID with SIGNATURE_INVALID or ROLLBACK_REFUSED; FW_ACTIVATE makes a STAGED bank PENDING, with RESET_NOW followed by a MODULE reset after the response.
Completion: for every state and operands that meet the stated conditions on them alone, exec answers a next state for fwInfo, fwTransfer, fwVerify, fwVerifyDone, fwActivate. -/
def Obligations.Firmware : Prop :=
  (∀ f, Answers 0xCF01 f (.fwInfo f)
    (fun _ _ _ => True)
    (fun s => (s, rcOk, [s.fw.bank0.state.code, s.fw.bank0.version, s.fw.bank0.svn, s.fw.bank1.state.code, s.fw.bank1.version, s.fw.bank1.svn, s.fw.minSvn]))) ∧
  (∀ f data, Answers 0xCF02 f (.fwTransfer f 0 data)
    (fun _ _ s => s.opRunning 15 = false ∧ data ≠ [] ∧ data.length ≤ 4032)
    (fun s => 
      let base := bankBase s.stagingBank
      let old := s.fw.flash.filter (fun c => ! (decide (base ≤ c.1) && decide (c.1 < base + 0x1800000)))
      (({ s with fw := { s.fw with flash := data.zipIdx.foldl (fun l x => flashPut l (base + 0 + x.2) x.1) old } } : State).setBank s.stagingBank { state := .staging, size := 0 + data.length, version := 0, svn := 0 }, rcOk, []))) ∧
  (∀ f off data, Answers 0xCF02 f (.fwTransfer f off data)
    (fun _ _ s => s.opRunning 15 = false ∧ data ≠ [] ∧ data.length ≤ 4032 ∧ off + data.length ≤ 0x1800000 ∧ 0 < off ∧ (s.bank s.stagingBank).state = .staging ∧ (s.bank s.stagingBank).size = off)
    (fun s => (({ s with fw := { s.fw with flash := data.zipIdx.foldl (fun l x => flashPut l (bankBase s.stagingBank + off + x.2) x.1) s.fw.flash } } : State).setBank s.stagingBank { state := .staging, size := off + data.length, version := 0, svn := 0 }, rcOk, []))) ∧
  (∀ f, Answers 0xCF03 f (.fwVerify f)
    (fun _ _ s => s.opRunning 15 = false ∧ (s.bank s.stagingBank).state = .staging)
    (fun s => ((s.startOp 15 0xCF03 (s.bank s.stagingBank).size).1, rcBg, [(s.startOp 15 0xCF03 (s.bank s.stagingBank).size).2]))) ∧
  (Occurs (.fwVerifyDone)
    (fun s => s.opRunning 15 = true)
    (fun s => 
      let b := s.bank s.stagingBank
      let img := s.bankCells s.stagingBank
      let st := if Config.imageGood img then (if Config.imageSvn img < s.fw.minSvn then 7 else 0) else 6
      ((s.setBank s.stagingBank { b with state := (if st = 0 then .staged else .invalid), svn := Config.imageSvn img, version := Config.imageVersion img }).posOp 15 b.size).endOp 15 st (some (Config.imageSvn img)))) ∧
  (∀ f, Answers 0xCF04 f (.fwActivate f false)
    (fun _ _ s => s.fw.bank0.state = .staged)
    (fun s => (s.setBank 0 { s.fw.bank0 with state := .pending }, rcOk, []))) ∧
  (∀ f, Answers 0xCF04 f (.fwActivate f false)
    (fun _ _ s => s.fw.bank0.state ≠ .staged ∧ s.fw.bank1.state = .staged)
    (fun s => (s.setBank 1 { s.fw.bank1 with state := .pending }, rcOk, []))) ∧
  (∀ f, Answers 0xCF04 f (.fwActivate f true)
    (fun _ _ s => s.fw.bank0.state = .staged)
    (fun s => (((s.setBank 0 { s.fw.bank0 with state := .pending }).reply f 0xCF04 rcOk []).mrTrigger false, rcLater, [])))

/-- A GLOBAL_LOCK write sets the lock bits given and clears none; a sequence clear acts on its event register; a write through BAR0 of the PRIMARY port or BAR2 of an upstream port reaches the register it names; a triple-voted read and the vote pass repair the copies of a field; a read of a counter's low word latches its high word for that requester.
Completion: for every state and operands that meet the stated conditions on them alone, exec answers a next state for globalLockWrite, sequenceClear, registerWrite, tvRead, votePass, counterLowRead. -/
def Obligations.DirectRegisters : Prop :=
  (∀ v, Occurs (.globalLockWrite v)
    (fun s => s.d6Up = true)
    (fun s => { s with glob := { s.glob with lock := Tri.all (s.glob.lock.maj ||| BitVec.ofNat 64 (v % 32)) } })) ∧
  (∀ off v, Occurs (.sequenceClear off v)
    (fun s => s.running = true ∨ (s.d6Up = true ∧ off < 0x30000))
    (fun s => s.sqcWrite off v)) ∧
  (∀ p off w v, Occurs (.registerWrite false p off w v)
    (fun s => s.running = true ∧ s.isUp p = true ∧ (s.port p).up = true ∧ s.primary = some p)
    (fun s => s.regWrite off w v)) ∧
  (∀ p off w v, Occurs (.registerWrite true p off w v)
    (fun s => s.running = true ∧ s.isUp p = true ∧ (s.port p).up = true)
    (fun s => s.pageWrite p off w v)) ∧
  (∀ n, Occurs (.tvRead n)
    (fun s => s.running = true)
    (fun s => s.tvFixAll (tvField n))) ∧
  (Occurs (.votePass)
    (fun s => s.d6Up = true)
    (fun s => s.tvFixAll tvAll)) ∧
  (∀ q off, Occurs (.counterLowRead q off)
    (fun s => s.running = true ∧ isCounter off = true)
    (fun s => (s.regRead q off 4).1))

/-- The cores wake and halt when nothing is left for them; cores that have not run 100 ms after a wake event are CORE_WDOG; a switch die with power has its PLL locked; an idle plane is gated and ungated; a hole of a flow is reported and passed over; spilled cells return up to LOW.
Completion: for every state and operands that meet the stated conditions on them alone, exec answers a next state for coreWake, coreHalt, coreWdog, corePllLock, planeIdleGate, planeUngate, reseqHole, spillReadBack. -/
def Obligations.CoresAndPlanes : Prop :=
  (Occurs (.coreWake)
    (fun s => s.glob.pstate ≠ .off)
    (fun s => { s with svc := { s.svc with coresRun := true, wake := false } })) ∧
  (Occurs (.coreHalt)
    (fun s => s.svc.coresRun = true ∧ s.svc.wake = false ∧ s.mbx.waiting = [] ∧ s.mbx.ops.any (fun o => o.2.running) = false ∧ s.mbx.fwds = [] ∧ s.mbx.harvests = [] ∧ s.pool.homeReqs = [] ∧ s.faults.acts = [] ∧ s.pending = [])
    (fun s => { s with svc := { s.svc with coresRun := false } })) ∧
  (Occurs (.coreWdog)
    (fun s => s.svc.wake = true ∧ s.svc.coresRun = false ∧ s.glob.pstate ≠ .off ∧ s.glob.pstate ≠ .stopped)
    (fun s => s.fault 0x0408 (s.dieLoc 6) 0xFF)) ∧
  (Occurs (.corePllLock 0)
    (fun s => s.sill.pol = true)
    (fun s => { s with svc := { s.svc with pll0 := true } })) ∧
  (Occurs (.corePllLock 1)
    (fun s => s.sill.pol = true)
    (fun s => { s with svc := { s.svc with pll1 := true } })) ∧
  (∀ p, Occurs (.planeIdleGate p)
    (fun s => p < 4 ∧ s.running = true ∧ s.xbar.gated.getLsbD p = false ∧ s.xbar.voq = [])
    (fun s => { s with xbar := { s.xbar with gated := s.xbar.gated ||| ((1 : BitVec 4) <<< p) } })) ∧
  (∀ p, Occurs (.planeUngate p)
    (fun s => p < 4 ∧ s.running = true ∧ s.xbar.gated.getLsbD p = true)
    (fun s => { s with xbar := { s.xbar with gated := s.xbar.gated &&& ~~~((1 : BitVec 4) <<< p) } })) ∧
  (∀ a b k, Occurs (.reseqHole a b k)
    (fun s => a < 128 ∧ b < 128 ∧ k < 6 ∧ s.xbar.held.filter (fun c => c.flow == flowNo a b k) ≠ [])
    (fun s => 
      let mine := s.xbar.held.filter (fun c => c.flow == flowNo a b k)
      let e := Tbl.get 0 s.xbar.expSeq (flowNo a b k)
      let o := mine.foldl (fun (m : Nat) c => if seqAhead c.seq e < seqAhead m e then c.seq else m) ((mine.map (fun c => c.seq)).headD e)
      let d : Reg32 := BitVec.ofNat 32 (a * 2 ^ 25 + k * 2 ^ 22 + e * 2 ^ 10 + min (seqAhead o e) 1023)
      let s1 := ((s.report 0x0109 (s.pointLoc b) d (if b < 0x40 then b else 0xFF)).count 0x14 b 0 (b2n (decide (b < 0x40)))).passedOver (flowNo a b k) e (seqAhead o e)
      ({ s1 with xbar := { s1.xbar with expSeq := Tbl.set 0 s1.xbar.expSeq (flowNo a b k) o, part := dropOf (flowNo a b k) s1.xbar.part } } : State).release (flowNo a b k) s1.xbar.held.length)) ∧
  (∀ p, Occurs (.spillReadBack p)
    (fun s => s.running = true ∧ s.xbar.spillQ.any (fun e => e.2.2.dst == p && e.2.1 == 0) = true ∧ s.underLow (s.bulkAt p + s.spillOut p) = true)
    (fun s => s.spillMore p 512))

/-- RST_N low triggers a MODULE reset; the core reset cuts sessions, tables and the dies and holds; with RST_N high and no thermal hold release restarts the cores and the converters or leaves STANDBY; READY follows and the goal after it. A drained keeper slice of a targeted reset is written back and reset, and a finished reset returns its elements to service and is journalled.
Completion: for every state and operands that meet the stated conditions on them alone, exec answers a next state for rstNLow, rstNRelease, moduleResetCoreReset, moduleResetRelease, moduleResetReady, sliceDrainDone, resetDone. -/
def Obligations.ResetSteps : Prop :=
  (∀ s : State, exec .rstNLow s = .next (({ s with svc := { s.svc with rstN := false } } : State).mrTrigger true).settle) ∧
  (∀ s : State, exec .rstNRelease s = .next { s with svc := { s.svc with rstN := true }, sill := { s.sill with pol := s.sill.pol || (s.glob.pstate == .standby && s.svc.mr == .idle && s.sill.state == .on && s.sill.selfTest && s.sill.goal != .standby) } }) ∧
  (∀ t, Occurs (.moduleResetCoreReset)
    (fun s => s.svc.mr = .triggered t)
    (fun s => { s.moduleCut with svc := { s.moduleCut.svc with mr := .held, thermHold := if s.therm.tripped.contains 6 then [6] else [] }, therm := { s.moduleCut.therm with tripped := s.moduleCut.therm.tripped.filter (fun d => d == 6) } })) ∧
  (Occurs (.moduleResetRelease)
    (fun s => s.svc.mr = .held ∧ s.svc.rstN = true ∧ s.svc.thermHold = [] ∧ s.mrRelease.sill.state = .on ∧ s.mrRelease.sill.goal ≠ .standby)
    (fun s => { s.mrRelease with svc := { s.mrRelease.svc with mr := .released }, sill := { s.mrRelease.sill with pol := true } })) ∧
  (Occurs (.moduleResetRelease)
    (fun s => s.svc.mr = .held ∧ s.svc.rstN = true ∧ s.svc.thermHold = [] ∧ ¬ (s.mrRelease.sill.state = .on ∧ s.mrRelease.sill.goal ≠ .standby))
    (fun s => { s.mrRelease with svc := { s.mrRelease.svc with mr := .idle }, sill := { s.mrRelease.sill with pol := false }, glob := { s.mrRelease.glob with pstate := .standby } })) ∧
  (Occurs (.moduleResetReady)
    (fun s => s.svc.mr = .released)
    (fun s => s.enterReady.toGoal)) ∧
  (∀ k, Occurs (.sliceDrainDone k)
    (fun s => s.svc.resets.any (fun r => r.draining.contains k) = true ∧ s.drained k = true)
    (fun s => 
      let inKs := fun line => sliceHash (line * 64) == k
      let s1 := (s.keeper.alc.filter (fun c => inKs c.line)).foldl (fun s c => s.alcFlush c.line) s
      let s2 := (s1.keeper.rlc.filter (fun c => inKs c.line)).foldl (fun s c => if c.dirty then (s.rlcDrop c.line).wbHome c.line false c.data false else s.rlcDrop c.line) s1
      { s2 with
        keeper := { s2.keeper with dir := Tbl.keep (fun d _ => decide (d / 28672 ≠ k)) s2.keeper.dir, victims := s2.keeper.victims.filter (fun v => v.1 != k), sweeps := s2.keeper.sweeps.filter (fun w => ! (w.why == 3 && w.arg == k)) }
        svc := { s2.svc with resets := s2.svc.resets.map (fun r => { r with draining := r.draining.filter (fun x => x != k) }) } })) ∧
  (∀ l x, Occurs (.resetDone l)
    (fun s => s.svc.resets.find? (fun r => r.loc == l) = some x ∧ x.draining = [])
    (fun s => 
      let fin := s.svc.finished ++ [(x.kind, l)]
      (((({ s with svc := { s.svc with resets := s.svc.resets.erase x, finished := fin.drop (fin.length - 16) } } : State).resetFinish x.kind l).journal
        { type := 5, status := 0, code := x.kind, opid := 0, position := 0, arg := l.toNat, time := 0 }).summary 5 0)))

/-- A request of an agent that can send it is admitted at the slice of its address as the opcode it carries: RdS, RdX, Upg, WrInvFull, WrInvPart, Evict, or AtomOp with its record and the record of the next slot; and WbData of an agent the slice knows arrives with its data.
Completion: for every state and operands that meet the stated conditions on them alone, exec answers a next state for rds, rdx, upg, wrinvfull, wrinvpart, evict, atomop, wbdata. -/
def Obligations.CoherenceRequests : Prop :=
  (∀ r, Occurs (.rds r)
    (fun s => s.reqFrom r.src r.fpa = true)
    (fun s => s.admitReq { kind := .rds, r := r, record := 0, nextRec := 0 })) ∧
  (∀ r, Occurs (.rdx r)
    (fun s => s.reqFrom r.src r.fpa = true)
    (fun s => s.admitReq { kind := .rdx, r := r, record := 0, nextRec := 0 })) ∧
  (∀ r, Occurs (.upg r)
    (fun s => s.reqFrom r.src r.fpa = true)
    (fun s => s.admitReq { kind := .upg, r := r, record := 0, nextRec := 0 })) ∧
  (∀ r, Occurs (.wrinvfull r)
    (fun s => s.reqFrom r.src r.fpa = true)
    (fun s => s.admitReq { kind := .wrInvFull, r := r, record := 0, nextRec := 0 })) ∧
  (∀ r, Occurs (.wrinvpart r)
    (fun s => s.reqFrom r.src r.fpa = true)
    (fun s => s.admitReq { kind := .wrInvPart, r := r, record := 0, nextRec := 0 })) ∧
  (∀ r, Occurs (.evict r)
    (fun s => s.reqFrom r.src r.fpa = true)
    (fun s => s.admitReq { kind := .evict, r := r, record := 0, nextRec := 0 })) ∧
  (∀ r x y, Occurs (.atomop r x y)
    (fun s => s.reqFrom r.src r.fpa = true)
    (fun s => s.admitReq { kind := .atomOp, r := r, record := x, nextRec := y, area := s.posterArea r.src })) ∧
  (∀ m, Occurs (.wbdata m)
    (fun s => s.running = true ∧ s.present m.src = true ∧ (s.homed m.fpa = true ∨ m.src.isMod = false))
    (fun s => s.wbArrives m.src m.fpa m.k m.data m.poison))

/-- A snoop of a line's home module is answered by the proxy side: SnpInv, SnpShr and SnpData for the line, BIRecall for each masked line of the sector. A response that fits the snoop open toward its sender arrives as RspI, RspS, RspO or RspWbPend, and a snoop that times out is taken as answered by a departed holder and reported.
Completion: for every state and operands that meet the stated conditions on them alone, exec answers a next state for snpinv, snpshr, snpdata, birecall, rspi, rsps, rspo, rspwbpend, snoopTimeout. -/
def Obligations.CoherenceSnoops : Prop :=
  (∀ m, Occurs (.snpinv m)
    (fun s => s.fromHome m = true)
    (fun s => s.proxySnoop .inv m.nd (lineOf m.fpa))) ∧
  (∀ m, Occurs (.snpshr m)
    (fun s => s.fromHome m = true)
    (fun s => s.proxySnoop .shr false (lineOf m.fpa))) ∧
  (∀ m, Occurs (.snpdata m)
    (fun s => s.fromHome m = true)
    (fun s => s.proxySnoop .data false (lineOf m.fpa))) ∧
  (∀ m, Occurs (.birecall m)
    (fun s => s.fromHome m = true)
    (fun s => [0, 1, 2, 3].foldl (fun s j => if bit m.lmask j then s.proxySnoop .recall false (m.fpa / 256 * 4 + j) else s) s)) ∧
  (∀ m w, Occurs (.rspi m)
    (fun s => s.running = true ∧ s.waitOf m.src (lineOf m.fpa) = some w)
    (fun s => s.rspArrives m .rspI)) ∧
  (∀ m w, Occurs (.rsps m)
    (fun s => s.running = true ∧ s.waitOf m.src (lineOf m.fpa) = some w ∧ (w.kind = .shr ∨ w.kind = .data))
    (fun s => s.rspArrives m .rspS)) ∧
  (∀ m w, Occurs (.rspo m)
    (fun s => s.running = true ∧ s.waitOf m.src (lineOf m.fpa) = some w ∧ w.kind = .data ∧ w.agent.isMod = true)
    (fun s => s.rspArrives m .rspO)) ∧
  (∀ m w, Occurs (.rspwbpend m)
    (fun s => s.running = true ∧ s.waitOf m.src (lineOf m.fpa) = some w)
    (fun s => s.rspArrives m .wbPend)) ∧
  (∀ fpa a w, Occurs (.snoopTimeout fpa a)
    (fun s => s.waitOf a (lineOf fpa) = some w)
    (fun s => (((s.smpEnd w.agent 1 (1, w.line / 4) 4).synthesise w).count 0x4C (sliceHash fpa) 0 1).fault 0x010B (s.holderLoc a).1 (s.holderLoc a).2))

/-- Cmp closes a transaction that waits for its requester's acknowledgement; from a home it ends a write-back of the line first, otherwise it grants the request forwarded; CmpPoison grants it poisoned. DataS, DataM and DataO complete the answer of the holder whose snoop is open; DataS, DataE and DataM of a home grant the request forwarded, poisoned where marked. The oldest queued request of a line that can open a transaction does.
Completion: for every state and operands that meet the stated conditions on them alone, exec answers a next state for cmp, cmppoison, datas, datae, datam, datao, conflictQueueResume. -/
def Obligations.CoherenceData : Prop :=
  (∀ m t, Occurs (.cmp m)
    (fun s => s.running = true ∧ s.homed m.fpa = true ∧ s.txn (lineOf m.fpa) = some t ∧ t.stage = .ack ∧ t.q.r.src = m.src)
    (fun s => s.closeTxn (lineOf m.fpa))) ∧
  (∀ m, Occurs (.cmp m)
    (fun s => s.homed m.fpa = false ∧ s.fromHome m = true ∧ s.keeper.wbs.contains (.mod s.glob.midx, lineOf m.fpa) = true)
    (fun s => { s with keeper := { s.keeper with wbs := s.keeper.wbs.erase (.mod s.glob.midx, lineOf m.fpa) } })) ∧
  (∀ m t, Occurs (.cmp m)
    (fun s => s.homed m.fpa = false ∧ s.fromHome m = true ∧ s.keeper.wbs.contains (.mod s.glob.midx, lineOf m.fpa) = false ∧ s.fwdTxn (lineOf m.fpa) = some t)
    (fun s => s.proxyGrant t .cmp 0)) ∧
  (∀ m t, Occurs (.cmppoison m)
    (fun s => s.fromHome m = true ∧ s.fwdTxn (lineOf m.fpa) = some t)
    (fun s => s.proxyGrant t .poison 0)) ∧
  (∀ m w, Occurs (.datas m)
    (fun s => s.running = true ∧ s.holderData 0x18 m = some w)
    (fun s => s.datArrives w m.data m.poison false)) ∧
  (∀ m t, Occurs (.datas m)
    (fun s => s.fromHome m = true ∧ s.holderData 0x18 m = none ∧ s.fwdTxn (lineOf m.fpa) = some t)
    (fun s => s.proxyGrant t (if m.poison then .poison else .dataS) m.data)) ∧
  (∀ m t, Occurs (.datae m)
    (fun s => s.fromHome m = true ∧ s.holderData 0x19 m = none ∧ s.fwdTxn (lineOf m.fpa) = some t)
    (fun s => s.proxyGrant t (if m.poison then .poison else .dataE) m.data)) ∧
  (∀ m w, Occurs (.datam m)
    (fun s => s.running = true ∧ s.holderData 0x1A m = some w)
    (fun s => s.datArrives w m.data m.poison false)) ∧
  (∀ m t, Occurs (.datam m)
    (fun s => s.fromHome m = true ∧ s.holderData 0x1A m = none ∧ s.fwdTxn (lineOf m.fpa) = some t)
    (fun s => s.proxyGrant t (if m.poison then .poison else .dataM) m.data)) ∧
  (∀ m w, Occurs (.datao m)
    (fun s => s.running = true ∧ s.holderData 0x1B m = some w)
    (fun s => s.datArrives w m.data m.poison false)) ∧
  (∀ k fpa q, Occurs (.conflictQueueResume k fpa)
    (fun s => s.queuedAt k fpa = some q ∧ s.mustQueue q = false)
    (fun s => ({ s with keeper := { s.keeper with cq := s.keeper.cq.erase q } } : State).admitAgain q))

/-- A host's read translates and meets its shapers as its class says; its write invalidates; a write to a posting window is charged to the slice that owns it; a back-invalidate's answer and a conflict are matched to their line; a device's request is checked by its ward; completions of an expander end the access that is open; a passed-through read or write is split into lines; a CXL.io TLP is routed unchanged, and answered Unsupported Request toward a departed partner.
Completion: for every state and operands that meet the stated conditions on them alone, exec answers a next state for m2sReq, m2sRwd, postingWindowWrite, m2sBirsp, biconflict, d2hReq, s2mDrs, s2mNdrCmp, passthruMemRequest, cxlioTlp. -/
def Obligations.HostRequests : Prop :=
  (∀ h i off n e fpa k, Occurs (.m2sReq h)
    (fun s => s.hostTakes h.port = true ∧ h.hoff < 2 ^ 46 ∧ s.isDb h.port = true ∧ s.hostAt h.port = some i ∧ off = h.hoff / 64 * 64 ∧ s.windowAt i off = none ∧ s.translate i off = some (n, e, fpa) ∧ e.access ≠ 1 ∧ k = hostKind true h ∧ (k.1 = .rds ∨ k.1 = .rdx))
    (fun s => (s.owes h.port (lineOf fpa)).hostCharge (s.hostSlice i n) h.port { kind := k.1, r := { src := .host i, fpa := fpa, nt := k.2, mask := 0, data := 0 }, record := 0, nextRec := 0 } (some 1) h.way)) ∧
  (∀ h i off n e fpa, Occurs (.m2sReq h)
    (fun s => s.hostTakes h.port = true ∧ h.hoff < 2 ^ 46 ∧ s.isDb h.port = true ∧ s.hostAt h.port = some i ∧ off = h.hoff / 64 * 64 ∧ s.windowAt i off = none ∧ s.translate i off = some (n, e, fpa) ∧ h.evict = true)
    (fun s => s.hostCharge (s.hostSlice i n) h.port { kind := .evict, r := { src := .host i, fpa := fpa, nt := false, mask := 0, data := 0 }, record := 0, nextRec := 0 } none h.way)) ∧
  (∀ h i, Occurs (.m2sRwd h)
    (fun s => s.hostTakes h.port = true ∧ h.hoff < 2 ^ 46 ∧ s.hostAt h.port = some i ∧ s.windowAt i h.hoff = none ∧ (s.isDb h.port = false ∨ h.ptl = true ∨ 2 ≤ h.mv))
    (fun s => s.hostWrite h i)) ∧
  (∀ h i fpa, Occurs (.m2sRwd h)
    (fun s => s.hostTakes h.port = true ∧ h.hoff < 2 ^ 46 ∧ s.hostAt h.port = some i ∧ s.windowAt i h.hoff = none ∧ s.isDb h.port = true ∧ h.ptl = false ∧ h.mv ≤ 1 ∧ s.backTrans h.port i (h.hoff / 64 * 64) = some fpa)
    (fun s => s.hostWb h.port i fpa (h.mv == 1) h.data h.way)) ∧
  (∀ h i n, Occurs (.m2sRwd h)
    (fun s => s.hostTakes h.port = true ∧ h.hoff < 2 ^ 46 ∧ s.hostAt h.port = some i ∧ s.windowAt i h.hoff = some n)
    (fun s => s.postWrite h n)) ∧
  (∀ h i n, Occurs (.postingWindowWrite h)
    (fun s => s.hostTakes h.port = true ∧ h.hoff < 2 ^ 46 ∧ s.hostAt h.port = some i ∧ s.windowAt i h.hoff = some n)
    (fun s => s.postWrite h n)) ∧
  (∀ p off sh i fpa, Occurs (.m2sBirsp p off ⟨sh, false⟩)
    (fun s => s.running = true ∧ (s.port p).up = true ∧ s.isDb p = true ∧ s.hostAt p = some i ∧ s.backTrans p i (off / 64 * 64) = some fpa ∧ s.hs.biOpen.contains (p, lineOf fpa) = true)
    (fun s => s.biAnswer p i (lineOf fpa) sh)) ∧
  (∀ p off sh i fpa, Occurs (.m2sBirsp p off ⟨sh, true⟩)
    (fun s => s.running = true ∧ (s.port p).up = true ∧ s.isDb p = true ∧ s.hostAt p = some i ∧ s.backTrans p i (off / 64 * 64) = some fpa ∧ s.hs.biOpen.contains (p, lineOf fpa) = true)
    (fun s => [0, 1, 2, 3].foldl (fun s j => if s.hs.biOpen.contains (p, lineOf fpa / 4 * 4 + j) then s.biAnswer p i (lineOf fpa / 4 * 4 + j) sh else s) s)) ∧
  (∀ p off i fpa, Occurs (.biconflict p off)
    (fun s => s.running = true ∧ (s.port p).up = true ∧ s.isDb p = true ∧ s.hostAt p = some i ∧ s.backTrans p i (off / 64 * 64) = some fpa ∧ s.hs.owed.contains (p, lineOf fpa) = false)
    (fun s => s.emit (.s2m p 4 (lineOf fpa * 64) 0 false 0))) ∧
  (∀ p off i fpa, Occurs (.biconflict p off)
    (fun s => s.running = true ∧ (s.port p).up = true ∧ s.isDb p = true ∧ s.hostAt p = some i ∧ s.backTrans p i (off / 64 * 64) = some fpa ∧ s.hs.owed.contains (p, lineOf fpa) = true)
    (fun s => { s with hs := { s.hs with conflicts := addOnce (p, lineOf fpa) s.hs.conflicts } })) ∧
  (∀ d x r p, Occurs (.d2hReq d x r)
    (fun s => s.running = true ∧ s.svc.ingressShut = false ∧ x < 9 ∧ r.fpa < 2 ^ 52 ∧ s.devPort d = some p ∧ (s.port p).up = true ∧ (s.port p).fenced = false)
    (fun s => 
      let q : QReq := { kind := (d2hKind x).1, r := { r with src := .dev d, nt := (d2hKind x).2 }, record := 0, nextRec := 0 }
      let w := s.wardDecide (Tbl.get (0xFFF : BitVec 12) s.ward.devCut d) r.fpa
      match rightsLeave w.1 (d2hKind x).1 with
      | none => (((s.sample (q.sampled p p none)).smpEnd q.r.src 0 (0, lineOf q.r.fpa) 2).deny none p w.2).hostDenied q
      | some .evict => s.cross p q .clean
      | some k1 => s.ingress p { q with kind := k1 } .clean)) ∧
  (∀ d r p, Occurs (.d2hReq d 9 r)
    (fun s => s.running = true ∧ s.svc.ingressShut = false ∧ r.fpa < 2 ^ 52 ∧ s.devPort d = some p ∧ (s.port p).up = true ∧ (s.port p).fenced = false)
    (fun s => s.cellIn { cls := 3, opc := 0x1C, src := p, dst := 0x40 + sliceHash r.fpa, addr := r.fpa, len := 63, load := .wb (.dev d) r.fpa false r.data false })) ∧
  (∀ p fpa x d a, Occurs (.s2mDrs p fpa x d)
    (fun s => s.handedAt p fpa false = some a)
    (fun s => (s.memDone p a).memCell p a x d)) ∧
  (∀ p fpa a, Occurs (.s2mNdrCmp p fpa)
    (fun s => s.handedAt p fpa true = some a)
    (fun s => (s.memDone p a).memCell p a false 0)) ∧
  (∀ p l a addr len wr d h q, Occurs (.passthruMemRequest ⟨p, l⟩ a addr len wr d)
    (fun s => s.passLive p = true ∧ s.bridgeHost p l = some h ∧ s.svc.ingressShut = false ∧ 1 ≤ len ∧ len ≤ 4096 ∧ 2 ^ 46 ≤ addr ∧ s.hostPort h = some q)
    (fun s => s.emit (.tlp q 0 []))) ∧
  (∀ p l a addr len wr d h, Occurs (.passthruMemRequest ⟨p, l⟩ a addr len wr d)
    (fun s => s.passLive p = true ∧ s.bridgeHost p l = some h ∧ s.svc.ingressShut = false ∧ 1 ≤ len ∧ len ≤ 4096 ∧ addr < 2 ^ 46 ∧ s.sliceKey h a = none)
    (fun s => s.emit (.tlp p 1 []))) ∧
  (∀ p l a addr len wr d h n, Occurs (.passthruMemRequest ⟨p, l⟩ a addr len wr d)
    (fun s => s.passLive p = true ∧ s.bridgeHost p l = some h ∧ s.svc.ingressShut = false ∧ 1 ≤ len ∧ len ≤ 4096 ∧ addr < 2 ^ 46 ∧ s.sliceKey h a = some n)
    (fun s => 
      let c := s.charge (some n) p (if wr then 2 else 1) ((len + 63) / 64 * 64) (.pass p (passLines p addr len wr d))
      if c.2 then c.1.passGo (some n) p (passLines p addr len wr d) else c.1)) ∧
  (∀ p l t h q, Occurs (.cxlioTlp ⟨p, l⟩ false t)
    (fun s => s.running = true ∧ s.isUp p = false ∧ s.passLive p = true ∧ s.bridgeHost p l = some h ∧ s.hostPort h = some q)
    (fun s => s.emit (.tlp q 0 t))) ∧
  (∀ p l t h q, Occurs (.cxlioTlp ⟨p, l⟩ true t)
    (fun s => s.isUp p = false ∧ s.running = true ∧ s.passLive p = true ∧ s.bridgeHost p l = some h ∧ s.hostPort h = some q ∧ (isCfg t = false ∨ (s.port q).enum = false))
    (fun s => s.emit (.tlp p 0 t))) ∧
  (∀ p l t h q, Occurs (.cxlioTlp ⟨p, l⟩ true t)
    (fun s => s.isUp p = false ∧ s.running = true ∧ s.passLive p = false ∧ s.bridgeHost p l = some h ∧ s.hostPort h = some q ∧ (isCfg t = false ∨ (s.port q).enum = false))
    (fun s => s.emit (.tlp q 1 []))) ∧
  (∀ p l t, Occurs (.cxlioTlp ⟨p, l⟩ true t)
    (fun s => s.running = true ∧ s.isUp p = true ∧ (s.port p).up = true ∧ (s.port p).enum = true ∧ isCfg t = true)
    (fun s => s.emit (.tlp p 4 [])))

/-- A request joins its requester's queue and is granted at once where it is the next; a waiting request is granted; a hand-off that ends leaves the arbiter at rest and sends its access; a grant held too long is cut off where enabled and fails; a mask raises the sideband and an unmask lowers it; the oldest parked request fails at its timeout; a patrol read leaves its scrub engine as a cell for the arbiter and moves the scrub position on.
Completion: for every state and operands that meet the stated conditions on them alone, exec answers a next state for arbRequest, arbGrant, arbHandoffDone, arbHold, arbMask, arbUnmask, arbParkTimeout, scrubPatrol. -/
def Obligations.Arbiters : Prop :=
  (∀ p q w u, Occurs (.arbRequest p q w u)
    (fun s => s.isDown p = true ∧ q < 52 ∧ 1 ≤ u ∧ u ≤ 32 ∧ ((s.arbOf p).pend.filter (fun x => x.req == q)).length < 64 ∧ (s.arbOf p).unsent.any (fun x => x.req == q) = false ∧ (s.arbOf p).fenced = false)
    (fun s => 
      let x : Pend := { req := q, write := w, units := u, since := s.now }
      let s1 := s.modArb p (fun a => { a with pend := a.pend ++ [x] })
      if s1.arbIdle p ∧ s1.arbNext p = some x then (s1.arbGive p x).l1Hold p else s1)) ∧
  (∀ p x, Occurs (.arbGrant p)
    (fun s => s.isDown p = true ∧ s.arbIdle p = true ∧ s.arbNext p = some x)
    (fun s => (s.arbGive p x).l1Hold p)) ∧
  (∀ p g x, Occurs (.arbHandoffDone p)
    (fun s => (s.arbOf p).grant = some g ∧ (s.port p).lanes ≠ .l1 ∧ g.acc = some x)
    (fun s => (s.modArb p (fun a => ({ a with handed := a.handed ++ [x] } : Arb).rest)).accSent g.req x)) ∧
  (∀ p g, Occurs (.arbHandoffDone p)
    (fun s => (s.arbOf p).grant = some g ∧ (s.port p).lanes ≠ .l1 ∧ g.acc = none)
    (fun s => s.modArb p (fun a => a.rest))) ∧
  (∀ p g, Occurs (.arbHold p)
    (fun s => (s.arbOf p).grant = some g ∧ bit (s.arbOf p).ctl.toNat 30 = true)
    (fun s => 
      let s1 := ((s.modArb p Arb.rest).arbEvent p 17 g.req).count 0x11 p (2 ^ tierOf g.req) 1
      (s1.report 0x010D (s1.arbLoc p) (BitVec.ofNat 32 g.req) p).pendFails g true 9)) ∧
  (∀ p q, Occurs (.arbMask p q)
    (fun s => s.isDown p = true ∧ q < 52 ∧ (s.arbOf p).side.getLsbD q = false)
    (fun s => (s.modArb p (fun a => { a with side := a.side ||| ((1 : BitVec 52) <<< q) })).maskNow p false)) ∧
  (∀ p q, Occurs (.arbUnmask p q)
    (fun s => (s.arbOf p).side.getLsbD q = true ∧ s.xbar.down.getLsbD q = false)
    (fun s => s.modArb p (fun a => ({ a with side := a.side &&& ~~~((1 : BitVec 52) <<< q), masked := a.masked &&& ~~~((1 : BitVec 52) <<< q) } : Arb).refill))) ∧
  (∀ p q x, Occurs (.arbParkTimeout p q)
    (fun s => (s.arbOf p).pend.find? (fun x => x.req == q) = some x)
    (fun s => (s.modArb p (fun a => ({ a with pend := a.pend.erase x } : Arb).refill)).pendFails x true 9)) ∧
  (∀ d p, Occurs (.scrubPatrol d p)
    (fun s => d < 2 ∧ s.isDown p = true ∧ s.running = true ∧ s.xbar.scrubOff.contains d = false ∧ s.diePoints d = true ∧ (s.arbOf p).fenced = false ∧ ((s.arbOf p).pend.filter (fun x => x.req == 50 + d)).length < 64)
    (fun s => ({ s with xbar := { s.xbar with scrubPos := Tbl.set 0 s.xbar.scrubPos d ((Tbl.get 0 s.xbar.scrubPos d + 64) % 2 ^ 52) } } : State).putCell
        { cls := 0, opc := 0, src := 0x72 + d, dst := p, addr := (s.patrolAcc d p).fpa, load := .acc (s.patrolAcc d p) }))

/-- PERST_N low resets every port of an upstream group and its release lets the group's lanes leave DEEP; the release timer of a downstream group in service drives PERST_N high; a stable or returned clock lets the lanes of its quadrant go on; a lost clock drops its links with cause 5 and is reported by each port cluster; a receiver that is found trains where it may.
Completion: for every state and operands that meet the stated conditions on them alone, exec answers a next state for perstNLow, perstNRelease, perstReleaseTimer, refclkStable, refclkLoss, refclkReturn, receiverDetect. -/
def Obligations.GroupsAndClocks : Prop :=
  (∀ g, Occurs (.perstNLow g)
    (fun s => g < 16 ∧ roleOf (mapEntry s.ports.map g) = 1 ∧ s.perstDown g = false ∧ (s.group g).hostLow = false)
    (fun s => (s.groupPorts g).foldl (fun s p => s.portReset p) (s.modGroup g (fun x => { x with hostLow := true })))) ∧
  (∀ g, Occurs (.perstNRelease g)
    (fun s => (s.group g).hostLow = true)
    (fun s => 
      let s1 := s.modGroup g (fun x => { x with hostLow := false })
      if s1.grpLive g ∧ roleOf (mapEntry s1.ports.map g) = 1 then s1.leaveDeep g else s1)) ∧
  (∀ g, Occurs (.perstReleaseTimer g)
    (fun s => g < 16 ∧ roleOf (mapEntry s.ports.map g) = 2 ∧ (s.group g).driven = true ∧ (s.group g).bringUp = true ∧ s.grpLive g = true ∧ (s.groupPorts g).all (fun p => (s.port p).lanes != .deep) = true)
    (fun s => (s.modGroup g (fun x => { x with driven := false, bringUp := false })).emit (.pin (.perstN g) true))) ∧
  (∀ k, Occurs (.refclkStable k)
    (fun s => k < 8 ∧ s.ports.refOk.contains k = false)
    (fun s => ({ s with ports := { s.ports with refOk := addOnce k s.ports.refOk, refLost := dropOf k s.ports.refLost } } : State).clockHere k)) ∧
  (∀ k, Occurs (.refclkLoss k)
    (fun s => k < 8 ∧ s.ports.refLost.contains k = false)
    (fun s => 
      let s1 : State := { s with ports := { s.ports with refOk := dropOf k s.ports.refOk, refLost := addOnce k s.ports.refLost } }
      let s2 := (((List.range 8).map (8 * k + ·)).filter (fun p => s1.isPort p)).foldl (fun s p => if (s.port p).up then s.departStart p 5 else if (s.port p).lanes = .training then s.linkDrop p else s) s1
      [0, 1, 2, 3].foldl (fun s c => s.fault 0x0201 (s.cluLoc k c) 0xFF) s2)) ∧
  (∀ k, Occurs (.refclkReturn k)
    (fun s => s.ports.refLost.contains k = true)
    (fun s => ({ s with ports := { s.ports with refOk := addOnce k s.ports.refOk, refLost := dropOf k s.ports.refLost } } : State).clockHere k)) ∧
  (∀ p x, Occurs (.receiverDetect p x)
    (fun s => s.isPort p = true ∧ (s.port p).lanes = .detect)
    (fun s => if x = true ∧ s.mayTrain p = true then (s.modPort p (fun y => { y with found := x, lanes := .training })).equalise p else s.modPort p (fun y => { y with found := x, lanes := .detect })))

/-- A trained link is up at its width and rate, with LINK_DEGRADED below the configured width or rate and BIND_REFUSED for a partner linked IO_ONLY; IDE keys put the mode set by PORT_SET into effect; an expander's memory becomes active; an identified partner arrives; a completed SPDM session confirms, changes or supplies an identity; L1 is entered, and L0p narrows a link, where enabled, and either is left again, an access that waited then going on.
Completion: for every state and operands that meet the stated conditions on them alone, exec answers a next state for linkUp, ideEstablished, memoryActive, memoryActiveTimeout, arrive, spdmSessionComplete, linkL1Entry, linkL1Exit. -/
def Obligations.LinksAndPartners : Prop :=
  (∀ p w r v i, Occurs (.linkUp p ⟨w, v⟩ r i)
    (fun s => s.isPort p = true ∧ (s.port p).lanes = .training ∧ (w = 2 ∨ w = 4 ∨ w = 8 ∨ w = 16) ∧ w ≤ s.maxWidth p ∧ 1 ≤ r ∧ r ≤ s.maxRate p ∧ (i.kind == 0) = s.isUp p ∧ (i.cxl = 2 → r ≤ 5))
    (fun s => 
      let s0 := s.modPort p (fun x => { x with lanes := .l0, width := w, rate := r, rev := v, l0pW := 0, pid := some i, enum := true, memActive := false, ide := false })
      let s1 := (s0.modPort p (fun x => { x with cls := (s0.arriveKind p i).1 })).equalised p
      let s2 := if w < cfgWidth s.ports.map p ∨ r < s.maxRate p ∨ (i.cxl ≠ 0 ∧ r < 5) then s1.pevent 7 p (w * 256 + r) none else s1
      if i.cxl ≠ 0 ∧ r < 5 then s2.pevent 0x10 p 1 none else if s2.ideReq p ∧ i.cxl ≠ 0 then s2.pevent 0x10 p 2 none else s2)) ∧
  (∀ p, Occurs (.ideEstablished p)
    (fun s => (s.port p).up = true)
    (fun s => s.modPort p (fun x => { x with ide := true, containNow := x.contain }))) ∧
  (∀ p c i, Occurs (.memoryActive p c)
    (fun s => (s.port p).up = true ∧ (s.port p).enum = true ∧ (s.port p).pid = some i ∧ (i.kind = 1 ∨ i.kind = 4))
    (fun s => s.modPort p (fun x => { x with memActive := true, pid := x.pid.map (fun i => { i with capacity := c }) }))) ∧
  (∀ p i, Occurs (.memoryActiveTimeout p)
    (fun s => (s.port p).up = true ∧ (s.port p).enum = true ∧ (s.port p).memActive = false ∧ (s.port p).pid = some i ∧ (i.kind = 1 ∨ i.kind = 4))
    (fun s => s.linkDrop p)) ∧
  (∀ p i, Occurs (.arrive p)
    (fun s => s.canArrive p = true ∧ (s.port p).pid = some i)
    (fun s => s.arriveAt p i)) ∧
  (∀ p c x i, Occurs (.spdmSessionComplete p c true)
    (fun s => (s.port p).up = true ∧ s.isUp p = true ∧ s.partner p = some x ∧ Tbl.find s.pool.newcomer p = some i)
    (fun s => 
      let s1 := s.expire p
      ({ s1 with pool := { s1.pool with newcomer := Tbl.del s1.pool.newcomer p } } : State).arriveNew p { i with cert := some c })) ∧
  (∀ p c x i, Occurs (.spdmSessionComplete p c false)
    (fun s => (s.port p).up = true ∧ s.isUp p = true ∧ s.partner p = some x ∧ Tbl.find s.pool.newcomer p = some i ∧ x.matches (s.arriveKind p { i with cert := some c }).1 { i with cert := some c } = true)
    (fun s => s.reattach p)) ∧
  (∀ p c x i, Occurs (.spdmSessionComplete p c false)
    (fun s => (s.port p).up = true ∧ s.isUp p = true ∧ s.partner p = some x ∧ Tbl.find s.pool.newcomer p = some i ∧ x.matches (s.arriveKind p { i with cert := some c }).1 { i with cert := some c } = false)
    (fun s => s.changeIdentity p { i with cert := some c })) ∧
  (∀ p c x, Occurs (.spdmSessionComplete p c false)
    (fun s => (s.port p).up = true ∧ s.isUp p = true ∧ s.partner p = some x ∧ Tbl.find s.pool.newcomer p = none ∧ x.timerEnd = none)
    (fun s => s.modPartner p (fun y => { y with cert := some c }))) ∧
  (∀ p c, Occurs (.spdmSessionComplete p c false)
    (fun s => (s.port p).up = true ∧ s.isUp p = true ∧ s.partner p = none)
    (fun s => s.modPort p (fun y => { y with pid := y.pid.map (fun i => { i with cert := some c }) }))) ∧
  (∀ p, Occurs (.linkL1Entry ⟨p, 0⟩)
    (fun s => (s.port p).lanes = .l0 ∧ (s.port p).aspm = true)
    (fun s => s.modPort p (fun x => { x with lanes := .l1, l0pW := 0 }))) ∧
  (∀ p w, Occurs (.linkL1Entry ⟨p, w⟩)
    (fun s => (s.port p).lanes = .l0 ∧ w ≠ 0 ∧ w < (s.port p).width ∧ (s.port p).l0p = true)
    (fun s => s.modPort p (fun x => { x with lanes := .l0p, l0pW := w }))) ∧
  (∀ p, Occurs (.linkL1Exit p)
    (fun s => ((s.port p).lanes = .l1 ∨ (s.port p).lanes = .l0p) ∧ (s.port p).l1Wait = false)
    (fun s => s.modPort p (fun x => { x with lanes := .l0, l0pW := 0, l1Wait := false }))) ∧
  (∀ p g x, Occurs (.linkL1Exit p)
    (fun s => (s.port p).lanes = .l1 ∧ (s.port p).l1Wait = true ∧ (s.arbOf p).grant = some g ∧ g.acc = some x)
    (fun s => (s.modPort p (fun x => { x with lanes := .l0, l0pW := 0, l1Wait := false })).handOff p))

/-- A link that goes down, Viral, an IDE integrity failure and a PORT reset start a departure with their cause; the end of its sweep logs it; the expiry of its timer releases the partner, and one that waited behind it arrives, or frees a reserved module index; an access that times out at its expander fails, counts, and fences the port at its limit; a host's timed-out request gets a poisoned completion; a request to a lost home ends with poison.
Completion: for every state and operands that meet the stated conditions on them alone, exec answers a next state for linkDown, linkLevelReset, ideIntegrityFailure, departureSweepDone, departureTimerExpiry, dsCplTimeout, usCplTimeout, trCplTimeout. -/
def Obligations.LinksDown : Prop :=
  (∀ p k, Occurs (.linkDown p k)
    (fun s => ((s.port p).up = true ∨ (s.port p).lanes = .training) ∧ (k = 1 ∨ k = 2))
    (fun s => s.departStart p k)) ∧
  (∀ p, Occurs (.linkLevelReset p)
    (fun s => (s.port p).up = true)
    (fun s => s.portReset p)) ∧
  (∀ p, Occurs (.ideIntegrityFailure p)
    (fun s => (s.port p).up = true ∧ (s.port p).ide = true)
    (fun s => s.departStart p 3)) ∧
  (∀ p x, Occurs (.departureSweepDone p)
    (fun s => s.partner p = some x ∧ x.leaving = true)
    (fun s => 
      let s1 := s.departLogged p
      { s1 with keeper := { s1.keeper with sweeps := s1.keeper.sweeps.filter (fun w => ! (w.why == 6 && w.arg == p)) } })) ∧
  (∀ p x, Occurs (.departureTimerExpiry p)
    (fun s => p < 64 ∧ s.partner p = some x ∧ x.timerEnd.isSome = true ∧ x.leaving = false ∧ Tbl.find (s.expire p).pool.newcomer p = none)
    (fun s => s.expire p)) ∧
  (∀ p x i, Occurs (.departureTimerExpiry p)
    (fun s => p < 64 ∧ s.partner p = some x ∧ x.timerEnd.isSome = true ∧ x.leaving = false ∧ Tbl.find (s.expire p).pool.newcomer p = some i)
    (fun s => ({ s.expire p with pool := { (s.expire p).pool with newcomer := Tbl.del (s.expire p).pool.newcomer p } } : State).arriveNew p i)) ∧
  (∀ p, Occurs (.departureTimerExpiry p)
    (fun s => 0x40 ≤ p ∧ p ≤ 0x47 ∧ s.hier.reserved ≠ [])
    (fun s => s.freeReserved p)) ∧
  (∀ p fpa x, Occurs (.dsCplTimeout p fpa)
    (fun s => s.isDown p = true ∧ (s.port p).up = true ∧ (s.arbOf p).handed.find? (fun x => lineOf x.fpa == lineOf fpa) = some x)
    (fun s => 
      let s1 := ((((s.txnEnd (lineOf fpa) 4).latDrop p fpa).arbEnded p x).accFails x true 9).modPort p (fun x => { x with dsFails := x.dsFails + 1 })
      let s2 := (s1.fault 0x0102 (s1.portLoc p) p).count 0x0E p 0 1
      if (s2.port p).dsFail ≤ (s2.port p).dsFails then s2.departStart p 4 else s2)) ∧
  (∀ p fpa x, Occurs (.usCplTimeout p fpa)
    (fun s => (s.port p).open_.find? (fun x => x.1 == fpa / 64 * 64) = some x ∧ x.2 = 0)
    (fun s => 
      let line := fpa / 64 * 64
      let s1 := ((s.smpEnd (.host ((s.hostAt p).getD 0)) 0 (0, lineOf line) 4).latDrop p fpa).modPort p (fun y => { y with open_ := y.open_.erase x })
      let s2 : State := { s1 with hs := { s1.hs with dead := s1.hs.dead ++ [(p, lineOf line)] } }
      let s3 := s2.emit (.s2m p 0 line 0 true 0)
      ((s3.paid p (lineOf line)).fault 0x0102 (s3.portLoc p) p).count 0x0E p 0 1)) ∧
  (∀ p fpa x, Occurs (.usCplTimeout p fpa)
    (fun s => (s.port p).open_.find? (fun x => x.1 == fpa / 64 * 64) = some x ∧ x.2 = 1 ∧ s.homed (fpa / 64 * 64) = true)
    (fun s => 
      let line := fpa / 64 * 64
      let s1 := ((s.smpEnd (.host ((s.hostAt p).getD 0)) 0 (0, lineOf line) 4).latDrop p fpa).modPort p (fun y => { y with open_ := y.open_.erase x })
      let s2 : State := { s1 with hs := { s1.hs with dead := s1.hs.dead ++ [(p, lineOf line)] } }
      let s4 := s2.emit (.s2m p 1 line 0 false 0)
      let s3 := if s4.homed line then s4.poisonMem line else s4.wbHome (lineOf line) false 0 true
      ((s3.paid p (lineOf line)).fault 0x0102 (s3.portLoc p) p).count 0x0E p 0 1)) ∧
  (∀ fpa a t, Occurs (.trCplTimeout fpa a)
    (fun s => s.homed fpa = false ∧ s.txn (lineOf fpa) = some t ∧ t.stage = .fwd ∧ t.psn = true ∧ t.q.r.src = a)
    (fun s => s.proxyGrant t .poison 0))

/-- Training done leads to alignment, with precoding where both ask for it; a training timeout starts anew; four lanes in lock with four logical lanes lead to INIT and INIT_CREDIT, in HOLD to RESUME; a good marker locks its lane and the third missed one takes the link down; INIT_CREDIT takes the peer's identity and credits and leads to AUTH, a wait or a stop, and in HOLD loses the peer; AUTH_CHAL is answered; a right AUTH_RESP makes the link ACTIVE and a wrong one fails it; a failed link retries but not after three failures; control flits repeat.
Completion: for every state and operands that meet the stated conditions on them alone, exec answers a next state for trunkTrainDone, trunkTrainTimeout, trunkAlignDone, laneMarker, initCredit, authChal, authResp, authFailRetry, controlFlitRepeat. -/
def Obligations.TrunkBringUp : Prop :=
  (∀ t b, Occurs (.trunkTrainDone t b)
    (fun s => s.trunkLive t = true ∧ ((s.tp t).state = .train ∨ (s.tp t).state = .hold))
    (fun s => 
      let on := b && (tpLanes t).all (fun l => ! bit (Tbl.get (0x14000000 : Reg32) s.ports.teqCtl l).toNat 22)
      (s.trunkTrained t on).modTp t (fun x => { x with state := if x.state = .train then .align else x.state, precode := on, tx := .tl0, rx := .tl0, lock := 0, lanePos := [], missed := [], mcount := [], fast := false }))) ∧
  (∀ t, Occurs (.trunkTrainTimeout t)
    (fun s => s.trunkLive t = true ∧ ((s.tp t).state = .train ∨ (s.tp t).state = .hold))
    (fun s => s.modTp t (fun x => { x with precode := false, lock := 0, lanePos := [], missed := [], mcount := [], fast := false }))) ∧
  (∀ t n, Occurs (.trunkAlignDone ⟨t, n⟩)
    (fun s => s.trunkLive t = true ∧ (s.tp t).state = .align ∧ (s.tp t).aligned = true ∧ n ≤ 80)
    (fun s => (s.modTp t (fun x => { x with state := .init })).sendInit t)) ∧
  (∀ t n, Occurs (.trunkAlignDone ⟨t, n⟩)
    (fun s => s.trunkLive t = true ∧ (s.tp t).state = .hold ∧ (s.tp t).aligned = true ∧ n ≤ 80)
    (fun s => s.sendResume t)) ∧
  (∀ t l x n k, Occurs (.laneMarker t l true x n k)
    (fun s => s.trunkLive t = true ∧ l < 4 ∧ k < 16 ∧ x < 4 ∧ n < 65536 ∧ (s.tp t).state ≠ .off ∧ (s.tp t).state ≠ .train ∧ (s.tp t).rx ≠ .tl3)
    (fun s => 
      let w := (Tbl.get (0 : Reg32) s.ports.teqStat (4 * t + l) &&& 0xFFCFFFFF) ||| BitVec.ofNat 32 (x * 2 ^ 20)
      ({ s with ports := { s.ports with teqStat := Tbl.set 0 s.ports.teqStat (4 * t + l) w } } : State).modTp t (fun y =>
        { y with lock := y.lock ||| laneBit l, missed := Tbl.set 0 y.missed l 0, lanePos := Tbl.put y.lanePos l x, mcount := Tbl.put y.mcount l n, rx := if y.rx = .tl1 ∧ (y.lock ||| laneBit l) = 0xF then .tl0 else y.rx }))) ∧
  (∀ t l x n k, Occurs (.laneMarker t l false x n k)
    (fun s => s.trunkLive t = true ∧ l < 4 ∧ k < 16 ∧ (s.tp t).state ≠ .off ∧ (s.tp t).state ≠ .train ∧ (s.tp t).rx = .tl0)
    (fun s => 
      let m := Tbl.get 0 (s.tp t).missed l + 1
      let s1 := s.modTp t (fun y => { y with missed := Tbl.set 0 y.missed l (min 3 m), lock := if 3 ≤ m then y.lock &&& ~~~(laneBit l) else y.lock })
      if 3 ≤ m then s1.tpHold t 3 else s1)) ∧
  (∀ t sn i r c, Occurs (.initCredit t sn i r c)
    (fun s => s.trunkLive t = true ∧ (s.tp t).state = .hold)
    (fun s => s.tpPeerLost t 7)) ∧
  (∀ t sn i r c, Occurs (.initCredit t sn i r c)
    (fun s => s.trunkLive t = true ∧ (s.tp t).state = .init ∧ i < 16 ∧ (s.tp t).stopped = false ∧ (s.modTp t (fun x => { x with peerSer := sn, peerIdx := i, peerRole := r, peerInit := (i, r), lastRet := c.zipIdx.foldl (fun (m : Tbl Nat) p => if p.2 < 12 then Tbl.set 0 m p.2 (p.1 % credMod (p.2 % 2)) else m) [] })).twinOf t sn = true)
    (fun s => ((s.modTp t (fun x => { x with peerSer := sn, peerIdx := i, peerRole := r, peerInit := (i, r), lastRet := c.zipIdx.foldl (fun (m : Tbl Nat) p => if p.2 < 12 then Tbl.set 0 m p.2 (p.1 % credMod (p.2 % 2)) else m) [] })).modTp t (fun x => { x with stopped := true })).hierEvent 5 sn)) ∧
  (∀ t sn i r c, Occurs (.initCredit t sn i r c)
    (fun s => s.trunkLive t = true ∧ (s.tp t).state = .init ∧ i < 16 ∧ (s.tp t).stopped = false ∧ (s.modTp t (fun x => { x with peerSer := sn, peerIdx := i, peerRole := r, peerInit := (i, r), lastRet := c.zipIdx.foldl (fun (m : Tbl Nat) p => if p.2 < 12 then Tbl.set 0 m p.2 (p.1 % credMod (p.2 % 2)) else m) [] })).twinOf t sn = false ∧ ¬ (s.glob.hrole = 1 ∧ r = 1))
    (fun s => 
      let s2 := (s.modTp t (fun x => { x with peerSer := sn, peerIdx := i, peerRole := r, peerInit := (i, r), lastRet := c.zipIdx.foldl (fun (m : Tbl Nat) p => if p.2 < 12 then Tbl.set 0 m p.2 (p.1 % credMod (p.2 % 2)) else m) [] })).settleRoles sn r
      let boss := decide (r = 1) || (decide (r = 0) && s2.glob.hrole == 2 && s.glob.hrole == 0)
      let s3 := if boss then s2.modTp t (fun x => { x with p0 := true, peerIdx := 0 }) else s2
      if s3.mayAuth i (if boss then 1 else r) then
        (s3.drawn.modTp t (fun x => { x with state := .auth, nonceOwn := some s3.fresh, noncePeer := none, verified := false })).sendChal t
      else s3)) ∧
  (∀ t n k, Occurs (.authChal t n)
    (fun s => s.trunkLive t = true ∧ (s.tp t).state = .auth ∧ s.hier.key = some k)
    (fun s => 
      let a := authResp k n ((s.tp t).nonceOwn.getD 0) s.glob.serial (s.tp t).peerSer (s.tp t).ownInit.1 (s.tp t).ownInit.2
      let s1 := (s.modTp t (fun x => { x with noncePeer := some n })).emit (.control t 3 [a.toNat])
      if (s1.tp t).state = .auth ∧ (s1.tp t).bothVerified then s1.linkActive t else s1)) ∧
  (∀ t n, Occurs (.authChal t n)
    (fun s => s.trunkLive t = true ∧ (s.tp t).state = .auth ∧ s.hier.key = none)
    (fun s => s.authFails t)) ∧
  (∀ t h k n, Occurs (.authResp t h)
    (fun s => s.trunkLive t = true ∧ (s.tp t).state = .auth ∧ (s.tp t).noncePeer = some n ∧ s.hier.key = some k ∧ h = authResp k ((s.tp t).nonceOwn.getD 0) n (s.tp t).peerSer s.glob.serial (s.tp t).peerInit.1 (s.tp t).peerInit.2)
    (fun s => (s.modTp t (fun x => { x with verified := true })).linkActive t)) ∧
  (∀ t h k n, Occurs (.authResp t h)
    (fun s => s.trunkLive t = true ∧ (s.tp t).state = .auth ∧ (s.tp t).noncePeer = some n ∧ s.hier.key = some k ∧ h ≠ authResp k ((s.tp t).nonceOwn.getD 0) n (s.tp t).peerSer s.glob.serial (s.tp t).peerInit.1 (s.tp t).peerInit.2)
    (fun s => s.authFails t)) ∧
  (∀ t, Occurs (.authFailRetry t)
    (fun s => s.trunkLive t = true ∧ (s.tp t).state = .authFail ∧ (s.tp t).authFails < 3)
    (fun s => s.tpClear t)) ∧
  (∀ t, Occurs (.controlFlitRepeat t)
    (fun s => s.trunkLive t = true ∧ (s.tp t).state = .init)
    (fun s => s.sendInit t)) ∧
  (∀ t, Occurs (.controlFlitRepeat t)
    (fun s => s.trunkLive t = true ∧ (s.tp t).state = .auth ∧ (s.tp t).verified = false)
    (fun s => s.sendChal t)) ∧
  (∀ t, Occurs (.controlFlitRepeat t)
    (fun s => s.trunkLive t = true ∧ (s.tp t).state = .hold ∧ (s.tp t).aligned = true)
    (fun s => s.sendResume t))

/-- A payload flit in sequence with credits is accepted: its message takes credits, is delivered and its credits return; out of sequence it is not taken and a replay is asked for; without credits the peer is lost with CREDIT_OVERRUN; a bad flit is counted as uncorrected and asks for a replay. A NULL flit gives its acknowledgement and credits. REPLAY_REQ acknowledges E - 1 and rewinds to E; a replay timeout rewinds to the oldest unacknowledged flit; RESUME with the agreed LINK_ID makes a held link ACTIVE, with another, or in the last tick, the peer is lost.
Completion: for every state and operands that meet the stated conditions on them alone, exec answers a next state for payloadFlit, nullFlit, replayReq, replayTimeout, resume. -/
def Obligations.TrunkFlits : Prop :=
  (∀ fl m, Occurs (.payloadFlit fl m)
    (fun s => s.trunkLive fl.tp = true ∧ (s.tp fl.tp).state = .active ∧ (s.tp fl.tp).rx = .tl0 ∧ fl.ok = false)
    (fun s => s.flitBad fl.tp)) ∧
  (∀ fl m, Occurs (.payloadFlit fl m)
    (fun s => s.trunkLive fl.tp = true ∧ (s.tp fl.tp).state = .active ∧ (s.tp fl.tp).rx = .tl0 ∧ fl.ok = true ∧ fl.seq % 4096 ≠ ((s.flitNotes fl).tp fl.tp).exp)
    (fun s => (s.flitNotes fl).askReplay fl.tp)) ∧
  (∀ fl m, Occurs (.payloadFlit fl m)
    (fun s => s.trunkLive fl.tp = true ∧ (s.tp fl.tp).state = .active ∧ (s.tp fl.tp).rx = .tl0 ∧ fl.ok = true ∧ fl.seq % 4096 = ((s.flitNotes fl).tp fl.tp).exp ∧ m.cls < 6 ∧ ((s.flitNotes fl).tp fl.tp).roomFor m = true)
    (fun s => (s.flitNotes fl).acceptMsg fl.tp m)) ∧
  (∀ fl m, Occurs (.payloadFlit fl m)
    (fun s => s.trunkLive fl.tp = true ∧ (s.tp fl.tp).state = .active ∧ (s.tp fl.tp).rx = .tl0 ∧ fl.ok = true ∧ fl.seq % 4096 = ((s.flitNotes fl).tp fl.tp).exp ∧ m.cls < 6 ∧ ((s.flitNotes fl).tp fl.tp).roomFor m = false)
    (fun s => ((s.flitNotes fl).tpPeerLost fl.tp 8).fault 0x0202 ((s.flitNotes fl).tpLoc fl.tp) 0xFF)) ∧
  (∀ fl d, Occurs (.nullFlit ⟨fl, d⟩)
    (fun s => s.trunkLive fl.tp = true ∧ (s.tp fl.tp).state = .active ∧ (s.tp fl.tp).rx = .tl0)
    (fun s => if d then s else if fl.ok then s.flitNotes fl else s.flitBad fl.tp)) ∧
  (∀ t q, Occurs (.replayReq t q)
    (fun s => s.trunkLive t = true ∧ (s.tp t).state = .active)
    (fun s => (s.modTp t (fun x => x.acked ((q + 4095) % 4096))).rewind t (q % 4096))) ∧
  (∀ t e r, Occurs (.replayTimeout t)
    (fun s => s.trunkLive t = true ∧ (s.tp t).state = .active ∧ (s.tp t).replay = e :: r)
    (fun s => s.rewind t e.1)) ∧
  (∀ t id q c, Occurs (.resume t id q c true)
    (fun s => s.trunkLive t = true ∧ (s.tp t).state = .hold ∧ (s.tp t).aligned = true)
    (fun s => s.tpPeerLost t (s.tp t).cause)) ∧
  (∀ t id q c, Occurs (.resume t id q c false)
    (fun s => s.trunkLive t = true ∧ (s.tp t).state = .hold ∧ (s.tp t).aligned = true ∧ (s.tp t).linkId ≠ some id)
    (fun s => s.tpPeerLost t 7)) ∧
  (∀ t id q c, Occurs (.resume t id q c false)
    (fun s => s.trunkLive t = true ∧ (s.tp t).state = .hold ∧ (s.tp t).aligned = true ∧ (s.tp t).linkId = some id)
    (fun s => 
      let last := c.zipIdx.foldl (fun (m : Tbl Nat) p => if p.2 < 12 then Tbl.set 0 m p.2 (p.1 % credMod (p.2 % 2)) else m) (s.tp t).lastRet
      let s1 := s.modTp t (fun x => ({ x with state := .active, holdEnd := none, lastRet := last, reqAt := none, lastPay := s.now } : Trunk).acked ((q + 4095) % 4096))
      (s1.trunkEvent t 18 0 false).rewind t (q % 4096)))

/-- LINK_SLEEP and lost clocks and CDRs take a link down with their cause; RESET loses the peer at once; a sleep codeword puts the receiver in TL1 and an idle transmitter may enter it; a wake sequence starts the lock anew and its timeout takes the link down; error counts at their thresholds within the window take it down; the end of LINK_HOLD loses the peer.
Completion: for every state and operands that meet the stated conditions on them alone, exec answers a next state for linkSleep, reset, sleep1Codeword, tl1IdleEntry, wakeSequence, wakeLockTimeout, errorWindowEval, cdrLoss, trefclkLoss, linkHoldExpiry. -/
def Obligations.TrunkLinkEvents : Prop :=
  (∀ t k, Occurs (.linkSleep t k)
    (fun s => s.trunkLive t = true ∧ (s.tp t).state = .active ∧ k < 256)
    (fun s => s.tpHold t 9)) ∧
  (∀ t i, Occurs (.reset t i)
    (fun s => s.trunkLive t = true ∧ ((s.tp t).state = .active ∨ (s.tp t).state = .hold ∨ (s.tp t).state = .auth ∨ (s.tp t).state = .init) ∧ i < 16)
    (fun s => s.tpPeerLost t 6)) ∧
  (∀ t, Occurs (.sleep1Codeword t)
    (fun s => s.trunkLive t = true ∧ (s.tp t).state = .active ∧ (s.tp t).rx = .tl0)
    (fun s => s.modTp t (fun x => { x with rx := .tl1, missed := [] }))) ∧
  (∀ t, Occurs (.tl1IdleEntry t)
    (fun s => s.trunkLive t = true ∧ (s.tp t).state = .active ∧ (s.tp t).tx = .tl0 ∧ bit (s.tp t).ctl.toNat 30 = true ∧ (s.tp t).lastPay + usTicks 10 ≤ s.now)
    (fun s => (s.emit (.codeword t 0)).modTp t (fun x => { x with tx := .tl1 }))) ∧
  (∀ t, Occurs (.wakeSequence t)
    (fun s => s.trunkLive t = true ∧ (s.tp t).state = .active ∧ (s.tp t).rx = .tl1)
    (fun s => (s.modTp t (fun x => { x with lock := 0 })).wakeTx t)) ∧
  (∀ t, Occurs (.wakeLockTimeout t)
    (fun s => s.trunkLive t = true ∧ (s.tp t).state = .active ∧ (s.tp t).rx = .tl1 ∧ (s.tp t).lock ≠ 0xF)
    (fun s => s.tpHold t 3)) ∧
  (∀ t, Occurs (.errorWindowEval t)
    (fun s => s.trunkLive t = true ∧ (s.tp t).state = .active ∧ (s.tp t).rx = .tl0)
    (fun s => 
      let c := (s.tp t).errCtl.toNat
      let fresh := fun (l : List Nat) => l.filter (fun a => decide (s.now < a + usTicks (10 * bits c 9 0)))
      let s1 := s.modTp t (fun x => { x with uncorr := fresh x.uncorr, replays := fresh x.replays })
      if bits c 31 22 ≤ (s1.tp t).uncorr.length then s1.tpHold t 1
      else if bits c 21 10 ≤ (s1.tp t).replays.length then s1.tpHold t 2
      else s1)) ∧
  (∀ t l, Occurs (.cdrLoss t l)
    (fun s => s.trunkLive t = true ∧ l < 4 ∧ (s.tp t).rx = .tl0 ∧ (s.tp t).state ≠ .off)
    (fun s => (s.modTp t (fun x => { x with lock := x.lock &&& ~~~(laneBit l) })).tpHold t 4)) ∧
  (∀ d, Occurs (.trefclkLoss d)
    (fun s => s.glob.pstate = .active ∧ d < 2)
    (fun s => ([0, 1, 2, 3].map (4 * d + ·)).foldl (fun s t => if (s.tp t).rx = .tl1 then s else s.tpHold t 5) s)) ∧
  (∀ t, Occurs (.linkHoldExpiry t)
    (fun s => s.trunkLive t = true ∧ (s.tp t).state = .hold)
    (fun s => s.tpPeerLost t (s.tp t).cause))

/-- For every command c and state: a step of the state with c at the front of its queue is exec of c on the state with the queue's rest. -/
def Obligations.StepRunsFront : Prop :=
  ∀ (c : Instr) (rest : List Instr) (s : State), step { s with pending := c :: rest } = exec c { s with pending := rest }

/-- The model's own choice (log 9): on an empty queue a step carries out the oldest waiting mailbox command whose group is free; with none of these one tick of 40 ns passes: the queue stays empty, and where no cell in flight arrives with the tick, the tick count advances by one and MTIME by 40 where it runs. -/
def Obligations.StepWithoutCommand : Prop :=
  (∀ (s : State) (x : Instr × State), s.pending = [] → s.nextWaiting = some x → step s = exec x.1 x.2) ∧
  (∀ s : State, s.pending = [] → s.nextWaiting = none → ∃ t, step s = .next t ∧ t.pending = []) ∧
  (∀ s : State, s.pending = [] → s.nextWaiting = none → s.xbar.flying.all (fun x => decide (s.now + 1 < x.2.1)) = true → ∃ t, step s = .next t ∧ t.now = s.now + 1 ∧ t.pending = [] ∧ t.shape.mtime = (if s.shape.running then s.shape.mtime + 40 else s.shape.mtime))

/-- Right after reset the queue is empty, nothing has been sent, GLOBAL_LOCK is 0, no session is open, every counter is 0 with its selector at UNIT 0xFF, WARD_CTL is EN alone, every trunk port is OFF with its reset control values, MTIME is 0, every gated point has the reset GATE_CTL, every extent is ABSENT, every ring is unassigned, no fault is held, ALIVE is at 1 kHz, and the registers are in form. -/
def Obligations.ResetValues : Prop :=
  (State.reset.pending = [] ∧ State.reset.out = [] ∧ State.reset.glob.lock.maj = 0 ∧ State.reset.mbx.sessions = [] ∧ State.reset.slices = [] ∧ State.reset.keeper.txns = [] ∧ State.reset.faults.log = []) ∧
  (∀ n : Nat, Tbl.get ({} : Cnt) State.reset.perf.cnt n = { count := 0, ovf := false } ∧ State.reset.sel n = 0x00FF0000) ∧
  (State.reset.ward.ctlNow = 1 ∧ State.reset.shape.mtime = 0 ∧ State.reset.faults.aliveHz = 1000 ∧ State.reset.faults.alive = true) ∧
  (∀ t : Nat, (State.reset.tp t).state = .off ∧ (State.reset.tp t).ctl = 0x80101388 ∧ (State.reset.tp t).errCtl = 0x04040064) ∧
  (∀ p : Nat, (State.reset.gate p).now.ctl = 0x7D000000 ∧ (State.reset.gate p).shadow.ctl = 0x7D000000 ∧ (State.reset.gate p).pending = none) ∧
  (∀ n : Nat, (State.reset.ext n).state = .absent ∧ (State.reset.ring n).state = .unassigned) ∧
  (State.reset.inForm)

/-- In ACTIVE, a version 4 frame of the right length over SMBus or I3C, of an authenticated session opened at its endpoint, with a good MAC, the session's next SEQ, a role that may issue its opcode, for this module, whose group nothing holds, executes in the session's role and slice with the expected SEQ moved on, unless its lock group is locked. A tenant command of a slice channel executes in the TENANT role on that slice. A frame that P0 forwarded executes in the role forwarded. -/
def Obligations.FramesAdmitted : Prop :=
  (∀ (op : Nat) (f : Frame) (c : Instr) (s : State) (x : Session), s.mbx.resumed = none → (f.xport = .smbus ∨ (f.xport = .i3c ∧ s.svc.sbVio = true)) → s.glob.pstate = .active → f.version = 4 → f.lenOk = true → f.plen ≤ 4096 → managerOnly op = false → freeOps.contains op = false → s.session f.sid = some x → x.authed = true → x.xport = f.xport → x.ep = f.ep → f.mac = commandMac f op x.sk → f.seq = x.seqNext → roleMay x.role op = true → f.dest = 15 → s.groupHeld (groupOf op) = false → s.mbx.waiting = [] → (lockBit op).any s.locked = false →
      s.executes op f c = some (x.role, x.slice, s.modSession f.sid (fun y => { y with seqNext := y.seqNext + 1, lastAt := s.now }))) ∧
  (∀ (op : Nat) (f : Frame) (c : Instr) (s : State) (x : Slice) (k : SChan), s.mbx.resumed = none → f.xport = .sliceChan → s.glob.pstate = .active → s.slice f.slice = some x → x.chan = some k → k.zornes.head? = some (f.tag, op) → f.lenOk = true → f.plen ≤ 4096 → tenantOps.contains op = true → s.groupHeld (groupOf op) = false → s.mbx.waiting = [] →
      s.executes op f c = some (4, f.slice, s)) ∧
  (∀ (op : Nat) (f : Frame) (c : Instr) (s : State), s.mbx.resumed = none → f.xport = .trunk → s.glob.pstate = .active → s.mbx.trunkFrame = some f → f.version = 4 → f.lenOk = true → f.plen ≤ 4096 → managerOnly op = false → roleMay f.fwdRole op = true → s.groupHeld (groupOf op) = false → s.mbx.waiting = [] → (lockBit op).any s.locked = false →
      s.executes op f c = some (f.fwdRole, f.slice, { s with mbx := { s.mbx with trunkFrame := none } }))

/-- Whatever a command's own rule, in ACTIVE over SMBus or I3C: another VERSION than 4, of an opcode below 0xD000 that is not MODULE_IDENTIFY, is answered VERSION_MISMATCH; a wrong length BAD_LENGTH; no session of that SID NO_SESSION; a wrong MAC BAD_MAC, counted, the third closing the session; another SEQ than expected SEQ_ERROR with the expected SEQ not moved; an opcode the role may not issue ROLE_DENIED. None of them has another effect. -/
def Obligations.FramesRefused : Prop :=
  (∀ (op : Nat) (f : Frame) (c : Instr) (b : Body) (s : State), s.mbx.resumed = none → (f.xport = .smbus ∨ (f.xport = .i3c ∧ s.svc.sbVio = true)) → s.glob.pstate = .active → op ≠ 0xC101 → op < 0xD000 → f.version ≠ 4 →
      commandR op f c b s = .next (s.reply f op rcVersion []).settle) ∧
  (∀ (op : Nat) (f : Frame) (c : Instr) (b : Body) (s : State), s.mbx.resumed = none → (f.xport = .smbus ∨ (f.xport = .i3c ∧ s.svc.sbVio = true)) → s.glob.pstate = .active → f.version = 4 → (f.lenOk = false ∨ 4096 < f.plen) → commandR op f c b s = .next (s.reply f op rcLen []).settle) ∧
  (∀ (op : Nat) (f : Frame) (c : Instr) (b : Body) (s : State), s.mbx.resumed = none → (f.xport = .smbus ∨ (f.xport = .i3c ∧ s.svc.sbVio = true)) → s.glob.pstate = .active → f.version = 4 → f.lenOk = true → f.plen ≤ 4096 → managerOnly op = false → freeOps.contains op = false → s.session f.sid = none → commandR op f c b s = .next (s.reply f op rcNoSession []).settle) ∧
  (∀ (op : Nat) (f : Frame) (c : Instr) (b : Body) (s : State) (x : Session), s.mbx.resumed = none → (f.xport = .smbus ∨ (f.xport = .i3c ∧ s.svc.sbVio = true)) → s.glob.pstate = .active → f.version = 4 → f.lenOk = true → f.plen ≤ 4096 → managerOnly op = false → freeOps.contains op = false → s.session f.sid = some x → x.authed = true → x.xport = f.xport → x.ep = f.ep → f.mac ≠ commandMac f op x.sk → x.badMacs < 2 →
      commandR op f c b s = .next ((s.modSession f.sid (fun y => { y with badMacs := y.badMacs + 1 })).reply f op rcMac []).settle) ∧
  (∀ (op : Nat) (f : Frame) (c : Instr) (b : Body) (s : State) (x : Session), s.mbx.resumed = none → (f.xport = .smbus ∨ (f.xport = .i3c ∧ s.svc.sbVio = true)) → s.glob.pstate = .active → f.version = 4 → f.lenOk = true → f.plen ≤ 4096 → managerOnly op = false → freeOps.contains op = false → s.session f.sid = some x → x.authed = true → x.xport = f.xport → x.ep = f.ep → f.mac ≠ commandMac f op x.sk → 2 ≤ x.badMacs →
      commandR op f c b s = .next ((s.dropSession f.sid).reply f op rcMac []).settle) ∧
  (∀ (op : Nat) (f : Frame) (c : Instr) (b : Body) (s : State) (x : Session), s.mbx.resumed = none → (f.xport = .smbus ∨ (f.xport = .i3c ∧ s.svc.sbVio = true)) → s.glob.pstate = .active → f.version = 4 → f.lenOk = true → f.plen ≤ 4096 → managerOnly op = false → freeOps.contains op = false → s.session f.sid = some x → x.authed = true → x.xport = f.xport → x.ep = f.ep → f.mac = commandMac f op x.sk → f.seq ≠ x.seqNext → commandR op f c b s = .next (s.reply f op rcSeq []).settle) ∧
  (∀ (op : Nat) (f : Frame) (c : Instr) (b : Body) (s : State) (x : Session), s.mbx.resumed = none → (f.xport = .smbus ∨ (f.xport = .i3c ∧ s.svc.sbVio = true)) → s.glob.pstate = .active → f.version = 4 → f.lenOk = true → f.plen ≤ 4096 → managerOnly op = false → freeOps.contains op = false → s.session f.sid = some x → x.authed = true → x.xport = f.xport → x.ep = f.ep → f.mac = commandMac f op x.sk → f.seq = x.seqNext → roleMay x.role op = false →
      commandR op f c b s = .next ((s.modSession f.sid (fun y => { y with seqNext := y.seqNext + 1, lastAt := s.now })).reply f op rcRole []).settle)

/-- MODULE_LOCK sets the GLOBAL_LOCK bits named in its payload and clears none. While a bit is set, every command of Table 10.9 that has been admitted is answered LOCKED when it begins execution and has no other effect: POWER_SET, THERMAL_SET; WARD_REGION_SET, WARD_CUT_SET, WARD_COMMIT; KEY_SET, PASSWORD_SET, HIER_KEY_SET; ALIVE_SET, GATE_TSYNC_SET and a PORT_MAP_COMMIT that changes a CLKMODE or MAXRATE; the HIER commands that change something.
Completion: for every state and operands that meet the stated conditions on them alone, exec answers a next state for portMapCommit. -/
def Obligations.LockGroups : Prop :=
  (∀ f mask, Answers 0xC104 f (.moduleLock f mask) (fun _ _ _ => True)
      (fun s => ({ s with glob := { s.glob with lock := Tri.all (s.glob.lock.maj ||| BitVec.ofNat 64 (mask % 32)) } }, rcOk, []))) ∧
  (∀ (s : State) (mask g : Nat), g < 5 → ({ s with glob := { s.glob with lock := Tri.all (s.glob.lock.maj ||| BitVec.ofNat 64 (mask % 32)) } } : State).locked g = (s.locked g || bit mask g)) ∧
  (∀ f x y, HeldBy 0 0xCD02 f (.powerSet f x y)) ∧
  (∀ f a b c, HeldBy 0 0xCD05 f (.thermalSet f a b c)) ∧
  (∀ f n x, HeldBy 1 0xC801 f (.wardRegionSet f n x)) ∧
  (∀ f d i x, HeldBy 1 0xC803 f (.wardCutSet f d i x)) ∧
  (∀ f t, HeldBy 1 0xC804 f (.wardCommit f t)) ∧
  (∀ f r k, HeldBy 2 0xC005 f (.keySet f r k)) ∧
  (∀ f r k, HeldBy 2 0xC006 f (.passwordSet f r k)) ∧
  (∀ f k, HeldBy 2 0xCB02 f (.hierKeySet f k)) ∧
  (∀ f z, HeldBy 3 0xCC06 f (.aliveSet f z)) ∧
  (∀ f l, HeldBy 3 0xCA05 f (.gateTsyncSet f l)) ∧
  (∀ f a b c d, HeldBy 4 0xCB03 f (.hierSet f a b c d)) ∧
  (∀ f n, HeldBy 4 0xCB04 f (.hierAdmit f n)) ∧
  (∀ f i, HeldBy 4 0xCB05 f (.hierRemove f i)) ∧
  (∀ f i, HeldBy 4 0xCB06 f (.hierForget f i)) ∧
  (∀ f t, HeldBy 4 0xCB07 f (.hierTrunkDisable f t)) ∧
  (∀ f t, HeldBy 4 0xCB08 f (.hierTrunkEnable f t)) ∧
  (∀ (f : Frame) (m : List Reg32) (s : State) (role sl : Nat) (s1 : State) (g : Nat), s.executes 0xC201 f (.portMapCommit f m) = some (role, sl, s1) → s1.locked 3 = true → m.length = 16 → mapOk s1.glob.isMA (mapOf m) = true →
      g ∈ mapDiff s1.ports.map (mapOf m) → (bits (mapEntry (mapOf m) g) 29 28 ≠ bits (mapEntry s1.ports.map g) 29 28 ∨ bits (mapEntry (mapOf m) g) 23 22 ≠ bits (mapEntry s1.ports.map g) 23 22) →
      exec (.portMapCommit f m) s = .next (s1.reply f 0xC201 rcLocked []).settle)

/-- Whatever the state and the operands, exec answers a next state: nothing faults and nothing is refused; and the queue of that state is the queue of the state exec was given. -/
def Obligations.EveryCommandAnswers : Prop :=
  ∀ (c : Instr) (s : State), ∃ t, exec c s = .next t ∧ t.pending = s.pending

/-- For every sequence-clear register and up to 255 events raised after a read: a write of the SEQ value read clears exactly the events that the read showed, that is, an event bit is set afterwards exactly where one of the later events has it, and with at least one later event the value fields still describe it. A write of the current SEQ clears every event. An event raised with a write takes the next SEQ and is not cleared. -/
def Obligations.SequenceClear : Prop :=
  (∀ (q : Sqc) (l : List (Nat × Reg32 × Reg32)) (b : Nat), l.length ≤ 255 →
      ((l.foldl (fun q e => q.raise e.1 e.2.1 e.2.2) q).clear q.seq).has b = l.any (fun e => e.1 == b)) ∧
  (∀ (q : Sqc) (l : List (Nat × Reg32 × Reg32)), l.length ≤ 255 → l ≠ [] →
      ((l.foldl (fun q e => q.raise e.1 e.2.1 e.2.2) q).clear q.seq).val = (l.foldl (fun q e => q.raise e.1 e.2.1 e.2.2) q).val) ∧
  (∀ (q : Sqc) (b : Nat), (q.clear q.seq).has b = false ∧ (q.clear q.seq).val = 0 ∧ (q.clear q.seq).seq = q.seq) ∧
  (∀ (q : Sqc) (w : BitVec 8) (b : Nat) (v m : Reg32), ((q.clear w).raise b v m).has b = true ∧ ((q.clear w).raise b v m).seq = q.seq + 1)

/-- For every 52-bit FPA: bit i of the slice number is the exclusive or of bits 8+i, 13+i, 18+i, 23+i, 28+i, 33+i, 38+i, 43+i and, for i below 4, 48+i; the set is FPA[51:13] modulo 28,672 and the tag its quotient, at most 25 bits; and the four lines of a sector share one slice, one set and one tag. -/
def Obligations.KeeperSlice : Prop :=
  (∀ (fpa i : Nat), fpa < 2 ^ 52 → i < 5 → bit (sliceHash fpa) i =
      (bit fpa (8 + i) ^^ bit fpa (13 + i) ^^ bit fpa (18 + i) ^^ bit fpa (23 + i) ^^ bit fpa (28 + i) ^^ bit fpa (33 + i) ^^ bit fpa (38 + i) ^^ bit fpa (43 + i) ^^ (decide (i < 4) && bit fpa (48 + i)))) ∧
  (∀ fpa : Nat, fpa < 2 ^ 52 → sliceHash fpa < 32 ∧ Machine.setOf fpa = fpa / 2 ^ 13 % 28672 ∧ tagOf fpa = fpa / 2 ^ 13 / 28672 ∧ tagOf fpa < 2 ^ 25) ∧
  (∀ q k : Nat, k < 4 → sliceHash (256 * q + 64 * k) = sliceHash (256 * q) ∧ Machine.setOf (256 * q + 64 * k) = Machine.setOf (256 * q) ∧ tagOf (256 * q + 64 * k) = tagOf (256 * q))

/-- Adding n to a counter leaves the remainder modulo 2^48 and sets OVF where the sum passes 2^48 - 1; an OVF that is set stays set; two additions equal one of their sum in COUNT. A register read shows OVF in bit 63 and COUNT in bits 47 to 0. -/
def Obligations.CountersWrap : Prop :=
  (∀ (c : Cnt) (n : Nat), (c.add n).count.toNat = (c.count.toNat + n) % 2 ^ 48 ∧ (c.add n).ovf = (c.ovf || decide (2 ^ 48 ≤ c.count.toNat + n))) ∧
  (∀ (c : Cnt) (n m : Nat), ((c.add n).add m).count = (c.add (n + m)).count ∧ (c.ovf = true → ((c.add n).add m).ovf = true)) ∧
  (∀ (c : Cnt), bit c.read 63 = c.ovf ∧ c.read % 2 ^ 48 = c.count.toNat)

/-- The model's own representation (log 3): setting a key of a canonical table leaves it canonical, reads back at that key, and changes no other key; so equal contents are equal data. The flash of the firmware banks is such a table with the erased byte 0xFF as its default. -/
def Obligations.TablesStayCanonical : Prop :=
  (∀ (t : Tbl Byte) (a : Nat) (v : Byte), Tbl.wf 0xFF t = true → Tbl.wf 0xFF (flashPut t a v) = true ∧ Tbl.get 0xFF (flashPut t a v) a = v ∧ ∀ j, j ≠ a → Tbl.get 0xFF (flashPut t a v) j = Tbl.get 0xFF t j) ∧
  (∀ t u : Tbl Byte, Tbl.wf 0xFF t = true → Tbl.wf 0xFF u = true → (∀ a, Tbl.get 0xFF t a = Tbl.get 0xFF u a) → t = u)

/-- For every state whose GLOBAL_LOCK, SILL_CTL and SILL_LIMITS have their reserved bits clear and whose flash is canonical, whatever the command at the front of its queue or waiting, the next state has them so too. -/
def Obligations.RegistersStayInForm : Prop :=
  ∀ s t : State, s.inForm → step s = .next t → t.inForm

/-- No step lowers the minimum SVN. Every command and event but those in which a MODULE or COLD reset resets the dies leaves every GLOBAL_LOCK bit that is set as it is. -/
def Obligations.Ratchets : Prop :=
  (∀ s t : State, step s = .next t → s.fw.minSvn ≤ t.fw.minSvn) ∧
  (∀ (c : Instr) (s t : State) (g : Nat), clearsLocks c = false → exec c s = .next t → s.locked g = true → t.locked g = true)
end

