-- ==== Sys2Proof/Laws/Kept.lean ====
section
/-! SUPPORT. What almost every operation leaves as it is: the queue, GLOBAL_LOCK, the firmware banks, SILL_CTL and SILL_LIMITS. -/
namespace Sys2Proof.Machine

/-- The parts of a state that only resets, locks, FW commands and writes of the Sill registers change. -/
def State.kept (s : State) : List Instr × Tri × Fw × Tri × Tri := (s.pending, s.glob.lock, s.fw, s.sill.ctl, s.sill.limits)

/-- A state written out keeps what its parts keep. -/
@[simp ↓] theorem kept_mk (g sv mb fw pf fl pt po ke hs xb ar tr hi dm sh sl wa si th ou pe) :
    State.kept { glob := g, svc := sv, mbx := mb, fw := fw, perf := pf, faults := fl, ports := pt, pool := po, keeper := ke, hs := hs, xbar := xb, arb := ar, trunk := tr, hier := hi, dma := dm, shape := sh, slices := sl, ward := wa, sill := si, therm := th, out := ou, pending := pe }
      = (pe, g.lock, fw, si.ctl, si.limits) := rfl

/-- What is kept, put together again. -/
@[simp] theorem kept_eta (s : State) : (s.pending, s.glob.lock, s.fw, s.sill.ctl, s.sill.limits) = s.kept := rfl

/-- A choice keeps what both of its states keep. -/
@[simp ↓] theorem kept_ite (c : Prop) [Decidable c] (s t : State) : (if c then s else t).kept = if c then s.kept else t.kept := by split <;> rfl

/-- A fold keeps what each of its steps keeps. -/
theorem kept_foldl {α : Type} (f : State → α → State) (l : List α) (s : State) (h : ∀ s x, (f s x).kept = s.kept) : (l.foldl f s).kept = s.kept := by
  induction l generalizing s with
  | nil => rfl
  | cons a r ih => exact (ih (f s a)).trans (h s a)

/-- The same for a fold that also gathers something. -/
theorem kept_foldl_fst {α β : Type} (f : State × β → α → State × β) (l : List α) (p : State × β) (h : ∀ p x, (f p x).1.kept = p.1.kept) : (l.foldl f p).1.kept = p.1.kept := by
  induction l generalizing p with
  | nil => rfl
  | cons a r ih => exact (ih (f p a)).trans (h p a)

/-- svc is no part of it. -/
theorem kept_svc (s : State) (v : Svc) : State.kept { s with svc := v } = s.kept := rfl

/-- mbx is no part of it. -/
theorem kept_mbx (s : State) (v : Mbx) : State.kept { s with mbx := v } = s.kept := rfl

/-- perf is no part of it. -/
theorem kept_perf (s : State) (v : Perf) : State.kept { s with perf := v } = s.kept := rfl

/-- faults is no part of it. -/
theorem kept_faults (s : State) (v : Faults) : State.kept { s with faults := v } = s.kept := rfl

/-- ports is no part of it. -/
theorem kept_ports (s : State) (v : Ports) : State.kept { s with ports := v } = s.kept := rfl

/-- pool is no part of it. -/
theorem kept_pool (s : State) (v : Pool) : State.kept { s with pool := v } = s.kept := rfl

/-- keeper is no part of it. -/
theorem kept_keeper (s : State) (v : Keeper) : State.kept { s with keeper := v } = s.kept := rfl

/-- hs is no part of it. -/
theorem kept_hs (s : State) (v : HostSide) : State.kept { s with hs := v } = s.kept := rfl

/-- xbar is no part of it. -/
theorem kept_xbar (s : State) (v : Xbar) : State.kept { s with xbar := v } = s.kept := rfl

/-- arb is no part of it. -/
theorem kept_arb (s : State) (v : Tbl Arb) : State.kept { s with arb := v } = s.kept := rfl

/-- trunk is no part of it. -/
theorem kept_trunk (s : State) (v : Tbl Trunk) : State.kept { s with trunk := v } = s.kept := rfl

/-- hier is no part of it. -/
theorem kept_hier (s : State) (v : Hier) : State.kept { s with hier := v } = s.kept := rfl

/-- dma is no part of it. -/
theorem kept_dma (s : State) (v : Dma) : State.kept { s with dma := v } = s.kept := rfl

/-- shape is no part of it. -/
theorem kept_shape (s : State) (v : Shape) : State.kept { s with shape := v } = s.kept := rfl

/-- slices is no part of it. -/
theorem kept_slices (s : State) (v : Tbl Slice) : State.kept { s with slices := v } = s.kept := rfl

/-- ward is no part of it. -/
theorem kept_ward (s : State) (v : Ward) : State.kept { s with ward := v } = s.kept := rfl

/-- therm is no part of it. -/
theorem kept_therm (s : State) (v : Thermal) : State.kept { s with therm := v } = s.kept := rfl

/-- out is no part of it. -/
theorem kept_out (s : State) (v : List Out) : State.kept { s with out := v } = s.kept := rfl

/-- A state on the way keeps it, and so does what follows from there. -/
theorem kept_via {b s : State} (x : State) (h : x.kept = s.kept) (k : x.kept = s.kept → b.kept = s.kept) : b.kept = s.kept := k h

end Sys2Proof.Machine
end

