-- ==== Sys2Proof/Laws/KeptOps.lean ====
section
/-! SUPPORT. What the operations of Machine/Ops.lean keep. -/
namespace Sys2Proof.Machine

@[simp ↓] theorem modTp_kept (s : State) (t : Nat) (f : Trunk → Trunk) : (State.modTp s t f).kept = s.kept := by
  rfl

@[simp ↓] theorem drawn_kept (s : State) : (State.drawn s).kept = s.kept := by
  rfl

@[simp ↓] theorem woken_kept (s : State) : (State.woken s).kept = s.kept := by
  rfl

@[simp ↓] theorem modPort_kept (s : State) (p : Nat) (f : Port → Port) : (State.modPort s p f).kept = s.kept := by
  rfl

@[simp ↓] theorem modGroup_kept (s : State) (g : Nat) (f : Group → Group) : (State.modGroup s g f).kept = s.kept := by
  rfl

@[simp ↓] theorem modCh_kept (s : State) (c : Nat) (f : Chan → Chan) : (State.modCh s c f).kept = s.kept := by
  rfl

@[simp ↓] theorem modRing_kept (s : State) (n : Nat) (f : Ring → Ring) : (State.modRing s n f).kept = s.kept := by
  rfl

@[simp ↓] theorem modCring_kept (s : State) (n : Nat) (f : CRing → CRing) : (State.modCring s n f).kept = s.kept := by
  rfl

@[simp ↓] theorem modWin_kept (s : State) (w : Nat) (f : Window16 → Window16) : (State.modWin s w f).kept = s.kept := by
  rfl

@[simp ↓] theorem modArb_kept (s : State) (p : Nat) (f : Arb → Arb) : (State.modArb s p f).kept = s.kept := by
  rfl

@[simp ↓] theorem modGate_kept (s : State) (p : Nat) (f : Gate → Gate) : (State.modGate s p f).kept = s.kept := by
  rfl

@[simp ↓] theorem modExt_kept (s : State) (e : Nat) (f : Ext → Ext) : (State.modExt s e f).kept = s.kept := by
  rfl

@[simp ↓] theorem modSlice_kept (s : State) (n : Nat) (f : Slice → Slice) : (State.modSlice s n f).kept = s.kept := by
  unfold State.modSlice; split <;> simp

@[simp ↓] theorem modPartner_kept (s : State) (p : Nat) (f : Partner → Partner) : (State.modPartner s p f).kept = s.kept := by
  unfold State.modPartner; split <;> simp

@[simp ↓] theorem putCell_kept (s : State) (c : Cell) : (State.putCell s c).kept = s.kept := by
  rfl

@[simp ↓] theorem emit_kept (s : State) (o : Out) : (State.emit s o).kept = s.kept := by
  unfold State.emit; split <;> simp

@[simp ↓] theorem emits_kept (s : State) (os : List Out) : (State.emits s os).kept = s.kept := by
  unfold State.emits
  exact kept_foldl _ _ _ (fun _ _ => by simp)

@[simp ↓] theorem ovfSend_kept (s : State) (key : Nat) : (State.ovfSend s key).kept = s.kept := by
  unfold State.ovfSend
  repeat' (first | with_reducible rfl | (simp; done) | (refine (kept_foldl _ _ _ ?_).trans ?_) | (intro _ _) | split | simp)

@[simp ↓] theorem ovfRaise_kept (s : State) (key : Nat) : (State.ovfRaise s key).kept = s.kept := by
  simp [State.ovfRaise]

@[simp ↓] theorem bump_kept (s : State) (key n : Nat) : (State.bump s key n).kept = s.kept := by
  simp [State.bump]

@[simp ↓] theorem count_kept (s : State) (ev unit cls n : Nat) : (State.count s ev unit cls n).kept = s.kept := by
  unfold State.count
  repeat' (first | with_reducible rfl | (simp; done) | (refine (kept_foldl _ _ _ ?_).trans ?_) | (intro _ _) | split | simp)

@[simp ↓] theorem cellIn_kept (s0 : State) (c : Cell) : (State.cellIn s0 c).kept = s0.kept := by
  simp [State.cellIn]

@[simp ↓] theorem cellsOut_kept (s : State) (point cls n bytes : Nat) : (State.cellsOut s point cls n bytes).kept = s.kept := by
  simp [State.cellsOut]

@[simp ↓] theorem slotLost_kept (s : State) (point : Nat) : (State.slotLost s point).kept = s.kept := by
  simp [State.slotLost]

@[simp ↓] theorem sample_kept (s : State) (y : Sampled) : (State.sample s y).kept = s.kept := by
  rfl

@[simp ↓] theorem smpNote_kept (s : State) (a : Agent) (cls : Nat) (key : Nat × Nat) (f : SampSel → SampSel) : (State.smpNote s a cls key f).kept = s.kept := by
  rfl

@[simp ↓] theorem smpEnd_kept (s : State) (a : Agent) (cls : Nat) (key : Nat × Nat) (outcome : Nat) : (State.smpEnd s a cls key outcome).kept = s.kept := by
  rfl

@[simp ↓] theorem txnEnd_kept (s : State) (line outcome : Nat) : (State.txnEnd s line outcome).kept = s.kept := by
  unfold State.txnEnd; split <;> simp

@[simp ↓] theorem txnNote_kept (s : State) (line : Nat) (f : SampSel → SampSel) : (State.txnNote s line f).kept = s.kept := by
  unfold State.txnNote; split <;> simp

@[simp ↓] theorem latOpen_kept (s : State) (port fpa : Nat) : (State.latOpen s port fpa).kept = s.kept := by
  simp [State.latOpen]

@[simp ↓] theorem latDrop_kept (s : State) (port fpa : Nat) : (State.latDrop s port fpa).kept = s.kept := by
  unfold State.latDrop; split <;> simp

@[simp ↓] theorem latDone_kept (s : State) (port fpa : Nat) : (State.latDone s port fpa).kept = s.kept := by
  simp [State.latDone]

@[simp ↓] theorem memAcc_kept (s : State) (x : Access) : (State.memAcc s x).kept = s.kept := by
  simp [State.memAcc]

@[simp ↓] theorem memRd_kept (s : State) (fpa : Nat) : (State.memRd s fpa).kept = s.kept := by
  simp [State.memRd]

@[simp ↓] theorem evacWr_kept (s : State) (x : Access) : (State.evacWr s x).kept = s.kept := by
  unfold State.evacWr; split <;> simp

@[simp ↓] theorem memWr_kept (s : State) (fpa : Nat) (en : BitVec 64) (d : Line) (poison : Bool) (k : AccKind) : (State.memWr s fpa en d poison k).kept = s.kept := by
  unfold State.memWr
  repeat' (first | with_reducible rfl | (simp; done) | (refine (kept_foldl _ _ _ ?_).trans ?_) | (intro _ _) | split | simp)

@[simp ↓] theorem sliceCnt_kept (s : State) (sl : Option Nat) (i n : Nat) : (State.sliceCnt s sl i n).kept = s.kept := by
  unfold State.sliceCnt; split <;> simp

@[simp ↓] theorem journal_kept (s : State) (r : JRec) : (State.journal s r).kept = s.kept := by
  simp [State.journal]

@[simp ↓] theorem summary_kept (s : State) (b : Nat) (groups : Nat) : (State.summary s b groups).kept = s.kept := by
  unfold State.summary
  repeat' (first | with_reducible rfl | (simp; done) | (refine (kept_foldl _ _ _ ?_).trans ?_) | (intro _ _) | split | simp)

@[simp ↓] theorem endOp_kept (s : State) (grp status : Nat) (result : Option Nat) : (State.endOp s grp status result).kept = s.kept := by
  unfold State.endOp; split <;> simp

@[simp ↓] theorem posOp_kept (s : State) (grp pos : Nat) : (State.posOp s grp pos).kept = s.kept := by
  unfold State.posOp; split <;> simp

@[simp ↓] theorem startOp_kept (s : State) (grp opcode total : Nat) : (State.startOp s grp opcode total).1.kept = s.kept := by
  simp [State.startOp]

@[simp ↓] theorem pevent_kept (s : State) (code port detail : Nat) (ext : Option (Nat × Nat)) : (State.pevent s code port detail ext).kept = s.kept := by
  simp [State.pevent]

@[simp ↓] theorem bindGen_kept (s : State) : (State.bindGen s).kept = s.kept := by
  rfl

@[simp ↓] theorem dmaEvent_kept (s : State) (b ring ch : Nat) : (State.dmaEvent s b ring ch).kept = s.kept := by
  rfl

@[simp ↓] theorem gateEvent_kept (s : State) (b point : Nat) : (State.gateEvent s b point).kept = s.kept := by
  rfl

@[simp ↓] theorem globEvent_kept (s : State) (b : Nat) : (State.globEvent s b).kept = s.kept := by
  rfl

@[simp ↓] theorem sillEvent_kept (s : State) (b : Nat) : (State.sillEvent s b).kept = s.kept := by
  rfl

@[simp ↓] theorem wardEvent_kept (s : State) (b : Nat) (v mask : Reg32) : (State.wardEvent s b v mask).kept = s.kept := by
  rfl

@[simp ↓] theorem trunkEvent_kept (s : State) (t b cause : Nat) (load : Bool) : (State.trunkEvent s t b cause load).kept = s.kept := by
  rfl

@[simp ↓] theorem arbEvent_kept (s : State) (p b req : Nat) : (State.arbEvent s p b req).kept = s.kept := by
  rfl

end Sys2Proof.Machine
end

