-- ==== Sys2Proof/Laws/KeptReport.lean ====
section
/-! SUPPORT. What the operations of Machine/Report.lean keep. -/
namespace Sys2Proof.Machine

@[simp ↓] theorem logRec_kept (s : State) (r : FRec) : (State.logRec s r).kept = s.kept := by
  simp [State.logRec]

@[simp ↓] theorem reportC_kept (s : State) (c code : Nat) (l : Loc) (detail : Reg32) (port : Nat) (wire : Bool) : (State.reportC s c code l detail port wire).kept = s.kept := by
  simp [State.reportC]

@[simp ↓] theorem report_kept (s : State) (code : Nat) (l : Loc) (detail : Reg32) (port : Nat) : (State.report s code l detail port).kept = s.kept := by
  unfold State.report; split <;> simp

@[simp ↓] theorem fault_kept (s : State) (code : Nat) (l : Loc) (port : Nat) : (State.fault s code l port).kept = s.kept := by
  simp [State.fault]

@[simp ↓] theorem voted_kept (s : State) (t : Tri) (off : Nat) (l : Loc) : (State.voted s t off l).kept = s.kept := by
  simp [State.voted]

end Sys2Proof.Machine
end

