-- ==== Sys2Proof/Laws/KeptKeeper.lean ====
section
/-! SUPPORT. What the operations of Machine/Keeper.lean keep. -/
namespace Sys2Proof.Machine

@[simp ↓] theorem putDent_kept (s : State) (fpa : Nat) (e : DEnt) : (State.putDent s fpa e).kept = s.kept := by
  simp [State.putDent]

@[simp ↓] theorem biOpens_kept (s : State) (h p line : Nat) : (State.biOpens s h p line).kept = s.kept := by
  rfl

@[simp ↓] theorem toAgent_kept (s : State) (a : Agent) (opc fpa : Nat) (nd nt : Bool) (mask : Nat) (psn : Bool) (d : Line) : (State.toAgent s a opc fpa nd nt mask psn d).kept = s.kept := by
  unfold State.toAgent
  repeat' (first | with_reducible rfl | (simp; done) | (refine (kept_foldl _ _ _ ?_).trans ?_) | (intro _ _) | split | simp)

@[simp ↓] theorem landed_kept (s0 : State) (a : Agent) (line : Nat) : (State.landed s0 a line).kept = s0.kept := by
  rfl

@[simp ↓] theorem paid_kept (s : State) (p line : Nat) : (State.paid s p line).kept = s.kept := by
  simp [State.paid]

@[simp ↓] theorem descRead_kept (s : State) (c ring : Nat) (psn : Bool) (d : Line) : (State.descRead s c ring psn d).kept = s.kept := by
  simp [State.descRead]

@[simp ↓] theorem modWrDone_kept (s : State) (a : Agent) (line : Nat) : (State.modWrDone s a line).kept = s.kept := by
  unfold State.modWrDone
  repeat' (first | with_reducible rfl | (simp; done) | (refine (kept_foldl _ _ _ ?_).trans ?_) | (intro _ _) | split | simp)

@[simp ↓] theorem dmaTakes_kept (s : State) (c line : Nat) (g : Grant) (d : Line) : (State.dmaTakes s c line g d).kept = s.kept := by
  unfold State.dmaTakes
  repeat' (first | with_reducible rfl | (simp; done) | (refine (kept_foldl _ _ _ ?_).trans ?_) | (intro _ _) | split | simp)

@[simp ↓] theorem dmaFails_kept (s : State) (a : Agent) (line status : Nat) : (State.dmaFails s a line status).kept = s.kept := by
  unfold State.dmaFails
  repeat' (first | with_reducible rfl | (simp; done) | (refine (kept_foldl _ _ _ ?_).trans ?_) | (intro _ _) | split | simp)

@[simp ↓] theorem answer_kept (s : State) (a : Agent) (g : Grant) (fpa : Nat) (d : Line) : (State.answer s a g fpa d).kept = s.kept := by
  unfold State.answer
  iterate 24 (all_goals try first | with_reducible rfl | with_reducible assumption | (fail_if_no_progress extract_lets -underBinder +onlyGivenNames x; first | (refine kept_via ?_ ?_ (fun hx => ?_) <;> [(with_reducible apply x; done); (dsimp -zeta only [x]; clear x); (clear_value x)]) | (refine kept_via ?_ ?_ (fun hx => ?_) <;> [(with_reducible apply Prod.fst x; done); (dsimp -zeta only [x]; clear x); (clear_value x)]) | skip) | (with_reducible refine (kept_foldl _ _ _ ?_).trans ?_) | (with_reducible refine (kept_foldl_fst _ _ _ ?_).trans ?_) | split | (intro _ _) | simp only [*] | simp [*] | simp +zetaDelta [*] | (simp_all +zetaDelta [State.kept, -kept_eta]; done))

@[simp ↓] theorem grant_kept (s : State) (a : Agent) (g : Grant) (fpa : Nat) (d : Line) : (State.grant s a g fpa d).kept = s.kept := by
  unfold State.grant
  iterate 24 (all_goals try first | with_reducible rfl | with_reducible assumption | (fail_if_no_progress extract_lets -underBinder +onlyGivenNames x; first | (refine kept_via ?_ ?_ (fun hx => ?_) <;> [(with_reducible apply x; done); (dsimp -zeta only [x]; clear x); (clear_value x)]) | (refine kept_via ?_ ?_ (fun hx => ?_) <;> [(with_reducible apply Prod.fst x; done); (dsimp -zeta only [x]; clear x); (clear_value x)]) | (clear_value x)) | (with_reducible refine (kept_foldl _ _ _ ?_).trans ?_) | (with_reducible refine (kept_foldl_fst _ _ _ ?_).trans ?_) | split | (intro _ _) | simp only [*] | simp [*] | simp +zetaDelta [*] | (simp_all +zetaDelta [State.kept, -kept_eta]; done))

@[simp ↓] theorem toMod_kept (s : State) (o : Out) (bulk : Bool) : (State.toMod s o bulk).kept = s.kept := by
  unfold State.toMod
  repeat' (first | with_reducible rfl | (simp; done) | (refine (kept_foldl _ _ _ ?_).trans ?_) | (intro _ _) | split | simp)

@[simp ↓] theorem modWrite_kept (s : State) (src owner : Agent) (a n v : Nat) (irq : Option (Nat × Nat)) : (State.modWrite s src owner a n v irq).kept = s.kept := by
  unfold State.modWrite
  repeat' (first | with_reducible rfl | (simp; done) | (refine (kept_foldl _ _ _ ?_).trans ?_) | (intro _ _) | split | simp)

@[simp ↓] theorem opened_kept (s : State) (q : QReq) : (State.opened s q).kept = s.kept := by
  simp [State.opened]

@[simp ↓] theorem addWait_kept (s : State) (own : WOwner) (forLine : Nat) (kind : SnpKind) (nd : Bool) (a : Agent) (line : Nat) : (State.addWait s own forLine kind nd a line).kept = s.kept := by
  simp [State.addWait]

@[simp ↓] theorem snpCell_kept (s : State) (a : Agent) (opc line : Nat) (nd : Bool) (mask : Nat) : (State.snpCell s a opc line nd mask).kept = s.kept := by
  simp [State.snpCell]

@[simp ↓] theorem sendSnoop_kept (s : State) (kind : SnpKind) (nd : Bool) (a : Agent) (line mask : Nat) : (State.sendSnoop s kind nd a line mask).kept = s.kept := by
  simp [State.sendSnoop]

@[simp ↓] theorem snoop_kept (s : State) (own : WOwner) (forLine : Nat) (kind : SnpKind) (nd : Bool) (as : List (Agent × Nat)) : (State.snoop s own forLine kind nd as).kept = s.kept := by
  unfold State.snoop
  repeat' (first | with_reducible rfl | (simp; done) | (refine (kept_foldl _ _ _ ?_).trans ?_) | (intro _ _) | split | simp)

@[simp ↓] theorem logBit_kept (s : State) (sl : Nat) (g : DLog) (bitNo : Nat) : (State.logBit s sl g bitNo).kept = s.kept := by
  unfold State.logBit
  repeat' (first | with_reducible rfl | (simp; done) | (refine (kept_foldl _ _ _ ?_).trans ?_) | (intro _ _) | split | simp)

@[simp ↓] theorem markPage_kept (s : State) (home ext page : Nat) : (State.markPage s home ext page).kept = s.kept := by
  unfold State.markPage
  repeat' (first | with_reducible rfl | (simp; done) | (refine (kept_foldl _ _ _ ?_).trans ?_) | (intro _ _) | split | simp)

@[simp ↓] theorem mark_kept (s : State) (fpa : Nat) : (State.mark s fpa).kept = s.kept := by
  unfold State.mark
  repeat' (first | with_reducible rfl | (simp; done) | (refine (kept_foldl _ _ _ ?_).trans ?_) | (intro _ _) | split | simp)

@[simp ↓] theorem alcDrop_kept (s : State) (line : Nat) : (State.alcDrop s line).kept = s.kept := by
  rfl

@[simp ↓] theorem sideWr_kept (s : State) (fpa : Nat) (d : Line) (psn : Bool) : (State.sideWr s fpa d psn).kept = s.kept := by
  simp [State.sideWr]

@[simp ↓] theorem alcFlush_kept (s : State) (line : Nat) : (State.alcFlush s line).kept = s.kept := by
  unfold State.alcFlush; split <;> simp

@[simp ↓] theorem alcPut_kept (s : State) (c : CLine) : (State.alcPut s c).kept = s.kept := by
  unfold State.alcPut
  repeat' (first | with_reducible rfl | (simp; done) | (refine (kept_foldl _ _ _ ?_).trans ?_) | (intro _ _) | split | simp)

@[simp ↓] theorem resultSlot_kept (s : State) (a : Agent) (area : Option Nat) (r : BitVec 128) (old : BitVec 64) (status : Nat) : (State.resultSlot s a area r old status).kept = s.kept := by
  unfold State.resultSlot
  repeat' (first | with_reducible rfl | (simp; done) | (refine (kept_foldl _ _ _ ?_).trans ?_) | (intro _ _) | split | simp)

@[simp ↓] theorem modAtomic_kept (s : State) (c : Nat) (f : Begun → Begun) : (State.modAtomic s c f).kept = s.kept := by
  rfl

@[simp ↓] theorem refuseRec_kept (s : State) (a : Agent) (area : Option Nat) (r : BitVec 128) (status : Nat) : (State.refuseRec s a area r status).kept = s.kept := by
  unfold State.refuseRec; split <;> simp

@[simp ↓] theorem recAnswer_kept (s : State) (m fpa : Nat) (r : BitVec 128) (old : BitVec 64) (status : Nat) : (State.recAnswer s m fpa r old status).kept = s.kept := by
  simp [State.recAnswer]

@[simp ↓] theorem refuseAt_kept (s : State) (q : QReq) (fpa status : Nat) : (State.refuseAt s q fpa status).kept = s.kept := by
  unfold State.refuseAt
  repeat' (first | with_reducible rfl | (simp; done) | (refine (kept_foldl _ _ _ ?_).trans ?_) | (intro _ _) | split | simp)

@[simp ↓] theorem applyRec_kept (s : State) (q : QReq) (c : CLine) : (State.applyRec s q c).kept = s.kept := by
  unfold State.applyRec
  repeat' (first | with_reducible rfl | (simp; done) | (refine (kept_foldl _ _ _ ?_).trans ?_) | (intro _ _) | split | simp)

@[simp ↓] theorem setTxn_kept (s : State) (t : Txn) : (State.setTxn s t).kept = s.kept := by
  rfl

@[simp ↓] theorem closeTxn_kept (s : State) (line : Nat) : (State.closeTxn s line).kept = s.kept := by
  rfl

@[simp ↓] theorem record_kept (s : State) (fpa : Nat) (f : DEnt → DEnt) : (State.record s fpa f).kept = s.kept := by
  simp [State.record]

@[simp ↓] theorem blkUnused_kept (s : State) (a : Agent) (line : Nat) : (State.blkUnused s a line).kept = s.kept := by
  unfold State.blkUnused
  repeat' (first | with_reducible rfl | (simp; done) | (refine (kept_foldl _ _ _ ?_).trans ?_) | (intro _ _) | split | simp)

@[simp ↓] theorem blkDrop_kept (s : State) (q : QReq) : (State.blkDrop s q).kept = s.kept := by
  simp [State.blkDrop]

@[simp ↓] theorem finish_kept (s : State) (t : Txn) (g : Grant) (d : Line) : (State.finish s t g d).kept = s.kept := by
  simp [State.finish]

@[simp ↓] theorem poisonMem_kept (s : State) (fpa : Nat) : (State.poisonMem s fpa).kept = s.kept := by
  simp [State.poisonMem]

@[simp ↓] theorem thenRead_kept (s : State) (t : Txn) (g : Grant) : (State.thenRead s t g).kept = s.kept := by
  simp [State.thenRead]

@[simp ↓] theorem thenWrite_kept (s : State) (t : Txn) (g : Grant) (en : BitVec 64) (d : Line) (psn : Bool) : (State.thenWrite s t g en d psn).kept = s.kept := by
  simp [State.thenWrite]

@[simp ↓] theorem readDone_kept (s : State) (t : Txn) (psn : Bool) (d : Line) : (State.readDone s t psn d).kept = s.kept := by
  unfold State.readDone
  repeat' (first | with_reducible rfl | (simp; done) | (refine (kept_foldl _ _ _ ?_).trans ?_) | (intro _ _) | split | simp)

@[simp ↓] theorem proceed_kept (s : State) (t : Txn) : (State.proceed s t).kept = s.kept := by
  unfold State.proceed
  dsimp only
  split <;> (repeat' split) <;> simp

@[simp ↓] theorem snoopThen_kept (s : State) (t : Txn) (kind : SnpKind) (nd : Bool) (as : List Agent) : (State.snoopThen s t kind nd as).kept = s.kept := by
  simp [State.snoopThen]

@[simp ↓] theorem narrowThen_kept (s : State) (t : Txn) (e : DEnt) : (State.narrowThen s t e).kept = s.kept := by
  simp [State.narrowThen]

@[simp ↓] theorem beginX_kept (s : State) (t : Txn) (e : DEnt) : (State.beginX s t e).kept = s.kept := by
  simp [State.beginX]

@[simp ↓] theorem begin_kept (s : State) (t : Txn) : (State.begin_ s t).kept = s.kept := by
  unfold State.begin_
  repeat' (first | with_reducible rfl | (simp; done) | (refine (kept_foldl _ _ _ ?_).trans ?_) | (intro _ _) | split | simp)

@[simp ↓] theorem open_kept (s : State) (q : QReq) : (State.open_ s q).kept = s.kept := by
  unfold State.open_
  iterate 24 (all_goals try first | with_reducible rfl | with_reducible assumption | (fail_if_no_progress extract_lets -underBinder +onlyGivenNames x; first | (refine kept_via ?_ ?_ (fun hx => ?_) <;> [(with_reducible apply x; done); (dsimp -zeta only [x]; clear x); (clear_value x)]) | (refine kept_via ?_ ?_ (fun hx => ?_) <;> [(with_reducible apply Prod.fst x; done); (dsimp -zeta only [x]; clear x); (clear_value x)]) | (clear_value x)) | (with_reducible refine (kept_foldl _ _ _ ?_).trans ?_) | (with_reducible refine (kept_foldl_fst _ _ _ ?_).trans ?_) | split | (intro _ _) | simp only [*] | simp [*] | simp +zetaDelta [*] | (simp_all +zetaDelta [State.kept, -kept_eta]; done))

@[simp ↓] theorem rlcDrop_kept (s : State) (line : Nat) : (State.rlcDrop s line).kept = s.kept := by
  rfl

@[simp ↓] theorem wbHome_kept (s : State) (line : Nat) (k : Bool) (d : Line) (psn : Bool) : (State.wbHome s line k d psn).kept = s.kept := by
  simp [State.wbHome]

@[simp ↓] theorem evictHome_kept (s : State) (line : Nat) : (State.evictHome s line).kept = s.kept := by
  simp [State.evictHome]

@[simp ↓] theorem sectorLeaves_kept (s : State) (sec : Nat) (e : DEnt) : (State.sectorLeaves s sec e).kept = s.kept := by
  unfold State.sectorLeaves
  repeat' (first | with_reducible rfl | (simp; done) | (refine (kept_foldl _ _ _ ?_).trans ?_) | (intro _ _) | split | simp)

@[simp ↓] theorem toVictim_kept (s : State) (sec : Nat) (e : DEnt) : (State.toVictim s sec e).kept = s.kept := by
  simp [State.toVictim]

@[simp ↓] theorem evictWay_kept (s : State) (fpa : Nat) : (State.evictWay s fpa).kept = s.kept := by
  unfold State.evictWay
  repeat' (first | with_reducible rfl | (simp; done) | (refine (kept_foldl _ _ _ ?_).trans ?_) | (intro _ _) | split | simp)

@[simp ↓] theorem enqueue_kept (s : State) (q : QReq) : (State.enqueue s q).kept = s.kept := by
  simp [State.enqueue]

@[simp ↓] theorem poisonReply_kept (s : State) (q : QReq) : (State.poisonReply s q).kept = s.kept := by
  unfold State.poisonReply; split <;> simp

/-- A request that its extent's rule answers. -/
theorem extRule_kept (s : State) (q : QReq) (t : State) (h : s.extRule q = some t) : t.kept = s.kept := by
  unfold State.extRule at h
  dsimp only at h
  split at h
  · cases h
    split <;> simp
  · split at h <;> first | (cases h; simp) | cases h
  · cases h

@[simp ↓] theorem homeAdmit_kept (s : State) (q0 : QReq) (again : Bool) : (State.homeAdmit s q0 again).kept = s.kept := by
  unfold State.homeAdmit
  dsimp only
  split
  · simp
  · split
    · rename_i h
      exact extRule_kept _ _ _ h
    · split <;> simp

end Sys2Proof.Machine
end

