-- ==== Sys2Proof/Laws/KeptProxy.lean ====
section
/-! SUPPORT. What the operations of Machine/Proxy.lean keep. -/
namespace Sys2Proof.Machine

@[simp ↓] theorem rlcEvict_kept (s : State) (c : CLine) : (State.rlcEvict s c).kept = s.kept := by
  unfold State.rlcEvict
  repeat' (first | with_reducible rfl | (simp; done) | (refine (kept_foldl _ _ _ ?_).trans ?_) | (intro _ _) | split | simp)

@[simp ↓] theorem rlcPut_kept (s : State) (c : CLine) : (State.rlcPut s c).kept = s.kept := by
  unfold State.rlcPut
  repeat' (first | with_reducible rfl | (simp; done) | (refine (kept_foldl _ _ _ ?_).trans ?_) | (intro _ _) | split | simp)

@[simp ↓] theorem lineSpoilt_kept (s : State) (line : Nat) : (State.lineSpoilt s line).kept = s.kept := by
  unfold State.lineSpoilt
  repeat' (first | with_reducible rfl | (simp; done) | (refine (kept_foldl _ _ _ ?_).trans ?_) | (intro _ _) | split | simp)

@[simp ↓] theorem answerHome_kept (s : State) (line rsp : Nat) (dat : Option (Nat × Line)) : (State.answerHome s line rsp dat).kept = s.kept := by
  unfold State.answerHome; split <;> simp

@[simp ↓] theorem proxyAnswer_kept (s : State) (p : PSnoop) : (State.proxyAnswer s p).kept = s.kept := by
  unfold State.proxyAnswer
  repeat' (first | with_reducible rfl | (simp; done) | (refine (kept_foldl _ _ _ ?_).trans ?_) | (intro _ _) | split | simp)

@[simp ↓] theorem proxySnoop_kept (s : State) (kind : SnpKind) (nd : Bool) (line : Nat) : (State.proxySnoop s kind nd line).kept = s.kept := by
  simp [State.proxySnoop]

@[simp ↓] theorem forwardHome_kept (s : State) (q : QReq) : (State.forwardHome s q).kept = s.kept := by
  simp [State.forwardHome]

@[simp ↓] theorem rlcHit_kept (s : State) (q : QReq) : (State.rlcHit s q).kept = s.kept := by
  simp [State.rlcHit]

@[simp ↓] theorem proxyFree_kept (s : State) (fpa : Nat) (gone : Bool) : (State.proxyFree s fpa gone).kept = s.kept := by
  unfold State.proxyFree; split <;> simp

@[simp ↓] theorem proxyServeGo_kept (s : State) (q : QReq) : (State.proxyServeGo s q).kept = s.kept := by
  unfold State.proxyServeGo
  repeat' (first | with_reducible rfl | (simp; done) | (refine (kept_foldl _ _ _ ?_).trans ?_) | (intro _ _) | split | simp)

@[simp ↓] theorem proxyServe_kept (s : State) (q : QReq) : (State.proxyServe s q).kept = s.kept := by
  unfold State.proxyServe
  repeat' (first | with_reducible rfl | (simp; done) | (refine (kept_foldl _ _ _ ?_).trans ?_) | (intro _ _) | split | simp)

@[simp ↓] theorem proxyAdmit_kept (s : State) (q : QReq) (again : Bool) : (State.proxyAdmit s q again).kept = s.kept := by
  simp [State.proxyAdmit]

@[simp ↓] theorem admitReq_kept (s : State) (q : QReq) : (State.admitReq s q).kept = s.kept := by
  simp [State.admitReq]

@[simp ↓] theorem admitAgain_kept (s : State) (q : QReq) : (State.admitAgain s q).kept = s.kept := by
  simp [State.admitAgain]

@[simp ↓] theorem proxyTake_kept (s0 : State) (t : Txn) (g : Grant) (d : Line) : (State.proxyTake s0 t g d).kept = s0.kept := by
  unfold State.proxyTake
  iterate 24 (all_goals try first | with_reducible rfl | with_reducible assumption | (fail_if_no_progress extract_lets -underBinder +onlyGivenNames x; first | (refine kept_via ?_ ?_ (fun hx => ?_) <;> [(with_reducible apply x; done); (dsimp -zeta only [x]; clear x); (clear_value x)]) | (refine kept_via ?_ ?_ (fun hx => ?_) <;> [(with_reducible apply Prod.fst x; done); (dsimp -zeta only [x]; clear x); (clear_value x)]) | skip) | (with_reducible refine (kept_foldl _ _ _ ?_).trans ?_) | (with_reducible refine (kept_foldl_fst _ _ _ ?_).trans ?_) | split | (intro _ _) | simp only [*] | simp [*] | simp +zetaDelta [*] | (simp_all +zetaDelta [State.kept, -kept_eta]; done))

@[simp ↓] theorem proxyGrant_kept (s : State) (t : Txn) (g : Grant) (d : Line) : (State.proxyGrant s t g d).kept = s.kept := by
  unfold State.proxyGrant
  iterate 24 (all_goals try first | with_reducible rfl | with_reducible assumption | (fail_if_no_progress extract_lets -underBinder +onlyGivenNames x; first | (refine kept_via ?_ ?_ (fun hx => ?_) <;> [(with_reducible apply x; done); (dsimp -zeta only [x]; clear x); (clear_value x)]) | (refine kept_via ?_ ?_ (fun hx => ?_) <;> [(with_reducible apply Prod.fst x; done); (dsimp -zeta only [x]; clear x); (clear_value x)]) | (clear_value x)) | (with_reducible refine (kept_foldl _ _ _ ?_).trans ?_) | (with_reducible refine (kept_foldl_fst _ _ _ ?_).trans ?_) | split | (intro _ _) | simp only [*] | simp [*] | simp +zetaDelta [*] | (simp_all +zetaDelta [State.kept, -kept_eta]; done))

@[simp ↓] theorem txnResume_kept (s : State) (line : Nat) : (State.txnResume s line).kept = s.kept := by
  unfold State.txnResume
  iterate 24 (all_goals try first | with_reducible rfl | with_reducible assumption | (fail_if_no_progress extract_lets -underBinder +onlyGivenNames x; first | (refine kept_via ?_ ?_ (fun hx => ?_) <;> [(with_reducible apply x; done); (dsimp -zeta only [x]; clear x); (clear_value x)]) | (refine kept_via ?_ ?_ (fun hx => ?_) <;> [(with_reducible apply Prod.fst x; done); (dsimp -zeta only [x]; clear x); (clear_value x)]) | (clear_value x)) | (with_reducible refine (kept_foldl _ _ _ ?_).trans ?_) | (with_reducible refine (kept_foldl_fst _ _ _ ?_).trans ?_) | split | (intro _ _) | simp only [*] | simp [*] | simp +zetaDelta [*] | (simp_all +zetaDelta [State.kept, -kept_eta]; done))

@[simp ↓] theorem lateAnswer_kept (s : State) (p : PSnoop) : (State.lateAnswer s p).kept = s.kept := by
  simp [State.lateAnswer]

@[simp ↓] theorem victimResume_kept (s : State) (line : Nat) : (State.victimResume s line).kept = s.kept := by
  unfold State.victimResume
  repeat' (first | with_reducible rfl | (simp; done) | (refine (kept_foldl _ _ _ ?_).trans ?_) | (intro _ _) | split | simp)

@[simp ↓] theorem answered_kept (s : State) (w : Wait) (r : RspKind) (d : Option (Line × Bool)) : (State.answered s w r d).kept = s.kept := by
  unfold State.answered
  repeat' (first | with_reducible rfl | (simp; done) | (refine (kept_foldl _ _ _ ?_).trans ?_) | (intro _ _) | split | simp)

@[simp ↓] theorem setWait_kept (s : State) (w w' : Wait) : (State.setWait s w w').kept = s.kept := by
  rfl

@[simp ↓] theorem rspArrives_kept (s : State) (m : MsgOp) (r : RspKind) : (State.rspArrives s m r).kept = s.kept := by
  unfold State.rspArrives
  repeat' (first | with_reducible rfl | (simp; done) | (refine (kept_foldl _ _ _ ?_).trans ?_) | (intro _ _) | split | simp)

@[simp ↓] theorem datArrives_kept (s : State) (w : Wait) (d : Line) (psn wb : Bool) : (State.datArrives s w d psn wb).kept = s.kept := by
  unfold State.datArrives; split <;> simp

@[simp ↓] theorem synthesise_kept (s : State) (w : Wait) : (State.synthesise s w).kept = s.kept := by
  unfold State.synthesise
  repeat' (first | with_reducible rfl | (simp; done) | (refine (kept_foldl _ _ _ ?_).trans ?_) | (intro _ _) | split | simp)

@[simp ↓] theorem synthAll_kept (s : State) (a : Agent) : (State.synthAll s a).kept = s.kept := by
  unfold State.synthAll
  exact kept_foldl _ _ _ (fun _ _ => by simp)

@[simp ↓] theorem closeAcks_kept (s : State) (m : Nat) : (State.closeAcks s m).kept = s.kept := by
  unfold State.closeAcks
  exact kept_foldl _ _ _ (fun _ _ => by simp)

@[simp ↓] theorem sweepStart_kept (s : State) (why arg : Nat) (p : Nat → Bool) (who : Agent → Bool) (keepS nd : Bool) : (State.sweepStart s why arg p who keepS nd).1.kept = s.kept := by
  simp [State.sweepStart]

@[simp ↓] theorem sweepEnd_kept (s : State) (n : Nat) : (State.sweepEnd s n).kept = s.kept := by
  rfl

@[simp ↓] theorem wbArrives_kept (s : State) (a : Agent) (fpa : Nat) (k : Bool) (d : Line) (psn : Bool) : (State.wbArrives s a fpa k d psn).kept = s.kept := by
  unfold State.wbArrives
  repeat' (first | with_reducible rfl | (simp; done) | (refine (kept_foldl _ _ _ ?_).trans ?_) | (intro _ _) | split | simp)

@[simp ↓] theorem drsArrives_kept (s : State) (fpa : Nat) (psn : Bool) (d : Line) : (State.drsArrives s fpa psn d).kept = s.kept := by
  unfold State.drsArrives
  repeat' (first | with_reducible rfl | (simp; done) | (refine (kept_foldl _ _ _ ?_).trans ?_) | (intro _ _) | split | simp)

@[simp ↓] theorem ndrArrives_kept (s : State) (fpa : Nat) : (State.ndrArrives s fpa).kept = s.kept := by
  unfold State.ndrArrives
  repeat' (first | with_reducible rfl | (simp; done) | (refine (kept_foldl _ _ _ ?_).trans ?_) | (intro _ _) | split | simp)

end Sys2Proof.Machine
end

