-- ==== Sys2Proof/Laws/KeptRings.lean ====
section
/-! SUPPORT. What the operations of Machine/Rings.lean keep. -/
namespace Sys2Proof.Machine

@[simp ↓] theorem cqWrite_kept (s : State) (ring idx tag status result : Nat) (irq : Bool) : (State.cqWrite s ring idx tag status result irq).kept = s.kept := by
  unfold State.cqWrite
  repeat' (first | with_reducible rfl | (simp; done) | (refine (kept_foldl _ _ _ ?_).trans ?_) | (intro _ _) | split | simp)

@[simp ↓] theorem ringError_kept (s : State) (ring : Nat) : (State.ringError s ring).kept = s.kept := by
  simp [State.ringError]

@[simp ↓] theorem descDone_kept (s : State) (ring idx tag status result : Nat) (irq : Bool) : (State.descDone s ring idx tag status result irq).kept = s.kept := by
  simp [State.descDone]

@[simp ↓] theorem ringDisable_kept (s : State) (ring : Nat) : (State.ringDisable s ring).kept = s.kept := by
  simp [State.ringDisable]

@[simp ↓] theorem drainAborts_kept (s : State) (ring : Nat) : (State.drainAborts s ring).kept = s.kept := by
  unfold State.drainAborts
  repeat' (first | with_reducible rfl | (simp; done) | (refine (kept_foldl _ _ _ ?_).trans ?_) | (intro _ _) | split | simp)

@[simp ↓] theorem drainEnd_kept (s : State) (ring : Nat) : (State.drainEnd s ring).kept = s.kept := by
  simp [State.drainEnd]

@[simp ↓] theorem chanAbort_kept (s : State) (c : Nat) : (State.chanAbort s c).kept = s.kept := by
  unfold State.chanAbort
  repeat' (first | with_reducible rfl | (simp; done) | (refine (kept_foldl _ _ _ ?_).trans ?_) | (intro _ _) | split | simp)

@[simp ↓] theorem sliceRingsOff_kept (s : State) (sl : Nat) : (State.sliceRingsOff s sl).kept = s.kept := by
  unfold State.sliceRingsOff
  exact kept_foldl _ _ _ (fun _ _ => by simp)

@[simp ↓] theorem schReply_kept (s : State) (sl tag op status len payload : Nat) (cls : Bool) : (State.schReply s sl tag op status len payload cls).kept = s.kept := by
  unfold State.schReply
  repeat' (first | with_reducible rfl | (simp; done) | (refine (kept_foldl _ _ _ ?_).trans ?_) | (intro _ _) | split | simp)

@[simp ↓] theorem reply_kept (s : State) (f : Frame) (op rc : Nat) (data : List Nat) : (State.reply s f op rc data).kept = s.kept := by
  unfold State.reply
  repeat' (first | with_reducible rfl | (simp; done) | (refine (kept_foldl _ _ _ ?_).trans ?_) | (intro _ _) | split | simp)

@[simp ↓] theorem lateReply_kept (s : State) (f : Frame) (op rc : Nat) (data : List Nat) : (State.lateReply s f op rc data).kept = s.kept := by
  simp [State.lateReply]

@[simp ↓] theorem askHomes_kept (s : State) (q : HomeReq) : (State.askHomes s q).kept = s.kept := by
  simp [State.askHomes]

@[simp ↓] theorem homeFail_kept (s : State) (q : HomeReq) (but rc : Nat) : (State.homeFail s q but rc).kept = s.kept := by
  simp [State.homeFail]

@[simp ↓] theorem homesGone_kept (s : State) (m : Nat) : (State.homesGone s m).kept = s.kept := by
  unfold State.homesGone
  exact kept_foldl _ _ _ (fun _ _ => by simp)

end Sys2Proof.Machine
end

