-- ==== Sys2Proof/Laws/KeptBulk.lean ====
section
/-! SUPPORT. What the operations of Machine/Bulk.lean keep. -/
namespace Sys2Proof.Machine

@[simp ↓] theorem burstVoid_kept (s : State) (b : Blk) : (State.burstVoid s b).kept = s.kept := by
  rfl

@[simp ↓] theorem burstCut_kept (s : State) (c : Cell) (b : Blk) : (State.burstCut s c b).kept = s.kept := by
  simp [State.burstCut]

@[simp ↓] theorem spillCut_kept (s : State) (e : Nat × Nat × Cell) : (State.spillCut s e).kept = s.kept := by
  unfold State.spillCut; split <;> simp

@[simp ↓] theorem spillsLost_kept (s : State) (d : Nat) : (State.spillsLost s d).kept = s.kept := by
  unfold State.spillsLost
  repeat' (first | with_reducible rfl | (simp; done) | (refine (kept_foldl _ _ _ ?_).trans ?_) | (intro _ _) | split | simp)

@[simp ↓] theorem cellLost_kept (s : State) (c : Cell) : (State.cellLost s c).kept = s.kept := by
  unfold State.cellLost
  repeat' (first | with_reducible rfl | (simp; done) | (refine (kept_foldl _ _ _ ?_).trans ?_) | (intro _ _) | split | simp)

@[simp ↓] theorem qmemPoison_kept (s : State) (k : Nat) : (State.qmemPoison s k).kept = s.kept := by
  unfold State.qmemPoison; split <;> simp

@[simp ↓] theorem hcrcAt_kept (s : State) (l : Loc) : (State.hcrcAt s l).kept = s.kept := by
  unfold State.hcrcAt
  repeat' (first | with_reducible rfl | (simp; done) | (refine (kept_foldl _ _ _ ?_).trans ?_) | (intro _ _) | split | simp)

@[simp ↓] theorem flowsAnew_kept (s : State) (here : Nat → Bool) : (State.flowsAnew s here).kept = s.kept := by
  rfl

@[simp ↓] theorem queuesLost_kept (s : State) (k : Nat) : (State.queuesLost s k).kept = s.kept := by
  unfold State.queuesLost
  exact kept_foldl _ _ _ (fun _ _ => by simp)

@[simp ↓] theorem bulkOrphans_kept (s : State) (m : Nat) : (State.bulkOrphans s m).kept = s.kept := by
  rfl

@[simp ↓] theorem planeOut_kept (s : State) (p : Nat) : (State.planeOut s p).kept = s.kept := by
  unfold State.planeOut
  exact kept_foldl _ _ _ (fun _ _ => by simp)

@[simp ↓] theorem bulkFails_kept (s : State) (t : Txn) (status : Nat) : (State.bulkFails s t status).kept = s.kept := by
  unfold State.bulkFails
  repeat' (first | with_reducible rfl | (simp; done) | (refine (kept_foldl _ _ _ ?_).trans ?_) | (intro _ _) | split | simp)

@[simp ↓] theorem txnFails_kept (s : State) (x : Access) (again : Bool) (status : Nat) : (State.txnFails s x again status).kept = s.kept := by
  unfold State.txnFails
  repeat' (first | with_reducible rfl | (simp; done) | (refine (kept_foldl _ _ _ ?_).trans ?_) | (intro _ _) | split | simp)

@[simp ↓] theorem accFails_kept (s : State) (x : Access) (again : Bool) (status : Nat) : (State.accFails s x again status).kept = s.kept := by
  unfold State.accFails
  repeat' (first | with_reducible rfl | (simp; done) | (refine (kept_foldl _ _ _ ?_).trans ?_) | (intro _ _) | split | simp)

@[simp ↓] theorem pendFails_kept (s : State) (x : Pend) (again : Bool) (status : Nat) : (State.pendFails s x again status).kept = s.kept := by
  unfold State.pendFails; split <;> simp

@[simp ↓] theorem arbFence_kept (s : State) (p : Nat) : (State.arbFence s p).kept = s.kept := by
  unfold State.arbFence
  repeat' (first | with_reducible rfl | (simp; done) | (refine (kept_foldl _ _ _ ?_).trans ?_) | (intro _ _) | split | simp)

end Sys2Proof.Machine
end

