-- ==== Sys2Proof/Laws/KeptDepart.lean ====
section
/-! SUPPORT. What the operations of Machine/Depart.lean keep. -/
namespace Sys2Proof.Machine

@[simp ↓] theorem purgeAgent_kept (s : State) (a : Agent) : (State.purgeAgent s a).kept = s.kept := by
  unfold State.purgeAgent
  repeat' (first | with_reducible rfl | (simp; done) | (refine (kept_foldl _ _ _ ?_).trans ?_) | (intro _ _) | split | simp)

@[simp ↓] theorem unbind1_kept (s : State) (e : Nat) : (State.unbind1 s e).kept = s.kept := by
  rfl

@[simp ↓] theorem unbindEnt_kept (s : State) (e : Ent) : (State.unbindEnt s e).kept = s.kept := by
  unfold State.unbindEnt
  repeat' (first | with_reducible rfl | (simp; done) | (refine (kept_foldl _ _ _ ?_).trans ?_) | (intro _ _) | split | simp)

@[simp ↓] theorem delEnt_kept (s : State) (h n : Nat) : (State.delEnt s h n).kept = s.kept := by
  rfl

@[simp ↓] theorem removeStart_kept (s : State) (h n : Nat) (tell : Bool) : (State.removeStart s h n tell).kept = s.kept := by
  unfold State.removeStart; split <;> simp

@[simp ↓] theorem removeDone_kept (s : State) (h n : Nat) : (State.removeDone s h n).kept = s.kept := by
  unfold State.removeDone; split <;> simp

@[simp ↓] theorem cutRun_kept (s : State) (h n : Nat) (e : Ent) (es : List Nat) (first : Nat) : (State.cutRun s h n e es first).kept = s.kept := by
  unfold State.cutRun; split <;> simp

@[simp ↓] theorem cutEnt_kept (s : State) (h n : Nat) (es : List Nat) : (State.cutEnt s h n es).kept = s.kept := by
  unfold State.cutEnt
  iterate 24 (all_goals try first | with_reducible rfl | with_reducible assumption | (fail_if_no_progress extract_lets -underBinder +onlyGivenNames x; first | (refine kept_via ?_ ?_ (fun hx => ?_) <;> [(with_reducible apply x; done); (dsimp -zeta only [x]; clear x); (clear_value x)]) | (refine kept_via ?_ ?_ (fun hx => ?_) <;> [(with_reducible apply Prod.fst x; done); (dsimp -zeta only [x]; clear x); (clear_value x)]) | (clear_value x)) | (with_reducible refine (kept_foldl _ _ _ ?_).trans ?_) | (with_reducible refine (kept_foldl_fst _ _ _ ?_).trans ?_) | split | (intro _ _) | simp only [*] | simp [*] | simp +zetaDelta [*] | (simp_all +zetaDelta [State.kept, -kept_eta]; done))

@[simp ↓] theorem cutExts_kept (s : State) (es : List Nat) : (State.cutExts s es).kept = s.kept := by
  unfold State.cutExts
  repeat' (first | with_reducible rfl | (simp; done) | (refine (kept_foldl _ _ _ ?_).trans ?_) | (intro _ _) | split | simp)

@[simp ↓] theorem releaseStep_kept (s : State) : (State.releaseStep s).kept = s.kept := by
  unfold State.releaseStep
  repeat' (first | with_reducible rfl | (simp; done) | (refine (kept_foldl _ _ _ ?_).trans ?_) | (intro _ _) | split | simp)

@[simp ↓] theorem cutDone_kept (s : State) (c : Cut) : (State.cutDone s c).kept = s.kept := by
  unfold State.cutDone
  repeat' (first | with_reducible rfl | (simp; done) | (refine (kept_foldl _ _ _ ?_).trans ?_) | (intro _ _) | split | simp)

@[simp ↓] theorem cutsGo_kept (s : State) : (State.cutsGo s).kept = s.kept := by
  unfold State.cutsGo
  exact kept_foldl _ _ _ (fun _ _ => by simp)

@[simp ↓] theorem retire_kept (s : State) (port : Nat) (es : List Nat) : (State.retire s port es).kept = s.kept := by
  unfold State.retire
  repeat' (first | with_reducible rfl | (simp; done) | (refine (kept_foldl _ _ _ ?_).trans ?_) | (intro _ _) | split | simp)

@[simp ↓] theorem evacEnd_kept (s : State) (status : Nat) (loseF : Bool) : (State.evacEnd s status loseF).kept = s.kept := by
  unfold State.evacEnd; split <;> simp

@[simp ↓] theorem logOff_kept (s : State) (n : Nat) : (State.logOff s n).kept = s.kept := by
  unfold State.logOff; split <;> simp

@[simp ↓] theorem releaseSlice_kept (s : State) (n : Nat) : (State.releaseSlice s n).kept = s.kept := by
  unfold State.releaseSlice
  iterate 24 (all_goals try first | with_reducible rfl | with_reducible assumption | (fail_if_no_progress extract_lets -underBinder +onlyGivenNames x; first | (refine kept_via ?_ ?_ (fun hx => ?_) <;> [(with_reducible apply x; done); (dsimp -zeta only [x]; clear x); (clear_value x)]) | (refine kept_via ?_ ?_ (fun hx => ?_) <;> [(with_reducible apply Prod.fst x; done); (dsimp -zeta only [x]; clear x); (clear_value x)]) | (clear_value x)) | (with_reducible refine (kept_foldl _ _ _ ?_).trans ?_) | (with_reducible refine (kept_foldl_fst _ _ _ ?_).trans ?_) | split | (intro _ _) | simp only [*] | simp [*] | simp +zetaDelta [*] | (simp_all +zetaDelta [State.kept, -kept_eta]; done))

@[simp ↓] theorem gpfAnswer_kept (s : State) : (State.gpfAnswer s).kept = s.kept := by
  simp [State.gpfAnswer]

@[simp ↓] theorem linkDrop_kept (s : State) (p : Nat) : (State.linkDrop s p).kept = s.kept := by
  simp [State.linkDrop]

@[simp ↓] theorem failMem_kept (s : State) (port : Nat) : (State.failMem s port).kept = s.kept := by
  unfold State.failMem
  repeat' (first | with_reducible rfl | (simp; done) | (refine (kept_foldl _ _ _ ?_).trans ?_) | (intro _ _) | split | simp)

@[simp ↓] theorem spillLost_kept (s : State) : (State.spillLost s).kept = s.kept := by
  simp [State.spillLost]

@[simp ↓] theorem engineCheck_kept (s : State) (d : Nat) : (State.engineCheck s d).kept = s.kept := by
  simp [State.engineCheck]

@[simp ↓] theorem enginesCheck_kept (s : State) : (State.enginesCheck s).kept = s.kept := by
  simp [State.enginesCheck]

@[simp ↓] theorem expanderLost_kept (s : State) (p : Nat) : (State.expanderLost s p).kept = s.kept := by
  unfold State.expanderLost
  iterate 24 (all_goals try first | with_reducible rfl | with_reducible assumption | (fail_if_no_progress extract_lets -underBinder +onlyGivenNames x; first | (refine kept_via ?_ ?_ (fun hx => ?_) <;> [(with_reducible apply x; done); (dsimp -zeta only [x]; clear x); (clear_value x)]) | (refine kept_via ?_ ?_ (fun hx => ?_) <;> [(with_reducible apply Prod.fst x; done); (dsimp -zeta only [x]; clear x); (clear_value x)]) | skip) | (with_reducible refine (kept_foldl _ _ _ ?_).trans ?_) | (with_reducible refine (kept_foldl_fst _ _ _ ?_).trans ?_) | split | (intro _ _) | simp only [*] | simp [*] | simp +zetaDelta [*] | (simp_all +zetaDelta [State.kept, -kept_eta]; done))

@[simp ↓] theorem dcSettle_kept (s : State) (h : Nat) : (State.dcSettle s h).kept = s.kept := by
  unfold State.dcSettle
  repeat' (first | with_reducible rfl | (simp; done) | (refine (kept_foldl _ _ _ ?_).trans ?_) | (intro _ _) | split | simp)

@[simp ↓] theorem departStart_kept (s : State) (p cause : Nat) : (State.departStart s p cause).kept = s.kept := by
  unfold State.departStart
  iterate 24 (all_goals try first | with_reducible rfl | with_reducible assumption | (fail_if_no_progress extract_lets -underBinder +onlyGivenNames x; first | (refine kept_via ?_ ?_ (fun hx => ?_) <;> [(with_reducible apply x; done); (dsimp -zeta only [x]; clear x); (clear_value x)]) | (refine kept_via ?_ ?_ (fun hx => ?_) <;> [(with_reducible apply Prod.fst x; done); (dsimp -zeta only [x]; clear x); (clear_value x)]) | (clear_value x)) | (with_reducible refine (kept_foldl _ _ _ ?_).trans ?_) | (with_reducible refine (kept_foldl_fst _ _ _ ?_).trans ?_) | split | (intro _ _) | simp only [*] | simp [*] | simp +zetaDelta [*] | (simp_all +zetaDelta [State.kept, -kept_eta]; done))

@[simp ↓] theorem departLogged_kept (s : State) (p : Nat) : (State.departLogged s p).kept = s.kept := by
  unfold State.departLogged; split <;> simp

@[simp ↓] theorem releasePartner_kept (s : State) (p : Nat) : (State.releasePartner s p).kept = s.kept := by
  unfold State.releasePartner
  repeat' (first | with_reducible rfl | (simp; done) | (refine (kept_foldl _ _ _ ?_).trans ?_) | (intro _ _) | split | simp)

@[simp ↓] theorem bulkGone_kept (s : State) (t : Nat) : (State.bulkGone s t).kept = s.kept := by
  rfl

@[simp ↓] theorem tpClear_kept (s : State) (t : Nat) : (State.tpClear s t).kept = s.kept := by
  rfl

@[simp ↓] theorem peerGone_kept (s : State) (m : Nat) : (State.peerGone s m).kept = s.kept := by
  unfold State.peerGone
  iterate 24 (all_goals try first | with_reducible rfl | with_reducible assumption | (fail_if_no_progress extract_lets -underBinder +onlyGivenNames x; first | (refine kept_via ?_ ?_ (fun hx => ?_) <;> [(with_reducible apply x; done); (dsimp -zeta only [x]; clear x); (clear_value x)]) | (refine kept_via ?_ ?_ (fun hx => ?_) <;> [(with_reducible apply Prod.fst x; done); (dsimp -zeta only [x]; clear x); (clear_value x)]) | (clear_value x)) | (with_reducible refine (kept_foldl _ _ _ ?_).trans ?_) | (with_reducible refine (kept_foldl_fst _ _ _ ?_).trans ?_) | split | (intro _ _) | simp only [*] | simp [*] | simp +zetaDelta [*] | (simp_all +zetaDelta [State.kept, -kept_eta]; done))

@[simp ↓] theorem hierEvent_kept (s : State) (code serial : Nat) : (State.hierEvent s code serial).kept = s.kept := by
  simp [State.hierEvent]

@[simp ↓] theorem orphan_kept (s : State) : (State.orphan s).kept = s.kept := by
  unfold State.orphan
  iterate 24 (all_goals try first | with_reducible rfl | with_reducible assumption | (fail_if_no_progress extract_lets -underBinder +onlyGivenNames x; first | (refine kept_via ?_ ?_ (fun hx => ?_) <;> [(with_reducible apply x; done); (dsimp -zeta only [x]; clear x); (clear_value x)]) | (refine kept_via ?_ ?_ (fun hx => ?_) <;> [(with_reducible apply Prod.fst x; done); (dsimp -zeta only [x]; clear x); (clear_value x)]) | skip) | (with_reducible refine (kept_foldl _ _ _ ?_).trans ?_) | (with_reducible refine (kept_foldl_fst _ _ _ ?_).trans ?_) | split | (intro _ _) | simp only [*] | simp [*] | simp +zetaDelta [*] | (simp_all +zetaDelta [State.kept, -kept_eta]; done))

@[simp ↓] theorem peerLost_kept (s : State) (m : Nat) : (State.peerLost s m).kept = s.kept := by
  unfold State.peerLost
  iterate 24 (all_goals try first | with_reducible rfl | with_reducible assumption | (fail_if_no_progress extract_lets -underBinder +onlyGivenNames x; first | (refine kept_via ?_ ?_ (fun hx => ?_) <;> [(with_reducible apply x; done); (dsimp -zeta only [x]; clear x); (clear_value x)]) | (refine kept_via ?_ ?_ (fun hx => ?_) <;> [(with_reducible apply Prod.fst x; done); (dsimp -zeta only [x]; clear x); (clear_value x)]) | (clear_value x)) | (with_reducible refine (kept_foldl _ _ _ ?_).trans ?_) | (with_reducible refine (kept_foldl_fst _ _ _ ?_).trans ?_) | split | (intro _ _) | simp only [*] | simp [*] | simp +zetaDelta [*] | (simp_all +zetaDelta [State.kept, -kept_eta]; done))

@[simp ↓] theorem tpPeerLost_kept (s : State) (t cause : Nat) : (State.tpPeerLost s t cause).kept = s.kept := by
  simp [State.tpPeerLost]

@[simp ↓] theorem tpHold_kept (s : State) (t cause : Nat) : (State.tpHold s t cause).kept = s.kept := by
  simp [State.tpHold]

@[simp ↓] theorem endTxn_kept (s : State) (t : Txn) : (State.endTxn s t).kept = s.kept := by
  simp [State.endTxn]

@[simp ↓] theorem stopSlice_kept (s : State) (ks : Nat) : (State.stopSlice s ks).kept = s.kept := by
  unfold State.stopSlice
  repeat' (first | with_reducible rfl | (simp; done) | (refine (kept_foldl _ _ _ ?_).trans ?_) | (intro _ _) | split | simp)

@[simp ↓] theorem resetSlice56_kept (s : State) (ks : Nat) : (State.resetSlice56 s ks).kept = s.kept := by
  unfold State.resetSlice56
  repeat' (first | with_reducible rfl | (simp; done) | (refine (kept_foldl _ _ _ ?_).trans ?_) | (intro _ _) | split | simp)

@[simp ↓] theorem arbEmpty_kept (s : State) (p : Nat) : (State.arbEmpty s p).kept = s.kept := by
  rfl

@[simp ↓] theorem arbReset_kept (s : State) (p : Nat) : (State.arbReset s p).kept = s.kept := by
  rfl

@[simp ↓] theorem arbResetDone_kept (s : State) (p : Nat) : (State.arbResetDone s p).kept = s.kept := by
  rfl

@[simp ↓] theorem arbIsolate_kept (s : State) (p : Nat) : (State.arbIsolate s p).kept = s.kept := by
  rfl

@[simp ↓] theorem portDrops_kept (s : State) (p cause : Nat) : (State.portDrops s p cause).kept = s.kept := by
  simp [State.portDrops]

@[simp ↓] theorem quadOut_kept (s : State) (k : Nat) : (State.quadOut s k).kept = s.kept := by
  unfold State.quadOut
  iterate 24 (all_goals try first | with_reducible rfl | with_reducible assumption | (fail_if_no_progress extract_lets -underBinder +onlyGivenNames x; first | (refine kept_via ?_ ?_ (fun hx => ?_) <;> [(with_reducible apply x; done); (dsimp -zeta only [x]; clear x); (clear_value x)]) | (refine kept_via ?_ ?_ (fun hx => ?_) <;> [(with_reducible apply Prod.fst x; done); (dsimp -zeta only [x]; clear x); (clear_value x)]) | (clear_value x)) | (with_reducible refine (kept_foldl _ _ _ ?_).trans ?_) | (with_reducible refine (kept_foldl_fst _ _ _ ?_).trans ?_) | split | (intro _ _) | simp only [*] | simp [*] | simp +zetaDelta [*] | (simp_all +zetaDelta [State.kept, -kept_eta]; done))

@[simp ↓] theorem gateQuad_kept (s : State) (k : Nat) : (State.gateQuad s k).kept = s.kept := by
  exact (engineCheck_kept _ _).trans ((kept_svc _ _).trans (quadOut_kept s k))

end Sys2Proof.Machine
end

