-- ==== Sys2Proof/Laws/KeptShaper.lean ====
section
/-! SUPPORT. What the operations of Machine/Shaper.lean keep. -/
namespace Sys2Proof.Machine

@[simp ↓] theorem putBucket_kept (s : State) (k : Bool × Nat) (b : Bucket) : (State.putBucket s k b).kept = s.kept := by
  simp [State.putBucket]

@[simp ↓] theorem deduct_kept (s : State) (ks : List (Bool × Nat)) (n : Nat) : (State.deduct s ks n).kept = s.kept := by
  unfold State.deduct
  exact kept_foldl _ _ _ (fun _ _ => by simp)

@[simp ↓] theorem charge_kept (s : State) (sl : Option Nat) (point dir bytes : Nat) (w : Work) : (State.charge s sl point dir bytes w).1.kept = s.kept := by
  unfold State.charge
  repeat' (first | with_reducible rfl | (simp; done) | (refine (kept_foldl _ _ _ ?_).trans ?_) | (intro _ _) | split | simp)

end Sys2Proof.Machine
end

