-- ==== Sys2Proof/Laws/KeptTrunkTx.lean ====
section
/-! SUPPORT. What the operations of Machine/TrunkTx.lean keep. -/
namespace Sys2Proof.Machine

@[simp ↓] theorem sendMarker_kept (s : State) (t : Nat) : (State.sendMarker s t).kept = s.kept := by
  rfl

@[simp ↓] theorem wakeTx_kept (s : State) (t : Nat) : (State.wakeTx s t).kept = s.kept := by
  simp [State.wakeTx]

@[simp ↓] theorem sendFlit_kept (s : State) (t seq : Nat) (m : TrunkMsg) : (State.sendFlit s t seq m).kept = s.kept := by
  rfl

@[simp ↓] theorem blkLeaves_kept (s : State) (point line : Nat) : (State.blkLeaves s point line).kept = s.kept := by
  unfold State.blkLeaves; split <;> simp

@[simp ↓] theorem startMsg_kept (s : State) (t : Nat) (m : TrunkMsg) : (State.startMsg s t m).kept = s.kept := by
  simp [State.startMsg]

@[simp ↓] theorem pumpPort_kept (s : State) (t fuel : Nat) : (State.pumpPort s t fuel).kept = s.kept := by
  induction fuel generalizing s with
  | zero => rfl
  | succ n ih =>
    unfold State.pumpPort
    split
    · split
      · simp [ih]
      · rfl
    · rfl

@[simp ↓] theorem creditsBack_kept (s : State) : (State.creditsBack s).kept = s.kept := by
  unfold State.creditsBack
  exact kept_foldl _ _ _ (fun _ _ => by simp)

@[simp ↓] theorem pump_kept (s : State) : (State.pump s).kept = s.kept := by
  unfold State.pump
  exact kept_foldl _ _ _ (fun _ _ => by simp)

@[simp ↓] theorem rewind_kept (s : State) (t seq : Nat) : (State.rewind s t seq).kept = s.kept := by
  unfold State.rewind
  repeat' (first | with_reducible rfl | (simp; done) | (refine (kept_foldl _ _ _ ?_).trans ?_) | (intro _ _) | split | simp)

end Sys2Proof.Machine
end

