-- ==== Sys2Proof/Laws/KeptArrive.lean ====
section
/-! SUPPORT. What the operations of Machine/Arrive.lean keep. -/
namespace Sys2Proof.Machine

@[simp ↓] theorem arbGive_kept (s : State) (p : Nat) (x : Pend) : (State.arbGive s p x).kept = s.kept := by
  simp [State.arbGive]

@[simp ↓] theorem blkTaken_kept (s : State) (p line : Nat) : (State.blkTaken s p line).kept = s.kept := by
  unfold State.blkTaken; split <;> simp

@[simp ↓] theorem accSent_kept (s : State) (req : Nat) (x : Access) : (State.accSent s req x).kept = s.kept := by
  simp [State.accSent]

@[simp ↓] theorem handOff_kept (s : State) (p : Nat) : (State.handOff s p).kept = s.kept := by
  unfold State.handOff
  repeat' (first | with_reducible rfl | (simp; done) | (refine (kept_foldl _ _ _ ?_).trans ?_) | (intro _ _) | split | simp)

@[simp ↓] theorem l1Hold_kept (s : State) (p : Nat) : (State.l1Hold s p).kept = s.kept := by
  simp [State.l1Hold]

@[simp ↓] theorem arbAsk_kept (s : State) (p : Nat) (x : Pend) : (State.arbAsk s p x).kept = s.kept := by
  simp [State.arbAsk]

@[simp ↓] theorem pendGone_kept (s : State) (p : Nat) (x : Pend) : (State.pendGone s p x).kept = s.kept := by
  unfold State.pendGone; split <;> simp

@[simp ↓] theorem maskNow_kept (s : State) (p : Nat) (keep : Bool) : (State.maskNow s p keep).kept = s.kept := by
  unfold State.maskNow
  exact kept_foldl _ _ _ (fun _ _ => by simp)

@[simp ↓] theorem sideUp_kept (s : State) (p req : Nat) : (State.sideUp s p req).kept = s.kept := by
  simp [State.sideUp]

@[simp ↓] theorem sideDown_kept (s : State) (p req : Nat) : (State.sideDown s p req).kept = s.kept := by
  rfl

@[simp ↓] theorem sidebands_kept (s : State) : (State.sidebands s).kept = s.kept := by
  unfold State.sidebands
  iterate 24 (all_goals try first | with_reducible rfl | with_reducible assumption | (fail_if_no_progress extract_lets -underBinder +onlyGivenNames x; first | (refine kept_via ?_ ?_ (fun hx => ?_) <;> [(with_reducible apply x; done); (dsimp -zeta only [x]; clear x); (clear_value x)]) | (refine kept_via ?_ ?_ (fun hx => ?_) <;> [(with_reducible apply Prod.fst x; done); (dsimp -zeta only [x]; clear x); (clear_value x)]) | (clear_value x)) | (with_reducible refine (kept_foldl _ _ _ ?_).trans ?_) | (with_reducible refine (kept_foldl_fst _ _ _ ?_).trans ?_) | split | (intro _ _) | simp only [*] | simp [*] | simp +zetaDelta [*] | (simp_all +zetaDelta [State.kept, -kept_eta]; done))

@[simp ↓] theorem reqTaken_kept (s : State) (q : QReq) : (State.reqTaken s q).kept = s.kept := by
  simp [State.reqTaken]

@[simp ↓] theorem snpTaken_kept (s : State) (k : SnpKind) (m : MsgOp) : (State.snpTaken s k m).kept = s.kept := by
  unfold State.snpTaken; split <;> simp

@[simp ↓] theorem cmpTaken_kept (s : State) (m : MsgOp) : (State.cmpTaken s m).kept = s.kept := by
  unfold State.cmpTaken
  repeat' (first | with_reducible rfl | (simp; done) | (refine (kept_foldl _ _ _ ?_).trans ?_) | (intro _ _) | split | simp)

@[simp ↓] theorem cmpPoisonTaken_kept (s : State) (m : MsgOp) : (State.cmpPoisonTaken s m).kept = s.kept := by
  unfold State.cmpPoisonTaken; split <;> simp

@[simp ↓] theorem datTaken_kept (s : State) (opc : Nat) (g : Grant) (m : MsgOp) : (State.datTaken s opc g m).kept = s.kept := by
  unfold State.datTaken
  repeat' (first | with_reducible rfl | (simp; done) | (refine (kept_foldl _ _ _ ?_).trans ?_) | (intro _ _) | split | simp)

@[simp ↓] theorem rxTaken_kept (s : State) (m : TrunkMsg) : (State.rxTaken s m).kept = s.kept := by
  unfold State.rxTaken; split <;> simp

@[simp ↓] theorem burstWhole_kept (s : State) (b : Blk) : (State.burstWhole s b).kept = s.kept := by
  rfl

@[simp ↓] theorem bulkIn_kept (s : State) (c : Cell) : (State.bulkIn s c).kept = s.kept := by
  unfold State.bulkIn; split <;> simp

@[simp ↓] theorem spillCell_kept (s : State) (d : Nat) (x : Access) : (State.spillCell s d x).kept = s.kept := by
  rfl

@[simp ↓] theorem spillIn_kept (s : State) (c : Cell) (b : Blk) : (State.spillIn s c b).kept = s.kept := by
  simp [State.spillIn]

@[simp ↓] theorem blkArrives_kept (s : State) (c0 : Cell) (b0 : Blk) : (State.blkArrives s c0 b0).kept = s.kept := by
  simp [State.blkArrives]

@[simp ↓] theorem spillDrain_kept (s : State) (point fuel : Nat) : (State.spillDrain s point fuel).kept = s.kept := by
  induction fuel generalizing s with
  | zero => rfl
  | succ n ih =>
    unfold State.spillDrain
    split
    · split
      · exact (ih _).trans (by simp)
      · rfl
    · rfl

@[simp ↓] theorem spillRead_kept (s : State) (d slot : Nat) (psn : Bool) : (State.spillRead s d slot psn).kept = s.kept := by
  unfold State.spillRead; split <;> simp

@[simp ↓] theorem relLost_kept (s : State) (r : Rel) : (State.relLost s r).kept = s.kept := by
  unfold State.relLost
  repeat' (first | with_reducible rfl | (simp; done) | (refine (kept_foldl _ _ _ ?_).trans ?_) | (intro _ _) | split | simp)

@[simp ↓] theorem relOne_kept (s : State) (r : Rel) : (State.relOne s r).kept = s.kept := by
  unfold State.relOne
  repeat' (first | with_reducible rfl | (simp; done) | (refine (kept_foldl _ _ _ ?_).trans ?_) | (intro _ _) | split | simp)

@[simp ↓] theorem relGo_kept (s : State) : (State.relGo s).kept = s.kept := by
  unfold State.relGo
  exact kept_foldl _ _ _ (fun _ _ => by simp)

@[simp ↓] theorem deliver_kept (s : State) (c : Cell) : (State.deliver s c).kept = s.kept := by
  unfold State.deliver
  repeat' (first | with_reducible rfl | (simp; done) | (refine (kept_foldl _ _ _ ?_).trans ?_) | (intro _ _) | split | simp)

@[simp ↓] theorem releaseCell_kept (s : State) (c : Cell) : (State.releaseCell s c).kept = s.kept := by
  unfold State.releaseCell
  repeat' (first | with_reducible rfl | (simp; done) | (refine (kept_foldl _ _ _ ?_).trans ?_) | (intro _ _) | split | simp)

@[simp ↓] theorem release_kept (s : State) (f fuel : Nat) : (State.release s f fuel).kept = s.kept := by
  induction fuel generalizing s with
  | zero => rfl
  | succ n ih =>
    unfold State.release
    split
    · rfl
    · exact (ih _).trans ((releaseCell_kept _ _).trans rfl)

@[simp ↓] theorem cellArrives_kept (s : State) (c : Cell) : (State.cellArrives s c).kept = s.kept := by
  unfold State.cellArrives; split <;> simp

@[simp ↓] theorem flyDue_kept (s : State) : (State.flyDue s).kept = s.kept := by
  unfold State.flyDue
  iterate 24 (all_goals try first | with_reducible rfl | with_reducible assumption | (fail_if_no_progress extract_lets -underBinder +onlyGivenNames x; first | (refine kept_via ?_ ?_ (fun hx => ?_) <;> [(with_reducible apply x; done); (dsimp -zeta only [x]; clear x); (clear_value x)]) | (refine kept_via ?_ ?_ (fun hx => ?_) <;> [(with_reducible apply Prod.fst x; done); (dsimp -zeta only [x]; clear x); (clear_value x)]) | (clear_value x)) | (with_reducible refine (kept_foldl _ _ _ ?_).trans ?_) | (with_reducible refine (kept_foldl_fst _ _ _ ?_).trans ?_) | split | (intro _ _) | simp only [*] | simp [*] | simp +zetaDelta [*] | (simp_all +zetaDelta [State.kept, -kept_eta]; done))

@[simp ↓] theorem cellCrosses_kept (s : State) (plane : Nat) (c : Cell) : (State.cellCrosses s plane c).kept = s.kept := by
  simp [State.cellCrosses]

@[simp ↓] theorem planeSlot_kept (s : State) (plane : Nat) : (State.planeSlot s plane).kept = s.kept := by
  unfold State.planeSlot
  repeat' (first | with_reducible rfl | (simp; done) | (refine (kept_foldl _ _ _ ?_).trans ?_) | (intro _ _) | split | simp)

@[simp ↓] theorem cellSlot_kept (s : State) : (State.cellSlot s).kept = s.kept := by
  unfold State.cellSlot
  exact kept_foldl _ _ _ (fun _ _ => by simp)

@[simp ↓] theorem slots_kept (s : State) (fuel : Nat) : (State.slots s fuel).kept = s.kept := by
  induction fuel generalizing s with
  | zero => rfl
  | succ n ih =>
    unfold State.slots
    dsimp only
    split
    · simp
    · exact (ih _).trans (by simp)

@[simp ↓] theorem backToQ0_kept (s : State) : (State.backToQ0 s).kept = s.kept := by
  simp [State.backToQ0]

@[simp ↓] theorem carveFree_kept (s : State) : (State.carveFree s).kept = s.kept := by
  unfold State.carveFree
  repeat' (first | with_reducible rfl | (simp; done) | (refine (kept_foldl _ _ _ ?_).trans ?_) | (intro _ _) | split | simp)

@[simp ↓] theorem tumble_kept (s : State) : (State.tumble s).kept = s.kept := by
  simp [State.tumble]

end Sys2Proof.Machine
end

