-- ==== Sys2Proof/Laws/KeptActions.lean ====
section
/-! SUPPORT. What the operations of Machine/Actions.lean keep. -/
namespace Sys2Proof.Machine

@[simp ↓] theorem resetTrunks_kept (s : State) : (State.resetTrunks s).kept = s.kept := by
  unfold State.resetTrunks
  exact kept_foldl _ _ _ (fun _ _ => by simp)

@[simp ↓] theorem diesReset_kept (s : State) (all : Bool) : (State.diesReset s all).kept = s.kept := by
  simp [State.diesReset]

@[simp ↓] theorem stopModule_kept (s : State) (cause : Nat) : (State.stopModule s cause).kept = s.kept := by
  simp [State.stopModule]

@[simp ↓] theorem stopDie_kept (s : State) (d : Nat) : (State.stopDie s d).kept = s.kept := by
  unfold State.stopDie
  repeat' (first | with_reducible rfl | (simp; done) | (refine (kept_foldl _ _ _ ?_).trans ?_) | (intro _ _) | split | simp)

@[simp ↓] theorem retrain_kept (s : State) (p w : Nat) : (State.retrain s p w).kept = s.kept := by
  simp [State.retrain]

@[simp ↓] theorem isolate_kept (s : State) (l : Loc) : (State.isolate s l).kept = s.kept := by
  unfold State.isolate
  repeat' (first | with_reducible rfl | (simp; done) | (refine (kept_foldl _ _ _ ?_).trans ?_) | (intro _ _) | split | simp)

@[simp ↓] theorem fenceAt_kept (s : State) (l : Loc) : (State.fenceAt s l).kept = s.kept := by
  unfold State.fenceAt
  repeat' (first | with_reducible rfl | (simp; done) | (refine (kept_foldl _ _ _ ?_).trans ?_) | (intro _ _) | split | simp)

@[simp ↓] theorem resetClusterAt_kept (s : State) (l : Loc) (reaction : Bool) : (State.resetClusterAt s l reaction).kept = s.kept := by
  unfold State.resetClusterAt
  iterate 24 (all_goals try first | with_reducible rfl | with_reducible assumption | (fail_if_no_progress extract_lets -underBinder +onlyGivenNames x; first | (refine kept_via ?_ ?_ (fun hx => ?_) <;> [(with_reducible apply x; done); (dsimp -zeta only [x]; clear x); (clear_value x)]) | (refine kept_via ?_ ?_ (fun hx => ?_) <;> [(with_reducible apply Prod.fst x; done); (dsimp -zeta only [x]; clear x); (clear_value x)]) | (clear_value x)) | (with_reducible refine (kept_foldl _ _ _ ?_).trans ?_) | (with_reducible refine (kept_foldl_fst _ _ _ ?_).trans ?_) | split | (intro _ _) | simp only [*] | simp [*] | simp +zetaDelta [*] | (simp_all +zetaDelta [State.kept, -kept_eta]; done))

@[simp ↓] theorem act_kept (s0 : State) (a : Nat) (l : Loc) (c : Nat) : (State.act s0 a l c).kept = s0.kept := by
  unfold State.act; split <;> simp

@[simp ↓] theorem settleN_kept (s : State) (fuel : Nat) : (State.settleN s fuel).kept = s.kept := by
  induction fuel generalizing s with
  | zero => rfl
  | succ n ih =>
    unfold State.settleN
    split
    · rfl
    · simp [ih]

@[simp ↓] theorem harvestBegin_kept (s : State) (h : Harvest) : (State.harvestBegin s h).1.kept = s.kept := by
  unfold State.harvestBegin
  repeat' (first | with_reducible rfl | (simp; done) | (refine (kept_foldl _ _ _ ?_).trans ?_) | (intro _ _) | split | simp)

@[simp ↓] theorem harvestOne_kept (s : State) (h : Harvest) : (State.harvestOne s h).kept = s.kept := by
  unfold State.harvestOne
  repeat' (first | with_reducible rfl | (simp; done) | (refine (kept_foldl _ _ _ ?_).trans ?_) | (intro _ _) | split | simp)

@[simp ↓] theorem harvestGo_kept (s : State) : (State.harvestGo s).kept = s.kept := by
  unfold State.harvestGo
  exact kept_foldl _ _ _ (fun _ _ => by simp)

@[simp ↓] theorem clkreqs_kept (s : State) : (State.clkreqs s).kept = s.kept := by
  unfold State.clkreqs
  exact kept_foldl _ _ _ (fun _ _ => by simp)

@[simp ↓] theorem rounds_kept (s : State) (fuel : Nat) : (State.rounds s fuel).kept = s.kept := by
  induction fuel generalizing s with
  | zero => rfl
  | succ n ih =>
    unfold State.rounds
    dsimp only
    split
    · simp
    · exact (ih _).trans (by simp)

@[simp ↓] theorem settle_kept (s : State) : (State.settle s).kept = s.kept := by
  simp [State.settle]

end Sys2Proof.Machine
end

