-- ==== Sys2Proof/Laws/KeptMailbox.lean ====
section
/-! SUPPORT. What the operations of Machine/Mailbox.lean keep. -/
namespace Sys2Proof.Machine

@[simp ↓] theorem modSession_kept (s : State) (sid : Nat) (f : Session → Session) : (State.modSession s sid f).kept = s.kept := by
  rfl

@[simp ↓] theorem dropSession_kept (s : State) (sid : Nat) : (State.dropSession s sid).kept = s.kept := by
  rfl

end Sys2Proof.Machine
end

