-- ==== Sys2Proof/Laws/KeptPartner.lean ====
section
/-! SUPPORT. What the operations of Machine/Partner.lean keep. -/
namespace Sys2Proof.Machine

@[simp ↓] theorem partnerSet_kept (s : State) (port : Nat) (timer snoop : Option Nat) (autoAdd : Option Bool) : (State.partnerSet s port timer snoop autoAdd).kept = s.kept := by
  rfl

@[simp ↓] theorem expire_kept (s : State) (p : Nat) : (State.expire s p).kept = s.kept := by
  simp [State.expire]

@[simp ↓] theorem evacNext_kept (s : State) (v : Evac) : (State.evacNext s v).kept = s.kept := by
  unfold State.evacNext
  repeat' (first | with_reducible rfl | (simp; done) | (refine (kept_foldl _ _ _ ?_).trans ?_) | (intro _ _) | split | simp)

@[simp ↓] theorem evacRestart_kept (s : State) (port : Nat) : (State.evacRestart s port).kept = s.kept := by
  unfold State.evacRestart; split <;> simp

end Sys2Proof.Machine
end

