-- ==== Sys2Proof/Laws/KeptBind.lean ====
section
/-! SUPPORT. What the operations of Machine/Bind.lean keep. -/
namespace Sys2Proof.Machine

@[simp ↓] theorem homeBind_kept (s : State) (es : List Nat) : (State.homeBind s es).kept = s.kept := by
  unfold State.homeBind
  exact kept_foldl _ _ _ (fun _ _ => by simp)

@[simp ↓] theorem bindPend_kept (s : State) (h : Nat) (bs : List BindReq) : (State.bindPend s h bs).1.kept = s.kept := by
  unfold State.bindPend
  iterate 24 (all_goals try first | with_reducible rfl | with_reducible assumption | (fail_if_no_progress extract_lets -underBinder +onlyGivenNames x; first | (refine kept_via ?_ ?_ (fun hx => ?_) <;> [(with_reducible apply x; done); (dsimp -zeta only [x]; clear x); (clear_value x)]) | (refine kept_via ?_ ?_ (fun hx => ?_) <;> [(with_reducible apply Prod.fst x; done); (dsimp -zeta only [x]; clear x); (clear_value x)]) | skip) | (with_reducible refine (kept_foldl _ _ _ ?_).trans ?_) | (with_reducible refine (kept_foldl_fst _ _ _ ?_).trans ?_) | split | (intro _ _) | simp only [*] | simp [*] | simp +zetaDelta [*] | (simp_all +zetaDelta [State.kept, -kept_eta]; done))

@[simp ↓] theorem dcDecline_kept (s : State) (h n reason : Nat) : (State.dcDecline s h n reason).kept = s.kept := by
  unfold State.dcDecline; split <;> simp

@[simp ↓] theorem dcAccept_kept (s : State) (h n : Nat) : (State.dcAccept s h n).kept = s.kept := by
  unfold State.dcAccept; split <;> simp

@[simp ↓] theorem toMembers_kept (s : State) (kind idx serial : Nat) : (State.toMembers s kind idx serial).kept = s.kept := by
  unfold State.toMembers
  exact kept_foldl _ _ _ (fun _ _ => by simp)

end Sys2Proof.Machine
end

