-- ==== Sys2Proof/Laws/KeptBring.lean ====
section
/-! SUPPORT. What the operations of Machine/Bring.lean keep. -/
namespace Sys2Proof.Machine

@[simp ↓] theorem leaveDeep_kept (s : State) (g : Nat) : (State.leaveDeep s g).kept = s.kept := by
  unfold State.leaveDeep
  repeat' (first | with_reducible rfl | (simp; done) | (refine (kept_foldl _ _ _ ?_).trans ?_) | (intro _ _) | split | simp)

@[simp ↓] theorem startGroup_kept (s : State) (g : Nat) : (State.startGroup s g).kept = s.kept := by
  unfold State.startGroup; split <;> simp

@[simp ↓] theorem startPorts_kept (s : State) : (State.startPorts s).kept = s.kept := by
  unfold State.startPorts
  exact kept_foldl _ _ _ (fun _ _ => by simp)

@[simp ↓] theorem enterReady_kept (s : State) : (State.enterReady s).kept = s.kept := by
  unfold State.enterReady
  exact kept_foldl _ _ _ (fun _ _ => by simp)

@[simp ↓] theorem tpStart_kept (s : State) (t : Nat) : (State.tpStart s t).kept = s.kept := by
  simp [State.tpStart]

@[simp ↓] theorem enterActive_kept (s : State) : (State.enterActive s).kept = s.kept := by
  unfold State.enterActive
  repeat' (first | with_reducible rfl | (simp; done) | (refine (kept_foldl _ _ _ ?_).trans ?_) | (intro _ _) | split | simp)

@[simp ↓] theorem toGoal_kept (s : State) : (State.toGoal s).kept = s.kept := by
  unfold State.toGoal; split <;> simp

@[simp ↓] theorem forgetAgent_kept (s : State) (a : Agent) : (State.forgetAgent s a).kept = s.kept := by
  unfold State.forgetAgent
  repeat' (first | with_reducible rfl | (simp; done) | (refine (kept_foldl _ _ _ ?_).trans ?_) | (intro _ _) | split | simp)

@[simp ↓] theorem departPlanned_kept (s : State) (p : Nat) : (State.departPlanned s p).kept = s.kept := by
  unfold State.departPlanned
  repeat' (first | with_reducible rfl | (simp; done) | (refine (kept_foldl _ _ _ ?_).trans ?_) | (intro _ _) | split | simp)

@[simp ↓] theorem departBy_kept (s : State) (p : Nat) : (State.departBy s p).kept = s.kept := by
  simp [State.departBy]

end Sys2Proof.Machine
end

