-- ==== Sys2Proof/Laws/KeptFw.lean ====
section
/-! SUPPORT. What the operations of Machine/Fw.lean keep. -/
namespace Sys2Proof.Machine

@[simp ↓] theorem opsCut_kept (s : State) : (State.opsCut s).kept = s.kept := by
  rfl

end Sys2Proof.Machine
end

