-- ==== Sys2Proof/Laws/KeptResets.lean ====
section
/-! SUPPORT. What the operations of Machine/Resets.lean keep. -/
namespace Sys2Proof.Machine

@[simp ↓] theorem writeBack_kept (s : State) : (State.writeBack s).kept = s.kept := by
  unfold State.writeBack
  repeat' (first | with_reducible rfl | (simp; done) | (refine (kept_foldl _ _ _ ?_).trans ?_) | (intro _ _) | split | simp)

@[simp ↓] theorem mrTrigger_kept (s : State) (reload : Bool) : (State.mrTrigger s reload).kept = s.kept := by
  unfold State.mrTrigger
  iterate 24 (all_goals try first | with_reducible rfl | with_reducible assumption | (fail_if_no_progress extract_lets -underBinder +onlyGivenNames x; first | (refine kept_via ?_ ?_ (fun hx => ?_) <;> [(with_reducible apply x; done); (dsimp -zeta only [x]; clear x); (clear_value x)]) | (refine kept_via ?_ ?_ (fun hx => ?_) <;> [(with_reducible apply Prod.fst x; done); (dsimp -zeta only [x]; clear x); (clear_value x)]) | skip) | (with_reducible refine (kept_foldl _ _ _ ?_).trans ?_) | (with_reducible refine (kept_foldl_fst _ _ _ ?_).trans ?_) | split | (intro _ _) | simp only [*] | simp [*] | simp +zetaDelta [*] | (simp_all +zetaDelta [State.kept, -kept_eta]; done))

@[simp ↓] theorem aliveOn_kept (s : State) : (State.aliveOn s).kept = s.kept := by
  simp [State.aliveOn]

@[simp ↓] theorem flipAbort_kept (s : State) : (State.flipAbort s).kept = s.kept := by
  unfold State.flipAbort
  repeat' (first | with_reducible rfl | (simp; done) | (refine (kept_foldl _ _ _ ?_).trans ?_) | (intro _ _) | split | simp)

@[simp ↓] theorem wardRefuse_kept (s : State) : (State.wardRefuse s).kept = s.kept := by
  simp [State.wardRefuse]

@[simp ↓] theorem resetBegin_kept (s : State) (l : Loc) : (State.resetBegin s l).kept = s.kept := by
  unfold State.resetBegin
  iterate 24 (all_goals try first | with_reducible rfl | with_reducible assumption | (fail_if_no_progress extract_lets -underBinder +onlyGivenNames x; first | (refine kept_via ?_ ?_ (fun hx => ?_) <;> [(with_reducible apply x; done); (dsimp -zeta only [x]; clear x); (clear_value x)]) | (refine kept_via ?_ ?_ (fun hx => ?_) <;> [(with_reducible apply Prod.fst x; done); (dsimp -zeta only [x]; clear x); (clear_value x)]) | (clear_value x)) | (with_reducible refine (kept_foldl _ _ _ ?_).trans ?_) | (with_reducible refine (kept_foldl_fst _ _ _ ?_).trans ?_) | split | (intro _ _) | simp only [*] | simp [*] | simp +zetaDelta [*] | (simp_all +zetaDelta [State.kept, -kept_eta]; done))

@[simp ↓] theorem bucketsInit_kept (s : State) (ks : List Nat) : (State.bucketsInit s ks).kept = s.kept := by
  rfl

@[simp ↓] theorem smpDrop_kept (s : State) (l : Loc) : (State.smpDrop s l).kept = s.kept := by
  rfl

@[simp ↓] theorem resetFinish_kept (s : State) (kind : Nat) (l : Loc) : (State.resetFinish s kind l).kept = s.kept := by
  unfold State.resetFinish
  repeat' (first | with_reducible rfl | (simp; done) | (refine (kept_foldl _ _ _ ?_).trans ?_) | (intro _ _) | split | simp)

end Sys2Proof.Machine
end

