-- ==== Sys2Proof/Laws/KeptPortCmd.lean ====
section
/-! SUPPORT. What the operations of Machine/PortCmd.lean keep. -/
namespace Sys2Proof.Machine

@[simp ↓] theorem portFresh_kept (s : State) (p : Nat) : (State.portFresh s p).kept = s.kept := by
  rfl

@[simp ↓] theorem mapCommit_kept (s : State) (m : Tbl Reg32) : (State.mapCommit s m).kept = s.kept := by
  unfold State.mapCommit
  repeat' (first | with_reducible rfl | (simp; done) | (refine (kept_foldl _ _ _ ?_).trans ?_) | (intro _ _) | split | simp)

@[simp ↓] theorem portDisable_kept (s : State) (p : Nat) : (State.portDisable s p).kept = s.kept := by
  unfold State.portDisable; split <;> simp

@[simp ↓] theorem portSet_kept (s : State) (p : Nat) (dsCpl dsFail usCpl : Option Nat) (aspm l0p contain : Option Bool) : (State.portSet s p dsCpl dsFail usCpl aspm l0p contain).kept = s.kept := by
  rfl

@[simp ↓] theorem eqSet_kept (s : State) (l : Loc) (whole : Bool) (v : Reg32) : (State.eqSet s l whole v).kept = s.kept := by
  unfold State.eqSet
  split
  · exact kept_foldl _ _ _ (fun _ _ => kept_ports _ _)
  · exact kept_foldl _ _ _ (fun _ _ => kept_ports _ _)

@[simp ↓] theorem portReset_kept (s : State) (p : Nat) : (State.portReset s p).kept = s.kept := by
  unfold State.portReset; split <;> simp

@[simp ↓] theorem arbCtl_kept (s : State) (p v : Nat) : (State.arbCtl s p v).kept = s.kept := by
  simp [State.arbCtl]

@[simp ↓] theorem tpDisable_kept (s : State) (t : Nat) : (State.tpDisable s t).kept = s.kept := by
  simp [State.tpDisable]

@[simp ↓] theorem tpEnable_kept (s : State) (t : Nat) : (State.tpEnable s t).kept = s.kept := by
  simp [State.tpEnable]

@[simp ↓] theorem tpCtl_kept (s : State) (t v : Nat) : (State.tpCtl s t v).kept = s.kept := by
  simp [State.tpCtl]

@[simp ↓] theorem blockWrite_kept (s : State) (l : Loc) (reg v : Nat) : (State.blockWrite s l reg v).kept = s.kept := by
  unfold State.blockWrite
  repeat' (first | with_reducible rfl | (simp; done) | (refine (kept_foldl _ _ _ ?_).trans ?_) | (intro _ _) | split | simp)

end Sys2Proof.Machine
end

