-- ==== Sys2Proof/Laws/KeptPoolCmd.lean ====
section
/-! SUPPORT. What the operations of Machine/PoolCmd.lean keep. -/
namespace Sys2Proof.Machine

@[simp ↓] theorem addCapacity_kept (s : State) (port : Nat) (cmd : Bool) : (State.addCapacity s port cmd).kept = s.kept := by
  unfold State.addCapacity
  repeat' (first | with_reducible rfl | (simp; done) | (refine (kept_foldl _ _ _ ?_).trans ?_) | (intro _ _) | split | simp)

@[simp ↓] theorem addStep_kept (s : State) (a : Nat × List Nat × Bool) : (State.addStep s a).kept = s.kept := by
  unfold State.addStep
  iterate 24 (all_goals try first | with_reducible rfl | with_reducible assumption | (fail_if_no_progress extract_lets -underBinder +onlyGivenNames x; first | (refine kept_via ?_ ?_ (fun hx => ?_) <;> [(with_reducible apply x; done); (dsimp -zeta only [x]; clear x); (clear_value x)]) | (refine kept_via ?_ ?_ (fun hx => ?_) <;> [(with_reducible apply Prod.fst x; done); (dsimp -zeta only [x]; clear x); (clear_value x)]) | (clear_value x)) | (with_reducible refine (kept_foldl _ _ _ ?_).trans ?_) | (with_reducible refine (kept_foldl_fst _ _ _ ?_).trans ?_) | split | (intro _ _) | simp only [*] | simp [*] | simp +zetaDelta [*] | (simp_all +zetaDelta [State.kept, -kept_eta]; done))

@[simp ↓] theorem markReserved_kept (s : State) (es : List Nat) : (State.markReserved s es).kept = s.kept := by
  unfold State.markReserved
  exact kept_foldl _ _ _ (fun _ _ => by simp)

end Sys2Proof.Machine
end

