-- ==== Sys2Proof/Laws/KeptPortEvt.lean ====
section
/-! SUPPORT. What the operations of Machine/PortEvt.lean keep. -/
namespace Sys2Proof.Machine

@[simp ↓] theorem addSlice_kept (s : State) (host pasid : Nat) : (State.addSlice s host pasid).kept = s.kept := by
  unfold State.addSlice; split <;> simp

@[simp ↓] theorem unfence_kept (s : State) (p : Nat) : (State.unfence s p).kept = s.kept := by
  rfl

@[simp ↓] theorem arriveNew_kept (s : State) (p : Nat) (i : PartnerId) : (State.arriveNew s p i).kept = s.kept := by
  unfold State.arriveNew
  repeat' (first | with_reducible rfl | (simp; done) | (refine (kept_foldl _ _ _ ?_).trans ?_) | (intro _ _) | split | simp)

@[simp ↓] theorem storedApply_kept (s : State) (h : Nat) : (State.storedApply s h).kept = s.kept := by
  unfold State.storedApply
  repeat' (first | with_reducible rfl | (simp; done) | (refine (kept_foldl _ _ _ ?_).trans ?_) | (intro _ _) | split | simp)

@[simp ↓] theorem reattach_kept (s : State) (p : Nat) : (State.reattach s p).kept = s.kept := by
  unfold State.reattach
  repeat' (first | with_reducible rfl | (simp; done) | (refine (kept_foldl _ _ _ ?_).trans ?_) | (intro _ _) | split | simp)

@[simp ↓] theorem changeIdentity_kept (s : State) (p : Nat) (i : PartnerId) : (State.changeIdentity s p i).kept = s.kept := by
  simp [State.changeIdentity]

@[simp ↓] theorem arriveAt_kept (s : State) (p : Nat) (i : PartnerId) : (State.arriveAt s p i).kept = s.kept := by
  unfold State.arriveAt; split <;> simp

@[simp ↓] theorem freeReserved_kept (s : State) (port : Nat) : (State.freeReserved s port).kept = s.kept := by
  unfold State.freeReserved; split <;> simp

@[simp ↓] theorem clockHere_kept (s : State) (k : Nat) : (State.clockHere s k).kept = s.kept := by
  simp [State.clockHere]

@[simp ↓] theorem equalise_kept (s : State) (p : Nat) : (State.equalise s p).kept = s.kept := by
  unfold State.equalise
  exact kept_foldl _ _ _ (fun _ _ => by simp)

@[simp ↓] theorem equalised_kept (s : State) (p : Nat) : (State.equalised s p).kept = s.kept := by
  unfold State.equalised
  exact kept_foldl _ _ _ (fun s n => (drawn_kept _).trans (kept_ports _ _))

@[simp ↓] theorem arbEnded_kept (s : State) (p : Nat) (x : Access) : (State.arbEnded s p x).kept = s.kept := by
  rfl

end Sys2Proof.Machine
end

