-- ==== Sys2Proof/Laws/KeptCross.lean ====
section
/-! SUPPORT. What the operations of Machine/Cross.lean keep. -/
namespace Sys2Proof.Machine

@[simp ↓] theorem cellBad_kept (s : State) (c : Cell) : (State.cellBad s c).kept = s.kept := by
  simp [State.cellBad]

@[simp ↓] theorem cellEnters_kept (s : State) (c : Cell) (way : Passage) : (State.cellEnters s c way).kept = s.kept := by
  unfold State.cellEnters; split <;> simp

@[simp ↓] theorem cross_kept (s : State) (src : Nat) (q : QReq) (way : Passage) : (State.cross s src q way).kept = s.kept := by
  unfold State.cross
  repeat' (first | with_reducible rfl | (simp; done) | (refine (kept_foldl _ _ _ ?_).trans ?_) | (intro _ _) | split | simp)

@[simp ↓] theorem passedOver_kept (s : State) (f e n : Nat) : (State.passedOver s f e n).kept = s.kept := by
  unfold State.passedOver
  exact kept_foldl _ _ _ (fun _ _ => by simp)

@[simp ↓] theorem spillAsk_kept (s : State) (e : Nat × Nat × Cell) : (State.spillAsk s e).kept = s.kept := by
  rfl

@[simp ↓] theorem spillMore_kept (s : State) (point fuel : Nat) : (State.spillMore s point fuel).kept = s.kept := by
  induction fuel generalizing s with
  | zero => rfl
  | succ n ih =>
    unfold State.spillMore
    split
    · rfl
    · split
      · exact (ih _).trans (by simp)
      · rfl

end Sys2Proof.Machine
end

