-- ==== Sys2Proof/Laws/KeptWardChk.lean ====
section
/-! SUPPORT. What the operations of Machine/WardChk.lean keep. -/
namespace Sys2Proof.Machine

@[simp ↓] theorem deny_kept (s : State) (sl : Option Nat) (point : Nat) (region : Option Nat) : (State.deny s sl point region).kept = s.kept := by
  simp [State.deny]

@[simp ↓] theorem tag_kept (s : State) (a : Agent) (line : Nat) : (State.tag s a line).kept = s.kept := by
  rfl

@[simp ↓] theorem homeLostNote_kept (s : State) (port : Nat) : (State.homeLostNote s port).kept = s.kept := by
  simp [State.homeLostNote]

@[simp ↓] theorem bindMiss_kept (s : State) (port : Nat) : (State.bindMiss s port).kept = s.kept := by
  simp [State.bindMiss]

@[simp ↓] theorem ingressNotes_kept (s : State) (port : Nat) (q : QReq) : (State.ingressNotes s port q).kept = s.kept := by
  simp [State.ingressNotes]

@[simp ↓] theorem ingress_kept (s : State) (port : Nat) (q : QReq) (way : Passage) : (State.ingress s port q way).kept = s.kept := by
  simp [State.ingress]

end Sys2Proof.Machine
end

