-- ==== Sys2Proof/Laws/KeptHostSide.lean ====
section
/-! SUPPORT. What the operations of Machine/HostSide.lean keep. -/
namespace Sys2Proof.Machine

@[simp ↓] theorem hostDenied_kept (s : State) (q : QReq) : (State.hostDenied s q).kept = s.kept := by
  unfold State.hostDenied; split <;> simp

@[simp ↓] theorem postOne_kept (s : State) (port sl : Nat) (x : Option (BitVec 128 × BitVec 128)) : (State.postOne s port sl x).kept = s.kept := by
  unfold State.postOne
  repeat' (first | with_reducible rfl | (simp; done) | (refine (kept_foldl _ _ _ ?_).trans ?_) | (intro _ _) | split | simp)

@[simp ↓] theorem postGo_kept (s : State) (sl port : Nat) (q : QReq) : (State.postGo s sl port q).kept = s.kept := by
  unfold State.postGo
  repeat' (first | with_reducible rfl | (simp; done) | (refine (kept_foldl _ _ _ ?_).trans ?_) | (intro _ _) | split | simp)

@[simp ↓] theorem hostGo_kept (s : State) (sl : Option Nat) (port : Nat) (q : QReq) (way : Passage) : (State.hostGo s sl port q way).kept = s.kept := by
  unfold State.hostGo
  repeat' (first | with_reducible rfl | (simp; done) | (refine (kept_foldl _ _ _ ?_).trans ?_) | (intro _ _) | split | simp)

@[simp ↓] theorem qfull_kept (s : State) (port : Nat) : (State.qfull s port).kept = s.kept := by
  rfl

@[simp ↓] theorem hostCharge_kept (s : State) (sl : Option Nat) (port : Nat) (q : QReq) (dir : Option Nat) (way : Passage) : (State.hostCharge s sl port q dir way).kept = s.kept := by
  simp [State.hostCharge]

@[simp ↓] theorem owes_kept (s : State) (port line : Nat) : (State.owes s port line).kept = s.kept := by
  rfl

@[simp ↓] theorem postWrite_kept (s : State) (h : HostOp) (sl : Nat) : (State.postWrite s h sl).kept = s.kept := by
  simp [State.postWrite]

@[simp ↓] theorem hostWb_kept (s : State) (port hi fpa : Nat) (k : Bool) (d : Line) (way : Passage) : (State.hostWb s port hi fpa k d way).kept = s.kept := by
  unfold State.hostWb
  repeat' (first | with_reducible rfl | (simp; done) | (refine (kept_foldl _ _ _ ?_).trans ?_) | (intro _ _) | split | simp)

@[simp ↓] theorem hostWrite_kept (s : State) (h : HostOp) (hi : Nat) : (State.hostWrite s h hi).kept = s.kept := by
  unfold State.hostWrite
  repeat' (first | with_reducible rfl | (simp; done) | (refine (kept_foldl _ _ _ ?_).trans ?_) | (intro _ _) | split | simp)

@[simp ↓] theorem biAnswer_kept (s : State) (port hi line : Nat) (shared : Bool) : (State.biAnswer s port hi line shared).kept = s.kept := by
  simp [State.biAnswer]

@[simp ↓] theorem memDone_kept (s : State) (port : Nat) (x : Access) : (State.memDone s port x).kept = s.kept := by
  simp [State.memDone]

@[simp ↓] theorem memCell_kept (s : State) (port : Nat) (x : Access) (psn : Bool) (d : Line) : (State.memCell s port x psn d).kept = s.kept := by
  unfold State.memCell; split <;> simp

@[simp ↓] theorem passLine_kept (s : State) (sl : Option Nat) (port : Nat) (q : QReq) : (State.passLine s sl port q).kept = s.kept := by
  unfold State.passLine; split <;> simp

@[simp ↓] theorem passGo_kept (s : State) (sl : Option Nat) (port : Nat) (qs : List QReq) : (State.passGo s sl port qs).kept = s.kept := by
  unfold State.passGo
  repeat' (first | with_reducible rfl | (simp; done) | (refine (kept_foldl _ _ _ ?_).trans ?_) | (intro _ _) | split | simp)

end Sys2Proof.Machine
end

