-- ==== Sys2Proof/Laws/KeptDmaCmd.lean ====
section
/-! SUPPORT. What the operations of Machine/DmaCmd.lean keep. -/
namespace Sys2Proof.Machine

@[simp ↓] theorem zeroRing_kept (s : State) (sl base size : Nat) : (State.zeroRing s sl base size).kept = s.kept := by
  unfold State.zeroRing
  repeat' (first | with_reducible rfl | (simp; done) | (refine (kept_foldl _ _ _ ?_).trans ?_) | (intro _ _) | split | simp)

@[simp ↓] theorem aliasUnbind_kept (s : State) (d : WinDef) : (State.aliasUnbind s d).kept = s.kept := by
  unfold State.aliasUnbind
  repeat' (first | with_reducible rfl | (simp; done) | (refine (kept_foldl _ _ _ ?_).trans ?_) | (intro _ _) | split | simp)

@[simp ↓] theorem aliasWrite_kept (s : State) (w : Nat) (new : Option WinDef) : (State.aliasWrite s w new).kept = s.kept := by
  unfold State.aliasWrite
  repeat' (first | with_reducible rfl | (simp; done) | (refine (kept_foldl _ _ _ ?_).trans ?_) | (intro _ _) | split | simp)

@[simp ↓] theorem sqDb_kept (s : State) (ring tail : Nat) : (State.sqDb s ring tail).kept = s.kept := by
  simp [State.sqDb]

@[simp ↓] theorem cqDb_kept (s : State) (cq head : Nat) : (State.cqDb s cq head).kept = s.kept := by
  simp [State.cqDb]

@[simp ↓] theorem ringEn_kept (s : State) (ring : Nat) (en : Bool) : (State.ringEn s ring en).kept = s.kept := by
  simp [State.ringEn]

@[simp ↓] theorem ringAbort_kept (s : State) (ring : Nat) : (State.ringAbort s ring).kept = s.kept := by
  simp [State.ringAbort]

end Sys2Proof.Machine
end

