-- ==== Sys2Proof/Laws/KeptDmaEng.lean ====
section
/-! SUPPORT. What the operations of Machine/DmaEng.lean keep. -/
namespace Sys2Proof.Machine

@[simp ↓] theorem setBegun_kept (s : State) (c : Nat) (b : Begun) : (State.setBegun s c b).kept = s.kept := by
  rfl

@[simp ↓] theorem stopDesc_kept (s : State) (c : Nat) (b : Begun) (status : Nat) : (State.stopDesc s c b status).kept = s.kept := by
  rfl

@[simp ↓] theorem unfetch_kept (s0 : State) (ring : Nat) : (State.unfetch s0 ring).kept = s0.kept := by
  simp [State.unfetch]

@[simp ↓] theorem freezeCheck_kept (s : State) (sl : Nat) : (State.freezeCheck s sl).kept = s.kept := by
  unfold State.freezeCheck
  repeat' (first | with_reducible rfl | (simp; done) | (refine (kept_foldl _ _ _ ?_).trans ?_) | (intro _ _) | split | simp)

@[simp ↓] theorem complete_kept (s : State) (c : Nat) (b : Begun) : (State.complete s c b).kept = s.kept := by
  unfold State.complete
  repeat' (first | with_reducible rfl | (simp; done) | (refine (kept_foldl _ _ _ ?_).trans ?_) | (intro _ _) | split | simp)

@[simp ↓] theorem formBurst_kept (s : State) (c sl : Nat) (b : Begun) : (State.formBurst s c sl b).kept = s.kept := by
  unfold State.formBurst
  repeat' (first | with_reducible rfl | (simp; done) | (refine (kept_foldl _ _ _ ?_).trans ?_) | (intro _ _) | split | simp)

@[simp ↓] theorem burstNotes_kept (s : State) (c : Nat) (b : Begun) (f : Form) : (State.burstNotes s c b f).kept = s.kept := by
  unfold State.burstNotes
  repeat' (first | with_reducible rfl | (simp; done) | (refine (kept_foldl _ _ _ ?_).trans ?_) | (intro _ _) | split | simp)

@[simp ↓] theorem postDma_kept (s : State) (c sl : Nat) (x : Option (BitVec 128 × BitVec 128)) : (State.postDma s c sl x).kept = s.kept := by
  unfold State.postDma
  repeat' (first | with_reducible rfl | (simp; done) | (refine (kept_foldl _ _ _ ?_).trans ?_) | (intro _ _) | split | simp)

@[simp ↓] theorem bulkSend_kept (s : State) (c num fpa : Nat) (ls : List (Nat × BitVec 64 × Line)) : (State.bulkSend s c num fpa ls).kept = s.kept := by
  unfold State.bulkSend
  repeat' (first | with_reducible rfl | (simp; done) | (refine (kept_foldl _ _ _ ?_).trans ?_) | (intro _ _) | split | simp)

@[simp ↓] theorem burstGo_kept (s : State) (c : Nat) : (State.burstGo s c).kept = s.kept := by
  unfold State.burstGo
  iterate 24 (all_goals try first | with_reducible rfl | with_reducible assumption | (fail_if_no_progress extract_lets -underBinder +onlyGivenNames x; first | (refine kept_via ?_ ?_ (fun hx => ?_) <;> [(with_reducible apply x; done); (dsimp -zeta only [x]; clear x); (clear_value x)]) | (refine kept_via ?_ ?_ (fun hx => ?_) <;> [(with_reducible apply Prod.fst x; done); (dsimp -zeta only [x]; clear x); (clear_value x)]) | (clear_value x)) | (with_reducible refine (kept_foldl _ _ _ ?_).trans ?_) | (with_reducible refine (kept_foldl_fst _ _ _ ?_).trans ?_) | split | (intro _ _) | simp only [*] | simp [*] | simp +zetaDelta [*] | (simp_all +zetaDelta [State.kept, -kept_eta]; done))

@[simp ↓] theorem epochGo_kept (s : State) (c fpa val : Nat) : (State.epochGo s c fpa val).kept = s.kept := by
  simp [State.epochGo]

@[simp ↓] theorem epochWrite_kept (s : State) (c fpa val : Nat) : (State.epochWrite s c fpa val).kept = s.kept := by
  simp [State.epochWrite]

end Sys2Proof.Machine
end

