-- ==== Sys2Proof/Laws/KeptFaultCmd.lean ====
section
/-! SUPPORT. What the operations of Machine/FaultCmd.lean keep. -/
namespace Sys2Proof.Machine

@[simp ↓] theorem descFault_kept (s : State) (c status : Nat) : (State.descFault s c status).kept = s.kept := by
  rfl

@[simp ↓] theorem ownHandling_kept (s : State) (code : Nat) (l : Loc) (detail : Reg32) : (State.ownHandling s code l detail).kept = s.kept := by
  unfold State.ownHandling
  repeat' (first | with_reducible rfl | (simp; done) | (refine (kept_foldl _ _ _ ?_).trans ?_) | (intro _ _) | split | simp)

end Sys2Proof.Machine
end

