-- ==== Sys2Proof/Laws/KeptShapeCmd.lean ====
section
/-! SUPPORT. What the operations of Machine/ShapeCmd.lean keep. -/
namespace Sys2Proof.Machine

@[simp ↓] theorem runWork_kept (s : State) (sl : Option Nat) (w : Work) : (State.runWork s sl w).kept = s.kept := by
  unfold State.runWork; split <;> simp

@[simp ↓] theorem proceedCharge_kept (s : State) (c : Charge) : (State.proceedCharge s c).kept = s.kept := by
  simp [State.proceedCharge]

@[simp ↓] theorem freeCharges_kept (s : State) (fuel : Nat) : (State.freeCharges s fuel).kept = s.kept := by
  induction fuel generalizing s with
  | zero => rfl
  | succ n ih =>
    unfold State.freeCharges
    split
    · simp [ih]
    · rfl

@[simp ↓] theorem restart_kept (s : State) (point t : Nat) : (State.restart s point t).kept = s.kept := by
  rfl

@[simp ↓] theorem overrunCheck_kept (before after : State) (point : Nat) : (State.overrunCheck before after point).kept = after.kept := by
  unfold State.overrunCheck
  dsimp only
  repeat' split
  all_goals simp

@[simp ↓] theorem swapGate_kept (s : State) (point t : Nat) : (State.swapGate s point t).kept = s.kept := by
  unfold State.swapGate; split <;> simp

@[simp ↓] theorem tsyncAt_kept (s : State) (point : Nat) : (State.tsyncAt s point).kept = s.kept := by
  unfold State.tsyncAt
  iterate 24 (all_goals try first | with_reducible rfl | with_reducible assumption | (fail_if_no_progress extract_lets -underBinder +onlyGivenNames x; first | (refine kept_via ?_ ?_ (fun hx => ?_) <;> [(with_reducible apply x; done); (dsimp -zeta only [x]; clear x); (clear_value x)]) | (refine kept_via ?_ ?_ (fun hx => ?_) <;> [(with_reducible apply Prod.fst x; done); (dsimp -zeta only [x]; clear x); (clear_value x)]) | skip) | (with_reducible refine (kept_foldl _ _ _ ?_).trans ?_) | (with_reducible refine (kept_foldl_fst _ _ _ ?_).trans ?_) | split | (intro _ _) | simp only [*] | simp [*] | simp +zetaDelta [*] | (simp_all +zetaDelta [State.kept, -kept_eta]; done))

end Sys2Proof.Machine
end

