-- ==== Sys2Proof/Laws/KeptSliceCmd.lean ====
section
/-! SUPPORT. What the operations of Machine/SliceCmd.lean keep. -/
namespace Sys2Proof.Machine

@[simp ↓] theorem freezeCmd_kept (s : State) (f : Frame) (op slice : Nat) : (State.freezeCmd s f op slice).1.kept = s.kept := by
  unfold State.freezeCmd; split <;> simp

@[simp ↓] theorem thaw_kept (s : State) (slice : Nat) : (State.thaw s slice).kept = s.kept := by
  simp [State.thaw]

@[simp ↓] theorem saveTo_kept (s : State) (slice owner addr : Nat) : (State.saveTo s slice owner addr).kept = s.kept := by
  unfold State.saveTo
  repeat' (first | with_reducible rfl | (simp; done) | (refine (kept_foldl _ _ _ ?_).trans ?_) | (intro _ _) | split | simp)

@[simp ↓] theorem restoreRings_kept (s : State) (sl : Nat) (chs : List Nat) (img : Image) : (State.restoreRings s sl chs img).kept = s.kept := by
  unfold State.restoreRings
  exact kept_foldl _ _ _ (fun _ _ => by simp)

@[simp ↓] theorem restoreSlice_kept (s : State) (host pasid : Nat) (chs : List Nat) (img : Image) : (State.restoreSlice s host pasid chs img).kept = s.kept := by
  unfold State.restoreSlice
  iterate 24 (all_goals try first | with_reducible rfl | with_reducible assumption | (fail_if_no_progress extract_lets -underBinder +onlyGivenNames x; first | (refine kept_via ?_ ?_ (fun hx => ?_) <;> [(with_reducible apply x; done); (dsimp -zeta only [x]; clear x); (clear_value x)]) | (refine kept_via ?_ ?_ (fun hx => ?_) <;> [(with_reducible apply Prod.fst x; done); (dsimp -zeta only [x]; clear x); (clear_value x)]) | (clear_value x)) | (with_reducible refine (kept_foldl _ _ _ ?_).trans ?_) | (with_reducible refine (kept_foldl_fst _ _ _ ?_).trans ?_) | split | (intro _ _) | simp only [*] | simp [*] | simp +zetaDelta [*] | (simp_all +zetaDelta [State.kept, -kept_eta]; done))

@[simp ↓] theorem zeroLog_kept (s : State) (g : DLog) : (State.zeroLog s g).kept = s.kept := by
  unfold State.zeroLog
  repeat' (first | with_reducible rfl | (simp; done) | (refine (kept_foldl _ _ _ ?_).trans ?_) | (intro _ _) | split | simp)

@[simp ↓] theorem modSchan_kept (s : State) (slice : Nat) (f : SChan → SChan) : (State.modSchan s slice f).kept = s.kept := by
  simp [State.modSchan]

end Sys2Proof.Machine
end

