-- ==== Sys2Proof/Laws/KeptWardCmd.lean ====
section
/-! SUPPORT. What the operations of Machine/WardCmd.lean keep. -/
namespace Sys2Proof.Machine

@[simp ↓] theorem setTarget_kept (s : State) (t : Nat) : (State.setTarget s t).kept = s.kept := by
  rfl

@[simp ↓] theorem wardAccept_kept (s : State) (target : Nat) : (State.wardAccept s target).kept = s.kept := by
  rfl

@[simp ↓] theorem wardRequest_kept (s : State) (target : Nat) : (State.wardRequest s target).kept = s.kept := by
  simp [State.wardRequest]

@[simp ↓] theorem wardCommitWrite_kept (s : State) (target : Nat) (go : Bool) : (State.wardCommitWrite s target go).kept = s.kept := by
  simp [State.wardCommitWrite]

@[simp ↓] theorem applyCuts_kept (s : State) : (State.applyCuts s).kept = s.kept := by
  unfold State.applyCuts
  exact kept_foldl _ _ _ (fun _ _ => by simp)

end Sys2Proof.Machine
end

