-- ==== Sys2Proof/Laws/KeptSession.lean ====
section
/-! SUPPORT. What the operations of Machine/Session.lean keep. -/
namespace Sys2Proof.Machine

@[simp ↓] theorem authFailed_kept (s : State) (x : Session) : (State.authFailed s x).kept = s.kept := by
  simp [State.authFailed]

end Sys2Proof.Machine
end

