-- ==== Sys2Proof/Laws/KeptRes.lean ====
section
/-! SUPPORT. What commands, events and the coherence messages keep, as outcomes. -/
namespace Sys2Proof.Machine

/-- Every next state of an outcome keeps what s keeps. -/
def Keeps (s : State) (r : Res) : Prop := ∀ t, r = .next t → t.kept = s.kept

/-- An event keeps what its effect keeps. -/
theorem evt_keeps {can : Bool} {effect : State → State} {s : State} (h : (effect s).kept = s.kept) : Keeps s (evt can effect s) := by
  intro t ht
  simp only [evt, Host.Outcome.next.injEq] at ht
  subst ht
  split <;> simp [h]

/-- An admitted command keeps what its run keeps. -/
theorem execBody_kept (op : Nat) (f : Frame) (b : Body) (role sl : Nat) (s : State) (h : ∀ role sl t, (b.run role sl t).1.kept = t.kept) :
    (execBody op f b role sl s).kept = s.kept := by
  unfold execBody
  split
  · simp
  · split <;> simp [h]

/-- What admission leaves is kept. -/
def verdictKeeps (s : State) (v : Verdict) : Prop :=
  match v with
  | .silent => True
  | .answer _ t | .done t | .go _ _ t => t.kept = s.kept

/-- Authorisation keeps it. -/
theorem authorise_keeps (s : State) (op : Nat) (f : Frame) (macOk : Bool) : verdictKeeps s (s.authorise op f macOk) := by
  unfold State.authorise
  iterate 12 (all_goals try first | trivial | with_reducible rfl | split | (dsimp only [verdictKeeps]; simp; done) | dsimp only)

/-- A choice between two answers. -/
theorem verdict_ite {s : State} {p : Prop} [Decidable p] {v w : Verdict} (hv : verdictKeeps s v) (hw : verdictKeeps s w) :
    verdictKeeps s (if p then v else w) := by split <;> assumption

/-- Admission keeps it. -/
theorem admitMac_keeps (s : State) (op : Nat) (f : Frame) (c : Instr) (macOk : Bool) : verdictKeeps s (s.admitMac op f c macOk) := by
  have ha := authorise_keeps s op f macOk
  unfold State.admitMac
  split
  · rfl
  refine verdict_ite trivial (verdict_ite rfl (verdict_ite rfl (verdict_ite rfl (verdict_ite rfl ?_))))
  generalize s.authorise op f macOk = v at ha
  cases v with
  | go role sl s1 =>
    dsimp only [verdictKeeps] at ha
    refine verdict_ite ha (verdict_ite (verdict_ite ha (verdict_ite ha ?_)) (verdict_ite ha (verdict_ite ha (verdict_ite (verdict_ite ha ?_) ha))))
    · show (State.emit _ _).kept = s.kept
      simp [ha]
    · exact ha
  | silent => exact ha
  | answer rc t => exact ha
  | done t => exact ha

/-- Admission keeps it. -/
theorem admission_keeps (s : State) (op : Nat) (f : Frame) (c : Instr) : verdictKeeps s (s.admission op f c) := admitMac_keeps s op f c _

/-- A mailbox command keeps what its run keeps. -/
theorem commandR_keeps {op : Nat} {f : Frame} {c : Instr} {b : Body} {s : State} (h : ∀ role sl t, (b.run role sl t).1.kept = t.kept) :
    Keeps s (commandR op f c b s) := by
  have ha := admission_keeps s op f c
  intro t ht
  unfold commandR at ht
  split at ht <;> rename_i hv <;> rw [hv] at ha <;> (injection ht; subst t) <;> dsimp only [verdictKeeps] at ha <;> simp [ha, execBody_kept _ _ _ _ _ _ h]

/-- The same where the rule does not look at the role. -/
theorem command_keeps {op : Nat} {f : Frame} {c : Instr} {guard : State → Option Nat} {run : State → State × Nat × List Nat} {s : State}
    (h : ∀ t, (run t).1.kept = t.kept) : Keeps s (command op f c guard run s) := commandR_keeps (fun _ _ t => h t)

/-- A command that only reads keeps it. -/
theorem query_keeps {op : Nat} {f : Frame} {c : Instr} {guard : State → Option Nat} {data : State → List Nat} {s : State} :
    Keeps s (query op f c guard data s) := command_keeps (fun _ => rfl)

/-- execReq keeps it. -/
theorem execReq_keeps (k : ReqKind) (r : ReqOp) (s : State) : Keeps s (execReq k r s) := by
  unfold execReq
  refine evt_keeps ?_
  simp

/-- execAtomop keeps it. -/
theorem execAtomop_keeps (r : ReqOp) (record nextRec : BitVec 128) (s : State) : Keeps s (execAtomop r record nextRec s) := by
  unfold execAtomop
  refine evt_keeps ?_
  simp

/-- execWbdata keeps it. -/
theorem execWbdata_keeps (m : MsgOp) (s : State) : Keeps s (execWbdata m s) := by
  unfold execWbdata
  refine evt_keeps ?_
  simp

/-- execSnpinv keeps it. -/
theorem execSnpinv_keeps (m : MsgOp) (s : State) : Keeps s (execSnpinv m s) := by
  unfold execSnpinv
  refine evt_keeps ?_
  simp

/-- execSnpshr keeps it. -/
theorem execSnpshr_keeps (m : MsgOp) (s : State) : Keeps s (execSnpshr m s) := by
  unfold execSnpshr
  refine evt_keeps ?_
  simp

/-- execSnpdata keeps it. -/
theorem execSnpdata_keeps (m : MsgOp) (s : State) : Keeps s (execSnpdata m s) := by
  unfold execSnpdata
  refine evt_keeps ?_
  simp

/-- execBirecall keeps it. -/
theorem execBirecall_keeps (m : MsgOp) (s : State) : Keeps s (execBirecall m s) := by
  unfold execBirecall
  refine evt_keeps ?_
  simp

/-- execRsp keeps it. -/
theorem execRsp_keeps (r : RspKind) (m : MsgOp) (s : State) : Keeps s (execRsp r m s) := by
  unfold execRsp
  refine evt_keeps ?_
  simp

/-- execCmp keeps it. -/
theorem execCmp_keeps (m : MsgOp) (s : State) : Keeps s (execCmp m s) := by
  unfold execCmp
  refine evt_keeps ?_
  simp

/-- execCmppoison keeps it. -/
theorem execCmppoison_keeps (m : MsgOp) (s : State) : Keeps s (execCmppoison m s) := by
  unfold execCmppoison
  refine evt_keeps ?_
  simp

/-- execDat keeps it. -/
theorem execDat_keeps (opc : Nat) (g : Grant) (m : MsgOp) (s : State) : Keeps s (execDat opc g m s) := by
  unfold execDat
  refine evt_keeps ?_
  simp

end Sys2Proof.Machine
end

