-- ==== Sys2Proof/Laws/KeptTrunkRx.lean ====
section
/-! SUPPORT. What the operations of Machine/TrunkRx.lean keep. -/
namespace Sys2Proof.Machine

@[simp ↓] theorem sendInit_kept (s : State) (t : Nat) : (State.sendInit s t).kept = s.kept := by
  rfl

@[simp ↓] theorem sendResume_kept (s : State) (t : Nat) : (State.sendResume s t).kept = s.kept := by
  rfl

@[simp ↓] theorem sendChal_kept (s : State) (t : Nat) : (State.sendChal s t).kept = s.kept := by
  rfl

@[simp ↓] theorem trunkTrained_kept (s : State) (t : Nat) (on : Bool) : (State.trunkTrained s t on).kept = s.kept := by
  rfl

@[simp ↓] theorem becomeP0_kept (s : State) : (State.becomeP0 s).kept = s.kept := by
  rfl

@[simp ↓] theorem settleRoles_kept (s : State) (serial role : Nat) : (State.settleRoles s serial role).kept = s.kept := by
  simp [State.settleRoles]

@[simp ↓] theorem initGo_kept (s : State) (t idx role : Nat) : (State.initGo s t idx role).kept = s.kept := by
  simp [State.initGo]

@[simp ↓] theorem authFails_kept (s : State) (t : Nat) : (State.authFails s t).kept = s.kept := by
  simp [State.authFails]

@[simp ↓] theorem modulePartner_kept (s : State) (t : Nat) : (State.modulePartner s t).kept = s.kept := by
  rfl

@[simp ↓] theorem moduleArrives_kept (s : State) (t : Nat) : (State.moduleArrives s t).kept = s.kept := by
  simp [State.moduleArrives]

@[simp ↓] theorem joinStart_kept (s : State) (t serial : Nat) : (State.joinStart s t serial).kept = s.kept := by
  unfold State.joinStart; split <;> simp

@[simp ↓] theorem linkActive_kept (s : State) (t : Nat) : (State.linkActive s t).kept = s.kept := by
  simp [State.linkActive]

@[simp ↓] theorem askReplay_kept (s : State) (t : Nat) : (State.askReplay s t).kept = s.kept := by
  simp [State.askReplay]

@[simp ↓] theorem flitNotes_kept (s : State) (fl : FlitOp) : (State.flitNotes s fl).kept = s.kept := by
  rfl

@[simp ↓] theorem flitBad_kept (s : State) (t : Nat) : (State.flitBad s t).kept = s.kept := by
  simp [State.flitBad]

@[simp ↓] theorem acceptMsg_kept (s : State) (t : Nat) (m : TrunkMsg) : (State.acceptMsg s t m).kept = s.kept := by
  unfold State.acceptMsg
  repeat' (first | with_reducible rfl | (simp; done) | (refine (kept_foldl _ _ _ ?_).trans ?_) | (intro _ _) | split | simp)

end Sys2Proof.Machine
end

