-- ==== Sys2Proof/Laws/KeptHierCmd.lean ====
section
/-! SUPPORT. What the operations of Machine/HierCmd.lean keep. -/
namespace Sys2Proof.Machine

@[simp ↓] theorem hierSettings_kept (s : State) (rolePref autoAdmit : Option Bool) (meshTimeout trCpl : Option Nat) : (State.hierSettings s rolePref autoAdmit meshTimeout trCpl).kept = s.kept := by
  rfl

@[simp ↓] theorem rlcFlush_kept (s : State) : (State.rlcFlush s).kept = s.kept := by
  unfold State.rlcFlush
  exact kept_foldl _ _ _ (fun _ _ => by simp)

@[simp ↓] theorem leaveSweep_kept (s : State) (idx : Nat) : (State.leaveSweep s idx).kept = s.kept := by
  simp [State.leaveSweep]

@[simp ↓] theorem memberLeft_kept (s : State) (idx : Nat) : (State.memberLeft s idx).kept = s.kept := by
  unfold State.memberLeft
  repeat' (first | with_reducible rfl | (simp; done) | (refine (kept_foldl _ _ _ ?_).trans ?_) | (intro _ _) | split | simp)

@[simp ↓] theorem removeEnds_kept (s : State) (idx serial : Nat) : (State.removeEnds s idx serial).kept = s.kept := by
  simp [State.removeEnds]

@[simp ↓] theorem leaveSelf_kept (s : State) : (State.leaveSelf s).kept = s.kept := by
  unfold State.leaveSelf
  iterate 24 (all_goals try first | with_reducible rfl | with_reducible assumption | (fail_if_no_progress extract_lets -underBinder +onlyGivenNames x; first | (refine kept_via ?_ ?_ (fun hx => ?_) <;> [(with_reducible apply x; done); (dsimp -zeta only [x]; clear x); (clear_value x)]) | (refine kept_via ?_ ?_ (fun hx => ?_) <;> [(with_reducible apply Prod.fst x; done); (dsimp -zeta only [x]; clear x); (clear_value x)]) | skip) | (with_reducible refine (kept_foldl _ _ _ ?_).trans ?_) | (with_reducible refine (kept_foldl_fst _ _ _ ?_).trans ?_) | split | (intro _ _) | simp only [*] | simp [*] | simp +zetaDelta [*] | (simp_all +zetaDelta [State.kept, -kept_eta]; done))

@[simp ↓] theorem joinNext_kept (s : State) : (State.joinNext s).kept = s.kept := by
  unfold State.joinNext; split <;> simp

@[simp ↓] theorem addExpanders_kept (s : State) : (State.addExpanders s).kept = s.kept := by
  unfold State.addExpanders
  exact kept_foldl _ _ _ (fun _ _ => by simp)

@[simp ↓] theorem joinFails_kept (s : State) : (State.joinFails s).kept = s.kept := by
  unfold State.joinFails
  iterate 24 (all_goals try first | with_reducible rfl | with_reducible assumption | (fail_if_no_progress extract_lets -underBinder +onlyGivenNames x; first | (refine kept_via ?_ ?_ (fun hx => ?_) <;> [(with_reducible apply x; done); (dsimp -zeta only [x]; clear x); (clear_value x)]) | (refine kept_via ?_ ?_ (fun hx => ?_) <;> [(with_reducible apply Prod.fst x; done); (dsimp -zeta only [x]; clear x); (clear_value x)]) | skip) | (with_reducible refine (kept_foldl _ _ _ ?_).trans ?_) | (with_reducible refine (kept_foldl_fst _ _ _ ?_).trans ?_) | split | (intro _ _) | simp only [*] | simp [*] | simp +zetaDelta [*] | (simp_all +zetaDelta [State.kept, -kept_eta]; done))

@[simp ↓] theorem joinLost_kept (s : State) (j : Join) : (State.joinLost s j).kept = s.kept := by
  simp [State.joinLost]

@[simp ↓] theorem takeSettings_kept (s : State) (m : HierMsg) : (State.takeSettings s m).kept = s.kept := by
  rfl

@[simp ↓] theorem initAll_kept (s : State) : (State.initAll s).kept = s.kept := by
  unfold State.initAll
  exact kept_foldl _ _ _ (fun _ _ => by simp)

@[simp ↓] theorem fromP0_kept (s : State) (m : HierMsg) : (State.fromP0 s m).kept = s.kept := by
  unfold State.fromP0
  repeat' (first | with_reducible rfl | (simp; done) | (refine (kept_foldl _ _ _ ?_).trans ?_) | (intro _ _) | split | simp)

@[simp ↓] theorem splitTold_kept (s : State) (m : HierMsg) (sender : Nat) : (State.splitTold s m sender).kept = s.kept := by
  unfold State.splitTold; split <;> simp

end Sys2Proof.Machine
end

