-- ==== Sys2Proof/Laws/KeptPower.lean ====
section
/-! SUPPORT. What the operations of Machine/Power.lean keep. -/
namespace Sys2Proof.Machine

@[simp ↓] theorem brownStart_kept (s : State) : (State.brownStart s).kept = s.kept := by
  unfold State.brownStart
  repeat' (first | with_reducible rfl | (simp; done) | (refine (kept_foldl _ _ _ ?_).trans ?_) | (intro _ _) | split | simp)

@[simp ↓] theorem pfwAssert_kept (s : State) (cause : Nat) : (State.pfwAssert s cause).kept = s.kept := by
  simp [State.pfwAssert]

@[simp ↓] theorem turnOff_kept (s : State) (cause : Nat) : (State.turnOff s cause).kept = s.kept := by
  simp [State.turnOff]

@[simp ↓] theorem brownSleep_kept (s : State) : (State.brownSleep s).kept = s.kept := by
  unfold State.brownSleep
  iterate 24 (all_goals try first | with_reducible rfl | with_reducible assumption | (fail_if_no_progress extract_lets -underBinder +onlyGivenNames x; first | (refine kept_via ?_ ?_ (fun hx => ?_) <;> [(with_reducible apply x; done); (dsimp -zeta only [x]; clear x); (clear_value x)]) | (refine kept_via ?_ ?_ (fun hx => ?_) <;> [(with_reducible apply Prod.fst x; done); (dsimp -zeta only [x]; clear x); (clear_value x)]) | skip) | (with_reducible refine (kept_foldl _ _ _ ?_).trans ?_) | (with_reducible refine (kept_foldl_fst _ _ _ ?_).trans ?_) | split | (intro _ _) | simp only [*] | simp [*] | simp +zetaDelta [*] | (simp_all +zetaDelta [State.kept, -kept_eta]; done))

@[simp ↓] theorem lanesBack_kept (s : State) : (State.lanesBack s).kept = s.kept := by
  unfold State.lanesBack
  exact kept_foldl _ _ _ (fun _ _ => by simp)

@[simp ↓] theorem rampStart_kept (s : State) : (State.rampStart s).kept = s.kept := by
  rfl

@[simp ↓] theorem trip_kept (s : State) (kind code : Nat) : (State.trip s kind code).kept = s.kept := by
  simp [State.trip]

@[simp ↓] theorem leaveActive_kept (s : State) : (State.leaveActive s).kept = s.kept := by
  unfold State.leaveActive
  iterate 24 (all_goals try first | with_reducible rfl | with_reducible assumption | (fail_if_no_progress extract_lets -underBinder +onlyGivenNames x; first | (refine kept_via ?_ ?_ (fun hx => ?_) <;> [(with_reducible apply x; done); (dsimp -zeta only [x]; clear x); (clear_value x)]) | (refine kept_via ?_ ?_ (fun hx => ?_) <;> [(with_reducible apply Prod.fst x; done); (dsimp -zeta only [x]; clear x); (clear_value x)]) | skip) | (with_reducible refine (kept_foldl _ _ _ ?_).trans ?_) | (with_reducible refine (kept_foldl_fst _ _ _ ?_).trans ?_) | split | (intro _ _) | simp only [*] | simp [*] | simp +zetaDelta [*] | (simp_all +zetaDelta [State.kept, -kept_eta]; done))

@[simp ↓] theorem leaveReady_kept (s : State) : (State.leaveReady s).kept = s.kept := by
  simp [State.leaveReady]

end Sys2Proof.Machine
end

