-- ==== Sys2Proof/Laws/KeptModuleCmd.lean ====
section
/-! SUPPORT. What the operations of Machine/ModuleCmd.lean keep. -/
namespace Sys2Proof.Machine

@[simp ↓] theorem leaveStart_kept (s : State) (idx : Nat) : (State.leaveStart s idx).1.kept = s.kept := by
  simp [State.leaveStart]

@[simp ↓] theorem homeAnswer_kept (s : State) (q : HomeReq) (data : List Nat) : (State.homeAnswer s q data).kept = s.kept := by
  unfold State.homeAnswer
  repeat' (first | with_reducible rfl | (simp; done) | (refine (kept_foldl _ _ _ ?_).trans ?_) | (intro _ _) | split | simp)

@[simp ↓] theorem homeSays_kept (s : State) (q : HomeReq) (a : HomeAsk) (rc : Nat) (data : List Nat) : (State.homeSays s q a rc data).kept = s.kept := by
  simp [State.homeSays]

end Sys2Proof.Machine
end

