-- ==== Sys2Proof/Laws/KeptRegRead.lean ====
section
/-! SUPPORT. What the operations of Machine/RegRead.lean keep. -/
namespace Sys2Proof.Machine

@[simp ↓] theorem badAccess_kept (s : State) : (State.badAccess s).kept = s.kept := by
  rfl

@[simp ↓] theorem latchRead_kept (s : State) (requester off v : Nat) : (State.latchRead s requester off v).1.kept = s.kept := by
  unfold State.latchRead
  repeat' (first | with_reducible rfl | (simp; done) | (refine (kept_foldl _ _ _ ?_).trans ?_) | (intro _ _) | split | simp)

end Sys2Proof.Machine
end

