-- ==== Sys2Proof/Laws/KeepsPartner.lean ====
section
/-! SUPPORT. What the commands and events of Machine/Partner.lean keep. -/
namespace Sys2Proof.Machine

theorem execPartnerList_keeps (f : Frame) (s : State) : Keeps s (execPartnerList f s) := by
  unfold execPartnerList
  exact query_keeps

theorem execPartnerEventGet_keeps (f : Frame) (count : Nat) (s : State) : Keeps s (execPartnerEventGet f count s) := by
  unfold execPartnerEventGet
  exact command_keeps (fun _ => by simp)

theorem execPartnerSet_keeps (f : Frame) (port : Nat) (timer snoop : Option Nat) (autoAdd : Option Bool) (s : State) : Keeps s (execPartnerSet f port timer snoop autoAdd s) := by
  unfold execPartnerSet
  exact command_keeps (fun _ => by simp)

theorem execPartnerRelease_keeps (f : Frame) (port : Nat) (s : State) : Keeps s (execPartnerRelease f port s) := by
  unfold execPartnerRelease
  exact command_keeps (fun _ => by simp)

theorem execEvacuatePartner_keeps (f : Frame) (port ch share stallPages maxPasses mask : Nat) (s : State) : Keeps s (execEvacuatePartner f port ch share stallPages maxPasses mask s) := by
  unfold execEvacuatePartner
  refine command_keeps (fun t => ?_)
  iterate 24 (all_goals try first | with_reducible rfl | with_reducible assumption | (fail_if_no_progress extract_lets -underBinder +onlyGivenNames x; first | (refine kept_via ?_ ?_ (fun hx => ?_) <;> [(with_reducible apply x; done); (dsimp -zeta only [x]; clear x); (clear_value x)]) | (refine kept_via ?_ ?_ (fun hx => ?_) <;> [(with_reducible apply Prod.fst x; done); (dsimp -zeta only [x]; clear x); (clear_value x)]) | (clear_value x)) | (with_reducible refine (kept_foldl _ _ _ ?_).trans ?_) | (with_reducible refine (kept_foldl_fst _ _ _ ?_).trans ?_) | split | (intro _ _) | simp only [*] | simp [*] | simp +zetaDelta [*] | (simp_all +zetaDelta [State.kept, -kept_eta]; done))

theorem execEvacPassDone_keeps (e : Nat) (s : State) : Keeps s (execEvacPassDone e s) := by
  unfold execEvacPassDone State.evacHarvest
  refine evt_keeps ?_
  iterate 24 (all_goals try first | with_reducible rfl | with_reducible assumption | (fail_if_no_progress extract_lets -underBinder +onlyGivenNames x; first | (refine kept_via ?_ ?_ (fun hx => ?_) <;> [(with_reducible apply x; done); (dsimp -zeta only [x]; clear x); (clear_value x)]) | (refine kept_via ?_ ?_ (fun hx => ?_) <;> [(with_reducible apply Prod.fst x; done); (dsimp -zeta only [x]; clear x); (clear_value x)]) | skip) | (with_reducible refine (kept_foldl _ _ _ ?_).trans ?_) | (with_reducible refine (kept_foldl_fst _ _ _ ?_).trans ?_) | split | (intro _ _) | simp only [*] | simp [*] | simp +zetaDelta [*] | (simp_all +zetaDelta [State.kept, -kept_eta]; done))

theorem execEvacStallDrained_keeps (e : Nat) (s : State) : Keeps s (execEvacStallDrained e s) := by
  unfold execEvacStallDrained State.evacHarvest
  refine evt_keeps ?_
  iterate 24 (all_goals try first | with_reducible rfl | with_reducible assumption | (fail_if_no_progress extract_lets -underBinder +onlyGivenNames x; first | (refine kept_via ?_ ?_ (fun hx => ?_) <;> [(with_reducible apply x; done); (dsimp -zeta only [x]; clear x); (clear_value x)]) | (refine kept_via ?_ ?_ (fun hx => ?_) <;> [(with_reducible apply Prod.fst x; done); (dsimp -zeta only [x]; clear x); (clear_value x)]) | skip) | (with_reducible refine (kept_foldl _ _ _ ?_).trans ?_) | (with_reducible refine (kept_foldl_fst _ _ _ ?_).trans ?_) | split | (intro _ _) | simp only [*] | simp [*] | simp +zetaDelta [*] | (simp_all +zetaDelta [State.kept, -kept_eta]; done))

theorem execEvacFinalPassDone_keeps (s : State) : Keeps s (execEvacFinalPassDone s) := by
  unfold execEvacFinalPassDone
  refine evt_keeps ?_
  iterate 24 (all_goals try first | with_reducible rfl | with_reducible assumption | (fail_if_no_progress extract_lets -underBinder +onlyGivenNames x; first | (refine kept_via ?_ ?_ (fun hx => ?_) <;> [(with_reducible apply x; done); (dsimp -zeta only [x]; clear x); (clear_value x)]) | (refine kept_via ?_ ?_ (fun hx => ?_) <;> [(with_reducible apply Prod.fst x; done); (dsimp -zeta only [x]; clear x); (clear_value x)]) | (clear_value x)) | (with_reducible refine (kept_foldl _ _ _ ?_).trans ?_) | (with_reducible refine (kept_foldl_fst _ _ _ ?_).trans ?_) | split | (intro _ _) | simp only [*] | simp [*] | simp +zetaDelta [*] | (simp_all +zetaDelta [State.kept, -kept_eta]; done))

theorem execEvacStallGuard_keeps (s : State) : Keeps s (execEvacStallGuard s) := by
  unfold execEvacStallGuard
  refine evt_keeps ?_
  iterate 24 (all_goals try first | with_reducible rfl | with_reducible assumption | (fail_if_no_progress extract_lets -underBinder +onlyGivenNames x; first | (refine kept_via ?_ ?_ (fun hx => ?_) <;> [(with_reducible apply x; done); (dsimp -zeta only [x]; clear x); (clear_value x)]) | (refine kept_via ?_ ?_ (fun hx => ?_) <;> [(with_reducible apply Prod.fst x; done); (dsimp -zeta only [x]; clear x); (clear_value x)]) | (clear_value x)) | (with_reducible refine (kept_foldl _ _ _ ?_).trans ?_) | (with_reducible refine (kept_foldl_fst _ _ _ ?_).trans ?_) | split | (intro _ _) | simp only [*] | simp [*] | simp +zetaDelta [*] | (simp_all +zetaDelta [State.kept, -kept_eta]; done))

end Sys2Proof.Machine
end

