-- ==== Sys2Proof/Laws/KeepsBind.lean ====
section
/-! SUPPORT. What the commands and events of Machine/Bind.lean keep. -/
namespace Sys2Proof.Machine

theorem execBindAdd_keeps (f : Frame) (host : Nat) (entries : List BindReq) (s : State) : Keeps s (execBindAdd f host entries s) := by
  unfold execBindAdd
  refine command_keeps (fun t => ?_)
  iterate 24 (all_goals try first | with_reducible rfl | with_reducible assumption | (fail_if_no_progress extract_lets -underBinder +onlyGivenNames x; first | (refine kept_via ?_ ?_ (fun hx => ?_) <;> [(with_reducible apply x; done); (dsimp -zeta only [x]; clear x); (clear_value x)]) | (refine kept_via ?_ ?_ (fun hx => ?_) <;> [(with_reducible apply Prod.fst x; done); (dsimp -zeta only [x]; clear x); (clear_value x)]) | (clear_value x)) | (with_reducible refine (kept_foldl _ _ _ ?_).trans ?_) | (with_reducible refine (kept_foldl_fst _ _ _ ?_).trans ?_) | split | (intro _ _) | simp only [*] | simp [*] | simp +zetaDelta [*] | (simp_all +zetaDelta [State.kept, -kept_eta]; done))

theorem execBindRelease_keeps (f : Frame) (host entry : Nat) (force : Bool) (s : State) : Keeps s (execBindRelease f host entry force s) := by
  unfold execBindRelease
  refine command_keeps (fun t => ?_)
  iterate 24 (all_goals try first | with_reducible rfl | with_reducible assumption | (fail_if_no_progress extract_lets -underBinder +onlyGivenNames x; first | (refine kept_via ?_ ?_ (fun hx => ?_) <;> [(with_reducible apply x; done); (dsimp -zeta only [x]; clear x); (clear_value x)]) | (refine kept_via ?_ ?_ (fun hx => ?_) <;> [(with_reducible apply Prod.fst x; done); (dsimp -zeta only [x]; clear x); (clear_value x)]) | skip) | (with_reducible refine (kept_foldl _ _ _ ?_).trans ?_) | (with_reducible refine (kept_foldl_fst _ _ _ ?_).trans ?_) | split | (intro _ _) | simp only [*] | simp [*] | simp +zetaDelta [*] | (simp_all +zetaDelta [State.kept, -kept_eta]; done))

theorem execBindTableGet_keeps (f : Frame) (host : Nat) (s : State) : Keeps s (execBindTableGet f host s) := by
  unfold execBindTableGet
  exact query_keeps

theorem execBindPassthru_keeps (f : Frame) (d : LogDev) (host bridge : Nat) (s : State) : Keeps s (execBindPassthru f d host bridge s) := by
  unfold execBindPassthru
  exact command_keeps (fun _ => by simp)

theorem execAddDynamicCapacityResponse_keeps (host : Nat) (accepted declined : List Nat) (s : State) : Keeps s (execAddDynamicCapacityResponse host accepted declined s) := by
  unfold execAddDynamicCapacityResponse
  refine evt_keeps ?_
  iterate 24 (all_goals try first | with_reducible rfl | with_reducible assumption | (fail_if_no_progress extract_lets -underBinder +onlyGivenNames x; first | (refine kept_via ?_ ?_ (fun hx => ?_) <;> [(with_reducible apply x; done); (dsimp -zeta only [x]; clear x); (clear_value x)]) | (refine kept_via ?_ ?_ (fun hx => ?_) <;> [(with_reducible apply Prod.fst x; done); (dsimp -zeta only [x]; clear x); (clear_value x)]) | (clear_value x)) | (with_reducible refine (kept_foldl _ _ _ ?_).trans ?_) | (with_reducible refine (kept_foldl_fst _ _ _ ?_).trans ?_) | split | (intro _ _) | simp only [*] | simp [*] | simp +zetaDelta [*] | (simp_all +zetaDelta [State.kept, -kept_eta]; done))

theorem execDcAddTimeout_keeps (host entry : Nat) (s : State) : Keeps s (execDcAddTimeout host entry s) := by
  unfold execDcAddTimeout
  exact evt_keeps (by simp)

theorem execReleaseDynamicCapacity_keeps (host entry : Nat) (s : State) : Keeps s (execReleaseDynamicCapacity host entry s) := by
  unfold execReleaseDynamicCapacity
  exact evt_keeps (by simp)

theorem execDcReleaseTimeout_keeps (host entry : Nat) (s : State) : Keeps s (execDcReleaseTimeout host entry s) := by
  unfold execDcReleaseTimeout
  exact evt_keeps (by simp)

theorem execBindingRemovalDone_keeps (host entry : Nat) (s : State) : Keeps s (execBindingRemovalDone host entry s) := by
  unfold execBindingRemovalDone
  refine evt_keeps ?_
  iterate 24 (all_goals try first | with_reducible rfl | with_reducible assumption | (fail_if_no_progress extract_lets -underBinder +onlyGivenNames x; first | (refine kept_via ?_ ?_ (fun hx => ?_) <;> [(with_reducible apply x; done); (dsimp -zeta only [x]; clear x); (clear_value x)]) | (refine kept_via ?_ ?_ (fun hx => ?_) <;> [(with_reducible apply Prod.fst x; done); (dsimp -zeta only [x]; clear x); (clear_value x)]) | (clear_value x)) | (with_reducible refine (kept_foldl _ _ _ ?_).trans ?_) | (with_reducible refine (kept_foldl_fst _ _ _ ?_).trans ?_) | split | (intro _ _) | simp only [*] | simp [*] | simp +zetaDelta [*] | (simp_all +zetaDelta [State.kept, -kept_eta]; done))

end Sys2Proof.Machine
end

