-- ==== Sys2Proof/Laws/KeepsFw.lean ====
section
/-! SUPPORT. What the commands and events of Machine/Fw.lean keep. -/
namespace Sys2Proof.Machine

theorem execFwInfo_keeps (f : Frame) (s : State) : Keeps s (execFwInfo f s) := by
  unfold execFwInfo
  exact query_keeps

theorem execFwVerify_keeps (f : Frame) (s : State) : Keeps s (execFwVerify f s) := by
  unfold execFwVerify
  exact command_keeps (fun _ => by simp)

end Sys2Proof.Machine
end

