-- ==== Sys2Proof/Laws/KeepsResets.lean ====
section
/-! SUPPORT. What the commands and events of Machine/Resets.lean keep. -/
namespace Sys2Proof.Machine

theorem execModuleResetReady_keeps (s : State) : Keeps s (execModuleResetReady s) := by
  unfold execModuleResetReady
  exact evt_keeps (by simp)

theorem execModuleReset_keeps (f : Frame) (s : State) : Keeps s (execModuleReset f s) := by
  unfold execModuleReset
  exact command_keeps (fun _ => by simp)

theorem execRstNLow_keeps (s : State) : Keeps s (execRstNLow s) := by
  intro t h
  injection h with h
  subst h
  exact (settle_kept _).trans ((mrTrigger_kept _ _).trans (kept_svc _ _))

theorem execRstNRelease_keeps (s : State) : Keeps s (execRstNRelease s) := by
  intro t h
  injection h with h
  subst h
  rfl

theorem execCoreWake_keeps (s : State) : Keeps s (execCoreWake s) := by
  unfold execCoreWake
  exact evt_keeps (by simp)

theorem execCoreHalt_keeps (s : State) : Keeps s (execCoreHalt s) := by
  unfold execCoreHalt
  exact evt_keeps (by simp)

theorem execCoreWdog_keeps (s : State) : Keeps s (execCoreWdog s) := by
  unfold execCoreWdog
  exact evt_keeps (by simp)

theorem execCorePllLock_keeps (die : Nat) (s : State) : Keeps s (execCorePllLock die s) := by
  unfold execCorePllLock
  exact evt_keeps (by simp)

theorem execResetTarget_keeps (f : Frame) (loc : Loc) (s : State) : Keeps s (execResetTarget f loc s) := by
  unfold execResetTarget
  exact command_keeps (fun _ => by simp)

theorem execResetStatus_keeps (f : Frame) (s : State) : Keeps s (execResetStatus f s) := by
  unfold execResetStatus
  exact query_keeps

theorem execSliceDrainDone_keeps (ks : Nat) (s : State) : Keeps s (execSliceDrainDone ks s) := by
  unfold execSliceDrainDone
  refine evt_keeps ?_
  iterate 24 (all_goals try first | with_reducible rfl | with_reducible assumption | (fail_if_no_progress extract_lets -underBinder +onlyGivenNames x; first | (refine kept_via ?_ ?_ (fun hx => ?_) <;> [(with_reducible apply x; done); (dsimp -zeta only [x]; clear x); (clear_value x)]) | (refine kept_via ?_ ?_ (fun hx => ?_) <;> [(with_reducible apply Prod.fst x; done); (dsimp -zeta only [x]; clear x); (clear_value x)]) | (clear_value x)) | (with_reducible refine (kept_foldl _ _ _ ?_).trans ?_) | (with_reducible refine (kept_foldl_fst _ _ _ ?_).trans ?_) | split | (intro _ _) | simp only [*] | simp [*] | simp +zetaDelta [*] | (simp_all +zetaDelta [State.kept, -kept_eta]; done))

theorem execResetDone_keeps (loc : Loc) (s : State) : Keeps s (execResetDone loc s) := by
  unfold execResetDone
  refine evt_keeps ?_
  iterate 24 (all_goals try first | with_reducible rfl | with_reducible assumption | (fail_if_no_progress extract_lets -underBinder +onlyGivenNames x; first | (refine kept_via ?_ ?_ (fun hx => ?_) <;> [(with_reducible apply x; done); (dsimp -zeta only [x]; clear x); (clear_value x)]) | (refine kept_via ?_ ?_ (fun hx => ?_) <;> [(with_reducible apply Prod.fst x; done); (dsimp -zeta only [x]; clear x); (clear_value x)]) | (clear_value x)) | (with_reducible refine (kept_foldl _ _ _ ?_).trans ?_) | (with_reducible refine (kept_foldl_fst _ _ _ ?_).trans ?_) | split | (intro _ _) | simp only [*] | simp [*] | simp +zetaDelta [*] | (simp_all +zetaDelta [State.kept, -kept_eta]; done))

end Sys2Proof.Machine
end

