-- ==== Sys2Proof/Laws/KeepsPortCmd.lean ====
section
/-! SUPPORT. What the commands and events of Machine/PortCmd.lean keep. -/
namespace Sys2Proof.Machine

theorem execPortMapGet_keeps (f : Frame) (s : State) : Keeps s (execPortMapGet f s) := by
  unfold execPortMapGet
  exact query_keeps

theorem execPortMapCommit_keeps (f : Frame) (map : List Reg32) (s : State) : Keeps s (execPortMapCommit f map s) := by
  unfold execPortMapCommit
  exact command_keeps (fun _ => by simp)

theorem execPortEnable_keeps (f : Frame) (port : Nat) (s : State) : Keeps s (execPortEnable f port s) := by
  unfold execPortEnable
  exact command_keeps (fun _ => by simp)

theorem execPortDisable_keeps (f : Frame) (port : Nat) (s : State) : Keeps s (execPortDisable f port s) := by
  unfold execPortDisable
  exact command_keeps (fun _ => by simp)

theorem execPortStatus_keeps (f : Frame) (port : Nat) (s : State) : Keeps s (execPortStatus f port s) := by
  unfold execPortStatus
  exact query_keeps

theorem execPortSet_keeps (f : Frame) (port : Nat) (dsCpl dsFail usCpl : Option Nat) (aspm l0p contain : Option Bool) (s : State) : Keeps s (execPortSet f port dsCpl dsFail usCpl aspm l0p contain s) := by
  unfold execPortSet
  exact command_keeps (fun _ => by simp)

theorem execPortEqSet_keeps (f : Frame) (loc : Loc) (wholePort : Bool) (val : Reg32) (s : State) : Keeps s (execPortEqSet f loc wholePort val s) := by
  unfold execPortEqSet
  exact command_keeps (fun _ => by simp)

theorem execPortEqStatus_keeps (f : Frame) (loc : Loc) (s : State) : Keeps s (execPortEqStatus f loc s) := by
  unfold execPortEqStatus
  exact query_keeps

theorem execPortReset_keeps (f : Frame) (port : Nat) (s : State) : Keeps s (execPortReset f port s) := by
  unfold execPortReset
  exact command_keeps (fun _ => by simp)

theorem execPortBlockRead_keeps (f : Frame) (loc : Loc) (reg : Nat) (s : State) : Keeps s (execPortBlockRead f loc reg s) := by
  unfold execPortBlockRead
  exact query_keeps

theorem execPortBlockWrite_keeps (f : Frame) (loc : Loc) (reg val : Nat) (s : State) : Keeps s (execPortBlockWrite f loc reg val s) := by
  unfold execPortBlockWrite
  exact command_keeps (fun _ => by simp)

end Sys2Proof.Machine
end

