-- ==== Sys2Proof/Laws/KeepsPoolCmd.lean ====
section
/-! SUPPORT. What the commands and events of Machine/PoolCmd.lean keep. -/
namespace Sys2Proof.Machine

theorem execPoolAddPartner_keeps (f : Frame) (port : Nat) (s : State) : Keeps s (execPoolAddPartner f port s) := by
  unfold execPoolAddPartner
  exact command_keeps (fun _ => by simp)

theorem execScrubDone_keeps (ext : Nat) (s : State) : Keeps s (execScrubDone ext s) := by
  unfold execScrubDone
  refine evt_keeps ?_
  iterate 24 (all_goals try first | with_reducible rfl | with_reducible assumption | (fail_if_no_progress extract_lets -underBinder +onlyGivenNames x; first | (refine kept_via ?_ ?_ (fun hx => ?_) <;> [(with_reducible apply x; done); (dsimp -zeta only [x]; clear x); (clear_value x)]) | (refine kept_via ?_ ?_ (fun hx => ?_) <;> [(with_reducible apply Prod.fst x; done); (dsimp -zeta only [x]; clear x); (clear_value x)]) | (clear_value x)) | (with_reducible refine (kept_foldl _ _ _ ?_).trans ?_) | (with_reducible refine (kept_foldl_fst _ _ _ ?_).trans ?_) | split | (intro _ _) | simp only [*] | simp [*] | simp +zetaDelta [*] | (simp_all +zetaDelta [State.kept, -kept_eta]; done))

theorem execPoolStatus_keeps (f : Frame) (s : State) : Keeps s (execPoolStatus f s) := by
  unfold execPoolStatus
  exact query_keeps

theorem execPoolExtentRevalidate_keeps (f : Frame) (ext count : Nat) (s : State) : Keeps s (execPoolExtentRevalidate f ext count s) := by
  unfold execPoolExtentRevalidate
  refine command_keeps (fun t => ?_)
  iterate 24 (all_goals try first | with_reducible rfl | with_reducible assumption | (fail_if_no_progress extract_lets -underBinder +onlyGivenNames x; first | (refine kept_via ?_ ?_ (fun hx => ?_) <;> [(with_reducible apply x; done); (dsimp -zeta only [x]; clear x); (clear_value x)]) | (refine kept_via ?_ ?_ (fun hx => ?_) <;> [(with_reducible apply Prod.fst x; done); (dsimp -zeta only [x]; clear x); (clear_value x)]) | (clear_value x)) | (with_reducible refine (kept_foldl _ _ _ ?_).trans ?_) | (with_reducible refine (kept_foldl_fst _ _ _ ?_).trans ?_) | split | (intro _ _) | simp only [*] | simp [*] | simp +zetaDelta [*] | (simp_all +zetaDelta [State.kept, -kept_eta]; done))

theorem execPoolExtentRelease_keeps (f : Frame) (ext count : Nat) (s : State) : Keeps s (execPoolExtentRelease f ext count s) := by
  unfold execPoolExtentRelease
  refine command_keeps (fun t => ?_)
  iterate 24 (all_goals try first | with_reducible rfl | with_reducible assumption | (fail_if_no_progress extract_lets -underBinder +onlyGivenNames x; first | (refine kept_via ?_ ?_ (fun hx => ?_) <;> [(with_reducible apply x; done); (dsimp -zeta only [x]; clear x); (clear_value x)]) | (refine kept_via ?_ ?_ (fun hx => ?_) <;> [(with_reducible apply Prod.fst x; done); (dsimp -zeta only [x]; clear x); (clear_value x)]) | (clear_value x)) | (with_reducible refine (kept_foldl _ _ _ ?_).trans ?_) | (with_reducible refine (kept_foldl_fst _ _ _ ?_).trans ?_) | split | (intro _ _) | simp only [*] | simp [*] | simp +zetaDelta [*] | (simp_all +zetaDelta [State.kept, -kept_eta]; done))

theorem execPoolAlloc_keeps (f : Frame) (module count : Nat) (s : State) : Keeps s (execPoolAlloc f module count s) := by
  unfold execPoolAlloc
  refine command_keeps (fun t => ?_)
  iterate 24 (all_goals try first | with_reducible rfl | with_reducible assumption | (fail_if_no_progress extract_lets -underBinder +onlyGivenNames x; first | (refine kept_via ?_ ?_ (fun hx => ?_) <;> [(with_reducible apply x; done); (dsimp -zeta only [x]; clear x); (clear_value x)]) | (refine kept_via ?_ ?_ (fun hx => ?_) <;> [(with_reducible apply Prod.fst x; done); (dsimp -zeta only [x]; clear x); (clear_value x)]) | (clear_value x)) | (with_reducible refine (kept_foldl _ _ _ ?_).trans ?_) | (with_reducible refine (kept_foldl_fst _ _ _ ?_).trans ?_) | split | (intro _ _) | simp only [*] | simp [*] | simp +zetaDelta [*] | (simp_all +zetaDelta [State.kept, -kept_eta]; done))

theorem execPoolSpillSet_keeps (f : Frame) (base size high low : Nat) (en : Bool) (s : State) : Keeps s (execPoolSpillSet f base size high low en s) := by
  unfold execPoolSpillSet
  refine command_keeps (fun t => ?_)
  dsimp only
  split
  · exact (bindGen_kept _).trans (kept_xbar _ _)
  refine (bindGen_kept _).trans ((kept_xbar _ _).trans ((kept_foldl _ _ _ (fun _ _ => by simp)).trans (kept_foldl _ _ _ (fun _ _ => by simp))))

theorem execHomeModuleRequest_keeps (tp kind ext count : Nat) (s : State) : Keeps s (execHomeModuleRequest tp kind ext count s) := by
  unfold execHomeModuleRequest
  refine evt_keeps ?_
  iterate 24 (all_goals try first | with_reducible rfl | with_reducible assumption | (fail_if_no_progress extract_lets -underBinder +onlyGivenNames x; first | (refine kept_via ?_ ?_ (fun hx => ?_) <;> [(with_reducible apply x; done); (dsimp -zeta only [x]; clear x); (clear_value x)]) | (refine kept_via ?_ ?_ (fun hx => ?_) <;> [(with_reducible apply Prod.fst x; done); (dsimp -zeta only [x]; clear x); (clear_value x)]) | skip) | (with_reducible refine (kept_foldl _ _ _ ?_).trans ?_) | (with_reducible refine (kept_foldl_fst _ _ _ ?_).trans ?_) | split | (intro _ _) | simp only [*] | simp [*] | simp +zetaDelta [*] | (simp_all +zetaDelta [State.kept, -kept_eta]; done))

end Sys2Proof.Machine
end

