-- ==== Sys2Proof/Laws/KeepsPortEvt.lean ====
section
/-! SUPPORT. What the commands and events of Machine/PortEvt.lean keep. -/
namespace Sys2Proof.Machine

theorem execArrive_keeps (port : Nat) (s : State) : Keeps s (execArrive port s) := by
  unfold execArrive
  refine evt_keeps ?_
  iterate 24 (all_goals try first | with_reducible rfl | with_reducible assumption | (fail_if_no_progress extract_lets -underBinder +onlyGivenNames x; first | (refine kept_via ?_ ?_ (fun hx => ?_) <;> [(with_reducible apply x; done); (dsimp -zeta only [x]; clear x); (clear_value x)]) | (refine kept_via ?_ ?_ (fun hx => ?_) <;> [(with_reducible apply Prod.fst x; done); (dsimp -zeta only [x]; clear x); (clear_value x)]) | (clear_value x)) | (with_reducible refine (kept_foldl _ _ _ ?_).trans ?_) | (with_reducible refine (kept_foldl_fst _ _ _ ?_).trans ?_) | split | (intro _ _) | simp only [*] | simp [*] | simp +zetaDelta [*] | (simp_all +zetaDelta [State.kept, -kept_eta]; done))

theorem execSpdmSessionComplete_keeps (port cert : Nat) (lastTick : Bool) (s : State) : Keeps s (execSpdmSessionComplete port cert lastTick s) := by
  unfold execSpdmSessionComplete
  refine evt_keeps ?_
  iterate 24 (all_goals try first | with_reducible rfl | with_reducible assumption | (fail_if_no_progress extract_lets -underBinder +onlyGivenNames x; first | (refine kept_via ?_ ?_ (fun hx => ?_) <;> [(with_reducible apply x; done); (dsimp -zeta only [x]; clear x); (clear_value x)]) | (refine kept_via ?_ ?_ (fun hx => ?_) <;> [(with_reducible apply Prod.fst x; done); (dsimp -zeta only [x]; clear x); (clear_value x)]) | (clear_value x)) | (with_reducible refine (kept_foldl _ _ _ ?_).trans ?_) | (with_reducible refine (kept_foldl_fst _ _ _ ?_).trans ?_) | split | (intro _ _) | simp only [*] | simp [*] | simp +zetaDelta [*] | (simp_all +zetaDelta [State.kept, -kept_eta]; done))

theorem execDepartureSweepDone_keeps (port : Nat) (s : State) : Keeps s (execDepartureSweepDone port s) := by
  unfold execDepartureSweepDone
  exact evt_keeps (by simp)

theorem execDepartureTimerExpiry_keeps (port : Nat) (s : State) : Keeps s (execDepartureTimerExpiry port s) := by
  unfold execDepartureTimerExpiry
  refine evt_keeps ?_
  iterate 24 (all_goals try first | with_reducible rfl | with_reducible assumption | (fail_if_no_progress extract_lets -underBinder +onlyGivenNames x; first | (refine kept_via ?_ ?_ (fun hx => ?_) <;> [(with_reducible apply x; done); (dsimp -zeta only [x]; clear x); (clear_value x)]) | (refine kept_via ?_ ?_ (fun hx => ?_) <;> [(with_reducible apply Prod.fst x; done); (dsimp -zeta only [x]; clear x); (clear_value x)]) | (clear_value x)) | (with_reducible refine (kept_foldl _ _ _ ?_).trans ?_) | (with_reducible refine (kept_foldl_fst _ _ _ ?_).trans ?_) | split | (intro _ _) | simp only [*] | simp [*] | simp +zetaDelta [*] | (simp_all +zetaDelta [State.kept, -kept_eta]; done))

theorem execPerstNLow_keeps (grp : Nat) (s : State) : Keeps s (execPerstNLow grp s) := by
  unfold execPerstNLow
  refine evt_keeps ?_
  iterate 24 (all_goals try first | with_reducible rfl | with_reducible assumption | (fail_if_no_progress extract_lets -underBinder +onlyGivenNames x; first | (refine kept_via ?_ ?_ (fun hx => ?_) <;> [(with_reducible apply x; done); (dsimp -zeta only [x]; clear x); (clear_value x)]) | (refine kept_via ?_ ?_ (fun hx => ?_) <;> [(with_reducible apply Prod.fst x; done); (dsimp -zeta only [x]; clear x); (clear_value x)]) | (clear_value x)) | (with_reducible refine (kept_foldl _ _ _ ?_).trans ?_) | (with_reducible refine (kept_foldl_fst _ _ _ ?_).trans ?_) | split | (intro _ _) | simp only [*] | simp [*] | simp +zetaDelta [*] | (simp_all +zetaDelta [State.kept, -kept_eta]; done))

theorem execPerstNRelease_keeps (grp : Nat) (s : State) : Keeps s (execPerstNRelease grp s) := by
  unfold execPerstNRelease
  exact evt_keeps (by simp)

theorem execPerstReleaseTimer_keeps (grp : Nat) (s : State) : Keeps s (execPerstReleaseTimer grp s) := by
  unfold execPerstReleaseTimer
  exact evt_keeps (by simp)

theorem execRefclkStable_keeps (k : Nat) (s : State) : Keeps s (execRefclkStable k s) := by
  unfold execRefclkStable
  exact evt_keeps (by simp)

theorem execRefclkLoss_keeps (k : Nat) (s : State) : Keeps s (execRefclkLoss k s) := by
  unfold execRefclkLoss
  refine evt_keeps ?_
  iterate 24 (all_goals try first | with_reducible rfl | with_reducible assumption | (fail_if_no_progress extract_lets -underBinder +onlyGivenNames x; first | (refine kept_via ?_ ?_ (fun hx => ?_) <;> [(with_reducible apply x; done); (dsimp -zeta only [x]; clear x); (clear_value x)]) | (refine kept_via ?_ ?_ (fun hx => ?_) <;> [(with_reducible apply Prod.fst x; done); (dsimp -zeta only [x]; clear x); (clear_value x)]) | (clear_value x)) | (with_reducible refine (kept_foldl _ _ _ ?_).trans ?_) | (with_reducible refine (kept_foldl_fst _ _ _ ?_).trans ?_) | split | (intro _ _) | simp only [*] | simp [*] | simp +zetaDelta [*] | (simp_all +zetaDelta [State.kept, -kept_eta]; done))

theorem execRefclkReturn_keeps (k : Nat) (s : State) : Keeps s (execRefclkReturn k s) := by
  unfold execRefclkReturn
  exact evt_keeps (by simp)

theorem execReceiverDetect_keeps (port : Nat) (found : Bool) (s : State) : Keeps s (execReceiverDetect port found s) := by
  unfold execReceiverDetect
  exact evt_keeps (by simp)

theorem execLinkUp_keeps (port : Nat) (lanes : LinkLanes) (rate : Nat) (pid : PartnerId) (s : State) : Keeps s (execLinkUp port lanes rate pid s) := by
  unfold execLinkUp
  exact evt_keeps (by simp)

theorem execIdeEstablished_keeps (port : Nat) (s : State) : Keeps s (execIdeEstablished port s) := by
  unfold execIdeEstablished
  exact evt_keeps (by simp)

theorem execMemoryActive_keeps (port capacity : Nat) (s : State) : Keeps s (execMemoryActive port capacity s) := by
  unfold execMemoryActive
  exact evt_keeps (by simp)

theorem execMemoryActiveTimeout_keeps (port : Nat) (s : State) : Keeps s (execMemoryActiveTimeout port s) := by
  unfold execMemoryActiveTimeout
  exact evt_keeps (by simp)

theorem execLinkL1Entry_keeps (x : IdleOp) (s : State) : Keeps s (execLinkL1Entry x s) := by
  unfold execLinkL1Entry
  exact evt_keeps (by simp)

theorem execLinkL1Exit_keeps (port : Nat) (s : State) : Keeps s (execLinkL1Exit port s) := by
  unfold execLinkL1Exit
  exact evt_keeps (by simp)

theorem execLinkDown_keeps (port cause : Nat) (s : State) : Keeps s (execLinkDown port cause s) := by
  unfold execLinkDown
  exact evt_keeps (by simp)

theorem execLinkLevelReset_keeps (port : Nat) (s : State) : Keeps s (execLinkLevelReset port s) := by
  unfold execLinkLevelReset
  exact evt_keeps (by simp)

theorem execIdeIntegrityFailure_keeps (port : Nat) (s : State) : Keeps s (execIdeIntegrityFailure port s) := by
  unfold execIdeIntegrityFailure
  exact evt_keeps (by simp)

theorem execDsCplTimeout_keeps (port fpa : Nat) (s : State) : Keeps s (execDsCplTimeout port fpa s) := by
  unfold execDsCplTimeout
  refine evt_keeps ?_
  iterate 24 (all_goals try first | with_reducible rfl | with_reducible assumption | (fail_if_no_progress extract_lets -underBinder +onlyGivenNames x; first | (refine kept_via ?_ ?_ (fun hx => ?_) <;> [(with_reducible apply x; done); (dsimp -zeta only [x]; clear x); (clear_value x)]) | (refine kept_via ?_ ?_ (fun hx => ?_) <;> [(with_reducible apply Prod.fst x; done); (dsimp -zeta only [x]; clear x); (clear_value x)]) | (clear_value x)) | (with_reducible refine (kept_foldl _ _ _ ?_).trans ?_) | (with_reducible refine (kept_foldl_fst _ _ _ ?_).trans ?_) | split | (intro _ _) | simp only [*] | simp [*] | simp +zetaDelta [*] | (simp_all +zetaDelta [State.kept, -kept_eta]; done))

theorem execUsCplTimeout_keeps (port fpa : Nat) (s : State) : Keeps s (execUsCplTimeout port fpa s) := by
  unfold execUsCplTimeout
  refine evt_keeps ?_
  iterate 24 (all_goals try first | with_reducible rfl | with_reducible assumption | (fail_if_no_progress extract_lets -underBinder +onlyGivenNames x; first | (refine kept_via ?_ ?_ (fun hx => ?_) <;> [(with_reducible apply x; done); (dsimp -zeta only [x]; clear x); (clear_value x)]) | (refine kept_via ?_ ?_ (fun hx => ?_) <;> [(with_reducible apply Prod.fst x; done); (dsimp -zeta only [x]; clear x); (clear_value x)]) | (clear_value x)) | (with_reducible refine (kept_foldl _ _ _ ?_).trans ?_) | (with_reducible refine (kept_foldl_fst _ _ _ ?_).trans ?_) | split | (intro _ _) | simp only [*] | simp [*] | simp +zetaDelta [*] | (simp_all +zetaDelta [State.kept, -kept_eta]; done))

end Sys2Proof.Machine
end

