-- ==== Sys2Proof/Laws/KeepsCross.lean ====
section
/-! SUPPORT. What the commands and events of Machine/Cross.lean keep. -/
namespace Sys2Proof.Machine

theorem execReseqHole_keeps (src dst cls : Nat) (s : State) : Keeps s (execReseqHole src dst cls s) := by
  unfold execReseqHole
  exact evt_keeps (by simp)

theorem execPlaneIdleGate_keeps (plane : Nat) (s : State) : Keeps s (execPlaneIdleGate plane s) := by
  unfold execPlaneIdleGate
  exact evt_keeps (by simp)

theorem execPlaneUngate_keeps (plane : Nat) (s : State) : Keeps s (execPlaneUngate plane s) := by
  unfold execPlaneUngate
  exact evt_keeps (by simp)

theorem execSpillReadBack_keeps (point : Nat) (s : State) : Keeps s (execSpillReadBack point s) := by
  unfold execSpillReadBack
  exact evt_keeps (by simp)

theorem execArbRequest_keeps (port req : Nat) (write : Bool) (units : Nat) (s : State) : Keeps s (execArbRequest port req write units s) := by
  unfold execArbRequest
  exact evt_keeps (by simp)

theorem execArbGrant_keeps (port : Nat) (s : State) : Keeps s (execArbGrant port s) := by
  unfold execArbGrant
  refine evt_keeps ?_
  iterate 24 (all_goals try first | with_reducible rfl | with_reducible assumption | (fail_if_no_progress extract_lets -underBinder +onlyGivenNames x; first | (refine kept_via ?_ ?_ (fun hx => ?_) <;> [(with_reducible apply x; done); (dsimp -zeta only [x]; clear x); (clear_value x)]) | (refine kept_via ?_ ?_ (fun hx => ?_) <;> [(with_reducible apply Prod.fst x; done); (dsimp -zeta only [x]; clear x); (clear_value x)]) | (clear_value x)) | (with_reducible refine (kept_foldl _ _ _ ?_).trans ?_) | (with_reducible refine (kept_foldl_fst _ _ _ ?_).trans ?_) | split | (intro _ _) | simp only [*] | simp [*] | simp +zetaDelta [*] | (simp_all +zetaDelta [State.kept, -kept_eta]; done))

theorem execArbHandoffDone_keeps (port : Nat) (s : State) : Keeps s (execArbHandoffDone port s) := by
  unfold execArbHandoffDone
  refine evt_keeps ?_
  iterate 24 (all_goals try first | with_reducible rfl | with_reducible assumption | (fail_if_no_progress extract_lets -underBinder +onlyGivenNames x; first | (refine kept_via ?_ ?_ (fun hx => ?_) <;> [(with_reducible apply x; done); (dsimp -zeta only [x]; clear x); (clear_value x)]) | (refine kept_via ?_ ?_ (fun hx => ?_) <;> [(with_reducible apply Prod.fst x; done); (dsimp -zeta only [x]; clear x); (clear_value x)]) | (clear_value x)) | (with_reducible refine (kept_foldl _ _ _ ?_).trans ?_) | (with_reducible refine (kept_foldl_fst _ _ _ ?_).trans ?_) | split | (intro _ _) | simp only [*] | simp [*] | simp +zetaDelta [*] | (simp_all +zetaDelta [State.kept, -kept_eta]; done))

theorem execArbHold_keeps (port : Nat) (s : State) : Keeps s (execArbHold port s) := by
  unfold execArbHold
  refine evt_keeps ?_
  iterate 24 (all_goals try first | with_reducible rfl | with_reducible assumption | (fail_if_no_progress extract_lets -underBinder +onlyGivenNames x; first | (refine kept_via ?_ ?_ (fun hx => ?_) <;> [(with_reducible apply x; done); (dsimp -zeta only [x]; clear x); (clear_value x)]) | (refine kept_via ?_ ?_ (fun hx => ?_) <;> [(with_reducible apply Prod.fst x; done); (dsimp -zeta only [x]; clear x); (clear_value x)]) | (clear_value x)) | (with_reducible refine (kept_foldl _ _ _ ?_).trans ?_) | (with_reducible refine (kept_foldl_fst _ _ _ ?_).trans ?_) | split | (intro _ _) | simp only [*] | simp [*] | simp +zetaDelta [*] | (simp_all +zetaDelta [State.kept, -kept_eta]; done))

theorem execArbMask_keeps (port req : Nat) (s : State) : Keeps s (execArbMask port req s) := by
  unfold execArbMask
  exact evt_keeps (by simp)

theorem execArbUnmask_keeps (port req : Nat) (s : State) : Keeps s (execArbUnmask port req s) := by
  unfold execArbUnmask
  exact evt_keeps (by simp)

theorem execArbParkTimeout_keeps (port req : Nat) (s : State) : Keeps s (execArbParkTimeout port req s) := by
  unfold execArbParkTimeout
  refine evt_keeps ?_
  iterate 24 (all_goals try first | with_reducible rfl | with_reducible assumption | (fail_if_no_progress extract_lets -underBinder +onlyGivenNames x; first | (refine kept_via ?_ ?_ (fun hx => ?_) <;> [(with_reducible apply x; done); (dsimp -zeta only [x]; clear x); (clear_value x)]) | (refine kept_via ?_ ?_ (fun hx => ?_) <;> [(with_reducible apply Prod.fst x; done); (dsimp -zeta only [x]; clear x); (clear_value x)]) | (clear_value x)) | (with_reducible refine (kept_foldl _ _ _ ?_).trans ?_) | (with_reducible refine (kept_foldl_fst _ _ _ ?_).trans ?_) | split | (intro _ _) | simp only [*] | simp [*] | simp +zetaDelta [*] | (simp_all +zetaDelta [State.kept, -kept_eta]; done))

theorem execScrubPatrol_keeps (die port : Nat) (s : State) : Keeps s (execScrubPatrol die port s) := by
  unfold execScrubPatrol
  exact evt_keeps (by simp)

end Sys2Proof.Machine
end

