-- ==== Sys2Proof/Laws/KeepsCoherence.lean ====
section
/-! SUPPORT. What the commands and events of Machine/Coherence.lean keep. -/
namespace Sys2Proof.Machine

theorem execRds_keeps (r : ReqOp) (s : State) : Keeps s (execRds r s) := by
  exact execReq_keeps _ _ _

theorem execRdx_keeps (r : ReqOp) (s : State) : Keeps s (execRdx r s) := by
  exact execReq_keeps _ _ _

theorem execUpg_keeps (r : ReqOp) (s : State) : Keeps s (execUpg r s) := by
  exact execReq_keeps _ _ _

theorem execWrinvfull_keeps (r : ReqOp) (s : State) : Keeps s (execWrinvfull r s) := by
  exact execReq_keeps _ _ _

theorem execWrinvpart_keeps (r : ReqOp) (s : State) : Keeps s (execWrinvpart r s) := by
  exact execReq_keeps _ _ _

theorem execEvict_keeps (r : ReqOp) (s : State) : Keeps s (execEvict r s) := by
  exact execReq_keeps _ _ _

theorem execRspi_keeps (m : MsgOp) (s : State) : Keeps s (execRspi m s) := by
  exact execRsp_keeps _ _ _

theorem execRsps_keeps (m : MsgOp) (s : State) : Keeps s (execRsps m s) := by
  exact execRsp_keeps _ _ _

theorem execRspo_keeps (m : MsgOp) (s : State) : Keeps s (execRspo m s) := by
  exact execRsp_keeps _ _ _

theorem execRspwbpend_keeps (m : MsgOp) (s : State) : Keeps s (execRspwbpend m s) := by
  exact execRsp_keeps _ _ _

theorem execDatas_keeps (m : MsgOp) (s : State) : Keeps s (execDatas m s) := by
  exact execDat_keeps _ _ _ _

theorem execDatae_keeps (m : MsgOp) (s : State) : Keeps s (execDatae m s) := by
  exact execDat_keeps _ _ _ _

theorem execDatam_keeps (m : MsgOp) (s : State) : Keeps s (execDatam m s) := by
  exact execDat_keeps _ _ _ _

theorem execDatao_keeps (m : MsgOp) (s : State) : Keeps s (execDatao m s) := by
  exact execDat_keeps _ _ _ _

theorem execConflictQueueResume_keeps (ks fpa : Nat) (s : State) : Keeps s (execConflictQueueResume ks fpa s) := by
  unfold execConflictQueueResume
  refine evt_keeps ?_
  iterate 24 (all_goals try first | with_reducible rfl | with_reducible assumption | (fail_if_no_progress extract_lets -underBinder +onlyGivenNames x; first | (refine kept_via ?_ ?_ (fun hx => ?_) <;> [(with_reducible apply x; done); (dsimp -zeta only [x]; clear x); (clear_value x)]) | (refine kept_via ?_ ?_ (fun hx => ?_) <;> [(with_reducible apply Prod.fst x; done); (dsimp -zeta only [x]; clear x); (clear_value x)]) | (clear_value x)) | (with_reducible refine (kept_foldl _ _ _ ?_).trans ?_) | (with_reducible refine (kept_foldl_fst _ _ _ ?_).trans ?_) | split | (intro _ _) | simp only [*] | simp [*] | simp +zetaDelta [*] | (simp_all +zetaDelta [State.kept, -kept_eta]; done))

theorem execSnoopTimeout_keeps (fpa : Nat) (holder : Agent) (s : State) : Keeps s (execSnoopTimeout fpa holder s) := by
  unfold execSnoopTimeout
  refine evt_keeps ?_
  iterate 24 (all_goals try first | with_reducible rfl | with_reducible assumption | (fail_if_no_progress extract_lets -underBinder +onlyGivenNames x; first | (refine kept_via ?_ ?_ (fun hx => ?_) <;> [(with_reducible apply x; done); (dsimp -zeta only [x]; clear x); (clear_value x)]) | (refine kept_via ?_ ?_ (fun hx => ?_) <;> [(with_reducible apply Prod.fst x; done); (dsimp -zeta only [x]; clear x); (clear_value x)]) | (clear_value x)) | (with_reducible refine (kept_foldl _ _ _ ?_).trans ?_) | (with_reducible refine (kept_foldl_fst _ _ _ ?_).trans ?_) | split | (intro _ _) | simp only [*] | simp [*] | simp +zetaDelta [*] | (simp_all +zetaDelta [State.kept, -kept_eta]; done))

end Sys2Proof.Machine
end

