-- ==== Sys2Proof/Laws/KeepsDmaCmd.lean ====
section
/-! SUPPORT. What the commands and events of Machine/DmaCmd.lean keep. -/
namespace Sys2Proof.Machine

theorem execDmaChSet_keeps (f : Frame) (ch : Nat) (slice prio share wdog : Option Nat) (s : State) : Keeps s (execDmaChSet f ch slice prio share wdog s) := by
  unfold execDmaChSet
  exact command_keeps (fun _ => by simp)

theorem execDmaRingAssign_keeps (f : Frame) (ring ch slot sqBase sqLog cq cqBase cqLog vec : Nat) (s : State) : Keeps s (execDmaRingAssign f ring ch slot sqBase sqLog cq cqBase cqLog vec s) := by
  unfold execDmaRingAssign
  exact command_keeps (fun _ => by simp)

theorem execDmaRingRelease_keeps (f : Frame) (ring : Nat) (s : State) : Keeps s (execDmaRingRelease f ring s) := by
  unfold execDmaRingRelease
  exact command_keeps (fun _ => by simp)

theorem execDmaStatus_keeps (f : Frame) (slice : Nat) (s : State) : Keeps s (execDmaStatus f slice s) := by
  unfold execDmaStatus
  refine commandR_keeps (fun _ _ t => ?_)
  iterate 24 (all_goals try first | with_reducible rfl | with_reducible assumption | (fail_if_no_progress extract_lets -underBinder +onlyGivenNames x; first | (refine kept_via ?_ ?_ (fun hx => ?_) <;> [(with_reducible apply x; done); (dsimp -zeta only [x]; clear x); (clear_value x)]) | (refine kept_via ?_ ?_ (fun hx => ?_) <;> [(with_reducible apply Prod.fst x; done); (dsimp -zeta only [x]; clear x); (clear_value x)]) | (clear_value x)) | (with_reducible refine (kept_foldl _ _ _ ?_).trans ?_) | (with_reducible refine (kept_foldl_fst _ _ _ ?_).trans ?_) | split | (intro _ _) | simp only [*] | simp [*] | simp +zetaDelta [*] | (simp_all +zetaDelta [State.kept, -kept_eta]; done))

theorem execDmaAliasSet_keeps (f : Frame) (win : Nat) (dfn : Option WinDef) (s : State) : Keeps s (execDmaAliasSet f win dfn s) := by
  unfold execDmaAliasSet
  refine command_keeps (fun t => ?_)
  iterate 24 (all_goals try first | with_reducible rfl | with_reducible assumption | (fail_if_no_progress extract_lets -underBinder +onlyGivenNames x; first | (refine kept_via ?_ ?_ (fun hx => ?_) <;> [(with_reducible apply x; done); (dsimp -zeta only [x]; clear x); (clear_value x)]) | (refine kept_via ?_ ?_ (fun hx => ?_) <;> [(with_reducible apply Prod.fst x; done); (dsimp -zeta only [x]; clear x); (clear_value x)]) | (clear_value x)) | (with_reducible refine (kept_foldl _ _ _ ?_).trans ?_) | (with_reducible refine (kept_foldl_fst _ _ _ ?_).trans ?_) | split | (intro _ _) | simp only [*] | simp [*] | simp +zetaDelta [*] | (simp_all +zetaDelta [State.kept, -kept_eta]; done))

theorem execDmaAliasStatus_keeps (f : Frame) (win : Nat) (s : State) : Keeps s (execDmaAliasStatus f win s) := by
  unfold execDmaAliasStatus
  exact query_keeps

theorem execDmaSqDb_keeps (ring tail : Nat) (s : State) : Keeps s (execDmaSqDb ring tail s) := by
  unfold execDmaSqDb
  exact evt_keeps (by simp)

theorem execDmaCqDb_keeps (ring head : Nat) (s : State) : Keeps s (execDmaCqDb ring head s) := by
  unfold execDmaCqDb
  exact evt_keeps (by simp)

theorem execDmaRingCtlEn_keeps (ring : Nat) (en : Bool) (s : State) : Keeps s (execDmaRingCtlEn ring en s) := by
  unfold execDmaRingCtlEn
  exact evt_keeps (by simp)

theorem execDmaRingCtlAbort_keeps (ring : Nat) (s : State) : Keeps s (execDmaRingCtlAbort ring s) := by
  unfold execDmaRingCtlAbort
  exact evt_keeps (by simp)

theorem execChStop_keeps (ch : Nat) (stop : Bool) (s : State) : Keeps s (execChStop ch stop s) := by
  unfold execChStop
  exact evt_keeps (by simp)

end Sys2Proof.Machine
end

