-- ==== Sys2Proof/Laws/KeepsFaultCmd.lean ====
section
/-! SUPPORT. What the commands and events of Machine/FaultCmd.lean keep. -/
namespace Sys2Proof.Machine

theorem execFaultLogGet_keeps (f : Frame) (fromSeq count : Nat) (s : State) : Keeps s (execFaultLogGet f fromSeq count s) := by
  unfold execFaultLogGet
  exact query_keeps

theorem execFaultStatus_keeps (f : Frame) (s : State) : Keeps s (execFaultStatus f s) := by
  unfold execFaultStatus
  exact query_keeps

theorem execFaultReactionSet_keeps (f : Frame) (byClass : Bool) (code : Nat) (pat : Loc) (action : Option Nat) (irq : Bool) (idx : Nat) (del : Bool) (s : State) : Keeps s (execFaultReactionSet f byClass code pat action irq idx del s) := by
  unfold execFaultReactionSet
  exact command_keeps (fun _ => by simp)

theorem execReactionDryrun_keeps (f : Frame) (byClass : Bool) (code : Nat) (loc : Loc) (s : State) : Keeps s (execReactionDryrun f byClass code loc s) := by
  unfold execReactionDryrun
  exact query_keeps

theorem execFaultLogClear_keeps (f : Frame) (s : State) : Keeps s (execFaultLogClear f s) := by
  unfold execFaultLogClear
  exact command_keeps (fun _ => by simp)

theorem execAliveSet_keeps (f : Frame) (hz : Nat) (s : State) : Keeps s (execAliveSet f hz s) := by
  unfold execAliveSet
  exact command_keeps (fun _ => by simp)

theorem execFaultReport_keeps (code : Nat) (loc : Loc) (detail : Reg32) (port : Nat) (s : State) : Keeps s (execFaultReport code loc detail port s) := by
  unfold execFaultReport
  exact evt_keeps (by simp)

theorem execWire_keeps (loc : Loc) (source : Nat) (s : State) : Keeps s (execWire loc source s) := by
  unfold execWire
  exact evt_keeps (by simp)

theorem execReactionWindowClose_keeps (loc : Loc) (s : State) : Keeps s (execReactionWindowClose loc s) := by
  unfold execReactionWindowClose
  exact evt_keeps (by simp)

end Sys2Proof.Machine
end

