-- ==== Sys2Proof/Laws/KeepsShapeCmd.lean ====
section
/-! SUPPORT. What the commands and events of Machine/ShapeCmd.lean keep. -/
namespace Sys2Proof.Machine

theorem execChargeProceed_keeps (agg : Bool) (slice bkt : Nat) (s : State) : Keeps s (execChargeProceed agg slice bkt s) := by
  unfold execChargeProceed
  refine evt_keeps ?_
  iterate 24 (all_goals try first | with_reducible rfl | with_reducible assumption | (fail_if_no_progress extract_lets -underBinder +onlyGivenNames x; first | (refine kept_via ?_ ?_ (fun hx => ?_) <;> [(with_reducible apply x; done); (dsimp -zeta only [x]; clear x); (clear_value x)]) | (refine kept_via ?_ ?_ (fun hx => ?_) <;> [(with_reducible apply Prod.fst x; done); (dsimp -zeta only [x]; clear x); (clear_value x)]) | (clear_value x)) | (with_reducible refine (kept_foldl _ _ _ ?_).trans ?_) | (with_reducible refine (kept_foldl_fst _ _ _ ?_).trans ?_) | split | (intro _ _) | simp only [*] | simp [*] | simp +zetaDelta [*] | (simp_all +zetaDelta [State.kept, -kept_eta]; done))

theorem execShapingQueueEntry_keeps (port : Nat) (s : State) : Keeps s (execShapingQueueEntry port s) := by
  unfold execShapingQueueEntry
  refine evt_keeps ?_
  iterate 24 (all_goals try first | with_reducible rfl | with_reducible assumption | (fail_if_no_progress extract_lets -underBinder +onlyGivenNames x; first | (refine kept_via ?_ ?_ (fun hx => ?_) <;> [(with_reducible apply x; done); (dsimp -zeta only [x]; clear x); (clear_value x)]) | (refine kept_via ?_ ?_ (fun hx => ?_) <;> [(with_reducible apply Prod.fst x; done); (dsimp -zeta only [x]; clear x); (clear_value x)]) | (clear_value x)) | (with_reducible refine (kept_foldl _ _ _ ?_).trans ?_) | (with_reducible refine (kept_foldl_fst _ _ _ ?_).trans ?_) | split | (intro _ _) | simp only [*] | simp [*] | simp +zetaDelta [*] | (simp_all +zetaDelta [State.kept, -kept_eta]; done))

theorem execShapeBktSet_keeps (f : Frame) (agg : Bool) (slice bkt : Nat) (cfg : Reg64) (s : State) : Keeps s (execShapeBktSet f agg slice bkt cfg s) := by
  unfold execShapeBktSet
  exact command_keeps (fun _ => by simp)

theorem execShapeBktGet_keeps (f : Frame) (agg : Bool) (slice bkt : Nat) (s : State) : Keeps s (execShapeBktGet f agg slice bkt s) := by
  unfold execShapeBktGet
  refine commandR_keeps (fun _ _ t => ?_)
  iterate 24 (all_goals try first | with_reducible rfl | with_reducible assumption | (fail_if_no_progress extract_lets -underBinder +onlyGivenNames x; first | (refine kept_via ?_ ?_ (fun hx => ?_) <;> [(with_reducible apply x; done); (dsimp -zeta only [x]; clear x); (clear_value x)]) | (refine kept_via ?_ ?_ (fun hx => ?_) <;> [(with_reducible apply Prod.fst x; done); (dsimp -zeta only [x]; clear x); (clear_value x)]) | (clear_value x)) | (with_reducible refine (kept_foldl _ _ _ ?_).trans ?_) | (with_reducible refine (kept_foldl_fst _ _ _ ?_).trans ?_) | split | (intro _ _) | simp only [*] | simp [*] | simp +zetaDelta [*] | (simp_all +zetaDelta [State.kept, -kept_eta]; done))

theorem execShapeStatus_keeps (f : Frame) (s : State) : Keeps s (execShapeStatus f s) := by
  unfold execShapeStatus
  exact query_keeps

theorem execGateListSet_keeps (f : Frame) (point : Nat) (ctl base : Reg64) (entries : List Reg32) (s : State) : Keeps s (execGateListSet f point ctl base entries s) := by
  unfold execGateListSet
  exact command_keeps (fun _ => by simp)

theorem execGateCommit_keeps (f : Frame) (point : Nat) (s : State) : Keeps s (execGateCommit f point s) := by
  unfold execGateCommit
  exact command_keeps (fun _ => by simp)

theorem execGateGet_keeps (f : Frame) (point : Nat) (s : State) : Keeps s (execGateGet f point s) := by
  unfold execGateGet
  exact query_keeps

theorem execGateTsyncSet_keeps (f : Frame) (loss : Nat) (s : State) : Keeps s (execGateTsyncSet f loss s) := by
  unfold execGateTsyncSet
  exact command_keeps (fun _ => by simp)

theorem execGateSwap_keeps (point : Nat) (s : State) : Keeps s (execGateSwap point s) := by
  unfold execGateSwap
  refine evt_keeps ?_
  iterate 24 (all_goals try first | with_reducible rfl | with_reducible assumption | (fail_if_no_progress extract_lets -underBinder +onlyGivenNames x; first | (refine kept_via ?_ ?_ (fun hx => ?_) <;> [(with_reducible apply x; done); (dsimp -zeta only [x]; clear x); (clear_value x)]) | (refine kept_via ?_ ?_ (fun hx => ?_) <;> [(with_reducible apply Prod.fst x; done); (dsimp -zeta only [x]; clear x); (clear_value x)]) | (clear_value x)) | (with_reducible refine (kept_foldl _ _ _ ?_).trans ?_) | (with_reducible refine (kept_foldl_fst _ _ _ ?_).trans ?_) | split | (intro _ _) | simp only [*] | simp [*] | simp +zetaDelta [*] | (simp_all +zetaDelta [State.kept, -kept_eta]; done))

theorem execCycleStart_keeps (point : Nat) (s : State) : Keeps s (execCycleStart point s) := by
  unfold execCycleStart
  refine evt_keeps ?_
  iterate 24 (all_goals try first | with_reducible rfl | with_reducible assumption | (fail_if_no_progress extract_lets -underBinder +onlyGivenNames x; first | (refine kept_via ?_ ?_ (fun hx => ?_) <;> [(with_reducible apply x; done); (dsimp -zeta only [x]; clear x); (clear_value x)]) | (refine kept_via ?_ ?_ (fun hx => ?_) <;> [(with_reducible apply Prod.fst x; done); (dsimp -zeta only [x]; clear x); (clear_value x)]) | (clear_value x)) | (with_reducible refine (kept_foldl _ _ _ ?_).trans ?_) | (with_reducible refine (kept_foldl_fst _ _ _ ?_).trans ?_) | split | (intro _ _) | simp only [*] | simp [*] | simp +zetaDelta [*] | (simp_all +zetaDelta [State.kept, -kept_eta]; done))

theorem execGateEntry_keeps (point : Nat) (s : State) : Keeps s (execGateEntry point s) := by
  unfold execGateEntry
  exact evt_keeps (by simp)

theorem execTsync_keeps (s : State) : Keeps s (execTsync s) := by
  unfold execTsync
  refine evt_keeps ?_
  split
  · exact kept_shape _ _
  · exact (kept_shape _ _).trans (kept_foldl _ _ _ (fun _ _ => by simp))

theorem execTsyncLoss_keeps (s : State) : Keeps s (execTsyncLoss s) := by
  unfold execTsyncLoss
  exact evt_keeps (by simp)

end Sys2Proof.Machine
end

