-- ==== Sys2Proof/Laws/KeepsSliceCmd.lean ====
section
/-! SUPPORT. What the commands and events of Machine/SliceCmd.lean keep. -/
namespace Sys2Proof.Machine

theorem execSliceCreate_keeps (f : Frame) (host pasid : Nat) (s : State) : Keeps s (execSliceCreate f host pasid s) := by
  unfold execSliceCreate
  exact command_keeps (fun _ => by simp)

theorem execSliceSet_keeps (f : Frame) (slice : Nat) (mask : Option (List Nat)) (userCounters : Option Bool) (s : State) : Keeps s (execSliceSet f slice mask userCounters s) := by
  unfold execSliceSet
  exact command_keeps (fun _ => by simp)

theorem execSliceDestroy_keeps (f : Frame) (slice : Nat) (s : State) : Keeps s (execSliceDestroy f slice s) := by
  unfold execSliceDestroy
  exact command_keeps (fun _ => by simp)

theorem execSliceStatus_keeps (f : Frame) (slice : Nat) (s : State) : Keeps s (execSliceStatus f slice s) := by
  unfold execSliceStatus
  refine commandR_keeps (fun _ _ t => ?_)
  iterate 24 (all_goals try first | with_reducible rfl | with_reducible assumption | (fail_if_no_progress extract_lets -underBinder +onlyGivenNames x; first | (refine kept_via ?_ ?_ (fun hx => ?_) <;> [(with_reducible apply x; done); (dsimp -zeta only [x]; clear x); (clear_value x)]) | (refine kept_via ?_ ?_ (fun hx => ?_) <;> [(with_reducible apply Prod.fst x; done); (dsimp -zeta only [x]; clear x); (clear_value x)]) | (clear_value x)) | (with_reducible refine (kept_foldl _ _ _ ?_).trans ?_) | (with_reducible refine (kept_foldl_fst _ _ _ ?_).trans ?_) | split | (intro _ _) | simp only [*] | simp [*] | simp +zetaDelta [*] | (simp_all +zetaDelta [State.kept, -kept_eta]; done))

theorem execSliceCounterClear_keeps (f : Frame) (slice : Nat) (s : State) : Keeps s (execSliceCounterClear f slice s) := by
  unfold execSliceCounterClear
  refine commandR_keeps (fun _ _ t => ?_)
  iterate 24 (all_goals try first | with_reducible rfl | with_reducible assumption | (fail_if_no_progress extract_lets -underBinder +onlyGivenNames x; first | (refine kept_via ?_ ?_ (fun hx => ?_) <;> [(with_reducible apply x; done); (dsimp -zeta only [x]; clear x); (clear_value x)]) | (refine kept_via ?_ ?_ (fun hx => ?_) <;> [(with_reducible apply Prod.fst x; done); (dsimp -zeta only [x]; clear x); (clear_value x)]) | (clear_value x)) | (with_reducible refine (kept_foldl _ _ _ ?_).trans ?_) | (with_reducible refine (kept_foldl_fst _ _ _ ?_).trans ?_) | split | (intro _ _) | simp only [*] | simp [*] | simp +zetaDelta [*] | (simp_all +zetaDelta [State.kept, -kept_eta]; done))

theorem execSliceWindowSet_keeps (f : Frame) (slice : Nat) (window area : Option Nat) (s : State) : Keeps s (execSliceWindowSet f slice window area s) := by
  unfold execSliceWindowSet
  exact command_keeps (fun _ => by simp)

theorem execSliceFreeze_keeps (f : Frame) (slice : Nat) (s : State) : Keeps s (execSliceFreeze f slice s) := by
  unfold execSliceFreeze
  exact command_keeps (fun _ => by simp)

theorem execSliceFreezeV1_keeps (f : Frame) (slice : Nat) (s : State) : Keeps s (execSliceFreezeV1 f slice s) := by
  unfold execSliceFreezeV1
  exact command_keeps (fun _ => by simp)

theorem execSliceThaw_keeps (f : Frame) (slice : Nat) (s : State) : Keeps s (execSliceThaw f slice s) := by
  unfold execSliceThaw
  exact command_keeps (fun _ => by simp)

theorem execSliceThawV1_keeps (f : Frame) (slice : Nat) (s : State) : Keeps s (execSliceThawV1 f slice s) := by
  unfold execSliceThawV1
  exact command_keeps (fun _ => by simp)

theorem execSliceSave_keeps (f : Frame) (slice owner addr : Nat) (s : State) : Keeps s (execSliceSave f slice owner addr s) := by
  unfold execSliceSave
  exact command_keeps (fun _ => by simp)

theorem execSliceSaveV1_keeps (f : Frame) (slice addr : Nat) (s : State) : Keeps s (execSliceSaveV1 f slice addr s) := by
  unfold execSliceSaveV1
  exact command_keeps (fun _ => by simp)

theorem execSliceRestore_keeps (f : Frame) (host pasid addr : Nat) (chmap : List Nat) (img : Image) (s : State) : Keeps s (execSliceRestore f host pasid addr chmap img s) := by
  unfold execSliceRestore
  exact command_keeps (fun _ => by simp)

theorem execSliceRestoreV1_keeps (f : Frame) (host pasid addr : Nat) (img : Image) (s : State) : Keeps s (execSliceRestoreV1 f host pasid addr img s) := by
  unfold execSliceRestoreV1
  exact command_keeps (fun _ => by simp)

theorem execLogStart_keeps (f : Frame) (slice owner buf0 buf1 : Nat) (s : State) : Keeps s (execLogStart f slice owner buf0 buf1 s) := by
  unfold execLogStart
  exact command_keeps (fun _ => by simp)

theorem execLogHarvest_keeps (f : Frame) (slice : Nat) (zero rcl : Bool) (s : State) : Keeps s (execLogHarvest f slice zero rcl s) := by
  unfold execLogHarvest
  refine command_keeps (fun t => ?_)
  iterate 24 (all_goals try first | with_reducible rfl | with_reducible assumption | (fail_if_no_progress extract_lets -underBinder +onlyGivenNames x; first | (refine kept_via ?_ ?_ (fun hx => ?_) <;> [(with_reducible apply x; done); (dsimp -zeta only [x]; clear x); (clear_value x)]) | (refine kept_via ?_ ?_ (fun hx => ?_) <;> [(with_reducible apply Prod.fst x; done); (dsimp -zeta only [x]; clear x); (clear_value x)]) | (clear_value x)) | (with_reducible refine (kept_foldl _ _ _ ?_).trans ?_) | (with_reducible refine (kept_foldl_fst _ _ _ ?_).trans ?_) | split | (intro _ _) | simp only [*] | simp [*] | simp +zetaDelta [*] | (simp_all +zetaDelta [State.kept, -kept_eta]; done))

theorem execLogStop_keeps (f : Frame) (slice : Nat) (s : State) : Keeps s (execLogStop f slice s) := by
  unfold execLogStop
  exact command_keeps (fun _ => by simp)

theorem execSliceChanSet_keeps (f : Frame) (slice reqBase reqLog repBase repLog vec : Nat) (s : State) : Keeps s (execSliceChanSet f slice reqBase reqLog repBase repLog vec s) := by
  unfold execSliceChanSet
  exact command_keeps (fun _ => by simp)

theorem execSliceChanGet_keeps (f : Frame) (slice : Nat) (s : State) : Keeps s (execSliceChanGet f slice s) := by
  unfold execSliceChanGet
  exact query_keeps

theorem execSliceChanPut_keeps (f : Frame) (slice tag status len : Nat) (payload : List Byte) (s : State) : Keeps s (execSliceChanPut f slice tag status len payload s) := by
  unfold execSliceChanPut
  exact command_keeps (fun _ => by simp)

theorem execSchReqDb_keeps (slice tail : Nat) (s : State) : Keeps s (execSchReqDb slice tail s) := by
  unfold execSchReqDb
  exact evt_keeps (by simp)

theorem execSchRepDb_keeps (slice head : Nat) (s : State) : Keeps s (execSchRepDb slice head s) := by
  unfold execSchRepDb
  exact evt_keeps (by simp)

theorem execSliceChannelRequest_keeps (slice : Nat) (phase cls : Bool) (opcode tag len : Nat) (payload : List Byte) (s : State) : Keeps s (execSliceChannelRequest slice phase cls opcode tag len payload s) := by
  unfold execSliceChannelRequest
  exact evt_keeps (by simp)

end Sys2Proof.Machine
end

