-- ==== Sys2Proof/Laws/KeepsWardCmd.lean ====
section
/-! SUPPORT. What the commands and events of Machine/WardCmd.lean keep. -/
namespace Sys2Proof.Machine

theorem execWardRegionSet_keeps (f : Frame) (n : Nat) (r : Region) (s : State) : Keeps s (execWardRegionSet f n r s) := by
  unfold execWardRegionSet
  exact command_keeps (fun _ => by simp)

theorem execWardRegionGet_keeps (f : Frame) (n : Nat) (s : State) : Keeps s (execWardRegionGet f n s) := by
  unfold execWardRegionGet
  exact query_keeps

theorem execWardCutSet_keeps (f : Frame) (device : Bool) (idx : Nat) (cut : BitVec 12) (s : State) : Keeps s (execWardCutSet f device idx cut s) := by
  unfold execWardCutSet
  exact command_keeps (fun _ => by simp)

theorem execWardCommit_keeps (f : Frame) (target : Nat) (s : State) : Keeps s (execWardCommit f target s) := by
  unfold execWardCommit
  exact command_keeps (fun _ => by simp)

theorem execWardCommitGo_keeps (target : Nat) (go : Bool) (s : State) : Keeps s (execWardCommitGo target go s) := by
  unfold execWardCommitGo
  exact evt_keeps (by simp)

theorem execWardCommitCheck_keeps (s : State) : Keeps s (execWardCommitCheck s) := by
  unfold execWardCommitCheck
  exact evt_keeps (by simp)

theorem execWardSwitch_keeps (s : State) : Keeps s (execWardSwitch s) := by
  unfold execWardSwitch
  exact evt_keeps (by simp)

theorem execWardCopyDone_keeps (s : State) : Keeps s (execWardCopyDone s) := by
  unfold execWardCopyDone
  exact evt_keeps (by simp)

end Sys2Proof.Machine
end

