-- ==== Sys2Proof/Laws/KeepsSession.lean ====
section
/-! SUPPORT. What the commands and events of Machine/Session.lean keep. -/
namespace Sys2Proof.Machine

theorem execOpenSession_keeps (f : Frame) (role slice ksrc : Nat) (nc : BitVec 256) (s : State) : Keeps s (execOpenSession f role slice ksrc nc s) := by
  unfold execOpenSession
  exact command_keeps (fun _ => by simp)

theorem execSessionAuth_keeps (f : Frame) (sid : Nat) (proof : BitVec 256) (s : State) : Keeps s (execSessionAuth f sid proof s) := by
  unfold execSessionAuth
  refine command_keeps (fun t => ?_)
  iterate 24 (all_goals try first | with_reducible rfl | with_reducible assumption | (fail_if_no_progress extract_lets -underBinder +onlyGivenNames x; first | (refine kept_via ?_ ?_ (fun hx => ?_) <;> [(with_reducible apply x; done); (dsimp -zeta only [x]; clear x); (clear_value x)]) | (refine kept_via ?_ ?_ (fun hx => ?_) <;> [(with_reducible apply Prod.fst x; done); (dsimp -zeta only [x]; clear x); (clear_value x)]) | (clear_value x)) | (with_reducible refine (kept_foldl _ _ _ ?_).trans ?_) | (with_reducible refine (kept_foldl_fst _ _ _ ?_).trans ?_) | split | (intro _ _) | simp only [*] | simp [*] | simp +zetaDelta [*] | (simp_all +zetaDelta [State.kept, -kept_eta]; done))

theorem execCloseSession_keeps (f : Frame) (sid : Nat) (s : State) : Keeps s (execCloseSession f sid s) := by
  unfold execCloseSession
  refine commandR_keeps (fun _ _ t => ?_)
  iterate 24 (all_goals try first | with_reducible rfl | with_reducible assumption | (fail_if_no_progress extract_lets -underBinder +onlyGivenNames x; first | (refine kept_via ?_ ?_ (fun hx => ?_) <;> [(with_reducible apply x; done); (dsimp -zeta only [x]; clear x); (clear_value x)]) | (refine kept_via ?_ ?_ (fun hx => ?_) <;> [(with_reducible apply Prod.fst x; done); (dsimp -zeta only [x]; clear x); (clear_value x)]) | (clear_value x)) | (with_reducible refine (kept_foldl _ _ _ ?_).trans ?_) | (with_reducible refine (kept_foldl_fst _ _ _ ?_).trans ?_) | split | (intro _ _) | simp only [*] | simp [*] | simp +zetaDelta [*] | (simp_all +zetaDelta [State.kept, -kept_eta]; done))

theorem execSessionList_keeps (f : Frame) (s : State) : Keeps s (execSessionList f s) := by
  unfold execSessionList
  exact query_keeps

theorem execKeySet_keeps (f : Frame) (role : Nat) (key : BitVec 256) (s : State) : Keeps s (execKeySet f role key s) := by
  unfold execKeySet
  exact command_keeps (fun _ => by simp)

theorem execPasswordSet_keeps (f : Frame) (role : Nat) (key : BitVec 256) (s : State) : Keeps s (execPasswordSet f role key s) := by
  unfold execPasswordSet
  exact command_keeps (fun _ => by simp)

theorem execSessionSet_keeps (f : Frame) (role secs : Nat) (s : State) : Keeps s (execSessionSet f role secs s) := by
  unfold execSessionSet
  exact command_keeps (fun _ => by simp)

theorem execSessionIdleTimeout_keeps (sid : Nat) (s : State) : Keeps s (execSessionIdleTimeout sid s) := by
  unfold execSessionIdleTimeout
  exact evt_keeps (by simp)

theorem execSessionAuthExpiry_keeps (sid : Nat) (s : State) : Keeps s (execSessionAuthExpiry sid s) := by
  unfold execSessionAuthExpiry
  exact evt_keeps (by simp)

theorem execLockoutExpiry_keeps (role : Nat) (s : State) : Keeps s (execLockoutExpiry role s) := by
  unfold execLockoutExpiry
  exact evt_keeps (by simp)

end Sys2Proof.Machine
end

