-- ==== Sys2Proof/Laws/KeepsTrunkRx.lean ====
section
/-! SUPPORT. What the commands and events of Machine/TrunkRx.lean keep. -/
namespace Sys2Proof.Machine

theorem execTrunkTrainDone_keeps (tp : Nat) (precode : Bool) (s : State) : Keeps s (execTrunkTrainDone tp precode s) := by
  unfold execTrunkTrainDone
  exact evt_keeps (by simp)

theorem execTrunkTrainTimeout_keeps (tp : Nat) (s : State) : Keeps s (execTrunkTrainTimeout tp s) := by
  unfold execTrunkTrainTimeout
  exact evt_keeps (by simp)

theorem execTrunkAlignDone_keeps (a : AlignOp) (s : State) : Keeps s (execTrunkAlignDone a s) := by
  unfold execTrunkAlignDone
  exact evt_keeps (by simp)

theorem execLaneMarker_keeps (tp lane : Nat) (mcrcOk : Bool) (logical mcount midx : Nat) (s : State) : Keeps s (execLaneMarker tp lane mcrcOk logical mcount midx s) := by
  unfold execLaneMarker
  exact evt_keeps (by simp)

theorem execInitCredit_keeps (tp serial idx role : Nat) (counts : List Nat) (s : State) : Keeps s (execInitCredit tp serial idx role counts s) := by
  unfold execInitCredit
  exact evt_keeps (by simp)

theorem execAuthChal_keeps (tp : Nat) (nonce : BitVec 256) (s : State) : Keeps s (execAuthChal tp nonce s) := by
  unfold execAuthChal
  refine evt_keeps ?_
  iterate 24 (all_goals try first | with_reducible rfl | with_reducible assumption | (fail_if_no_progress extract_lets -underBinder +onlyGivenNames x; first | (refine kept_via ?_ ?_ (fun hx => ?_) <;> [(with_reducible apply x; done); (dsimp -zeta only [x]; clear x); (clear_value x)]) | (refine kept_via ?_ ?_ (fun hx => ?_) <;> [(with_reducible apply Prod.fst x; done); (dsimp -zeta only [x]; clear x); (clear_value x)]) | (clear_value x)) | (with_reducible refine (kept_foldl _ _ _ ?_).trans ?_) | (with_reducible refine (kept_foldl_fst _ _ _ ?_).trans ?_) | split | (intro _ _) | simp only [*] | simp [*] | simp +zetaDelta [*] | (simp_all +zetaDelta [State.kept, -kept_eta]; done))

theorem execAuthResp_keeps (tp : Nat) (hmac : BitVec 256) (s : State) : Keeps s (execAuthResp tp hmac s) := by
  unfold execAuthResp
  refine evt_keeps ?_
  iterate 24 (all_goals try first | with_reducible rfl | with_reducible assumption | (fail_if_no_progress extract_lets -underBinder +onlyGivenNames x; first | (refine kept_via ?_ ?_ (fun hx => ?_) <;> [(with_reducible apply x; done); (dsimp -zeta only [x]; clear x); (clear_value x)]) | (refine kept_via ?_ ?_ (fun hx => ?_) <;> [(with_reducible apply Prod.fst x; done); (dsimp -zeta only [x]; clear x); (clear_value x)]) | (clear_value x)) | (with_reducible refine (kept_foldl _ _ _ ?_).trans ?_) | (with_reducible refine (kept_foldl_fst _ _ _ ?_).trans ?_) | split | (intro _ _) | simp only [*] | simp [*] | simp +zetaDelta [*] | (simp_all +zetaDelta [State.kept, -kept_eta]; done))

theorem execAuthFailRetry_keeps (tp : Nat) (s : State) : Keeps s (execAuthFailRetry tp s) := by
  unfold execAuthFailRetry
  exact evt_keeps (by simp)

theorem execPayloadFlit_keeps (fl : FlitOp) (msg : TrunkMsg) (s : State) : Keeps s (execPayloadFlit fl msg s) := by
  unfold execPayloadFlit
  exact evt_keeps (by simp)

theorem execNullFlit_keeps (x : NullOp) (s : State) : Keeps s (execNullFlit x s) := by
  unfold execNullFlit
  exact evt_keeps (by simp)

theorem execReplayReq_keeps (tp seq : Nat) (s : State) : Keeps s (execReplayReq tp seq s) := by
  unfold execReplayReq
  exact evt_keeps (by simp)

theorem execReplayTimeout_keeps (tp : Nat) (s : State) : Keeps s (execReplayTimeout tp s) := by
  unfold execReplayTimeout
  refine evt_keeps ?_
  iterate 24 (all_goals try first | with_reducible rfl | with_reducible assumption | (fail_if_no_progress extract_lets -underBinder +onlyGivenNames x; first | (refine kept_via ?_ ?_ (fun hx => ?_) <;> [(with_reducible apply x; done); (dsimp -zeta only [x]; clear x); (clear_value x)]) | (refine kept_via ?_ ?_ (fun hx => ?_) <;> [(with_reducible apply Prod.fst x; done); (dsimp -zeta only [x]; clear x); (clear_value x)]) | (clear_value x)) | (with_reducible refine (kept_foldl _ _ _ ?_).trans ?_) | (with_reducible refine (kept_foldl_fst _ _ _ ?_).trans ?_) | split | (intro _ _) | simp only [*] | simp [*] | simp +zetaDelta [*] | (simp_all +zetaDelta [State.kept, -kept_eta]; done))

theorem execResume_keeps (tp : Nat) (linkId : BitVec 64) (seq : Nat) (counts : List Nat) (lastTick : Bool) (s : State) : Keeps s (execResume tp linkId seq counts lastTick s) := by
  unfold execResume
  exact evt_keeps (by simp)

theorem execLinkSleep_keeps (tp cause : Nat) (s : State) : Keeps s (execLinkSleep tp cause s) := by
  unfold execLinkSleep
  exact evt_keeps (by simp)

theorem execReset_keeps (tp idx : Nat) (s : State) : Keeps s (execReset tp idx s) := by
  unfold execReset
  exact evt_keeps (by simp)

theorem execSleep1Codeword_keeps (tp : Nat) (s : State) : Keeps s (execSleep1Codeword tp s) := by
  unfold execSleep1Codeword
  exact evt_keeps (by simp)

theorem execTl1IdleEntry_keeps (tp : Nat) (s : State) : Keeps s (execTl1IdleEntry tp s) := by
  unfold execTl1IdleEntry
  exact evt_keeps (by simp)

theorem execWakeSequence_keeps (tp : Nat) (s : State) : Keeps s (execWakeSequence tp s) := by
  unfold execWakeSequence
  exact evt_keeps (by simp)

theorem execWakeLockTimeout_keeps (tp : Nat) (s : State) : Keeps s (execWakeLockTimeout tp s) := by
  unfold execWakeLockTimeout
  exact evt_keeps (by simp)

theorem execErrorWindowEval_keeps (tp : Nat) (s : State) : Keeps s (execErrorWindowEval tp s) := by
  unfold execErrorWindowEval
  exact evt_keeps (by simp)

theorem execCdrLoss_keeps (tp lane : Nat) (s : State) : Keeps s (execCdrLoss tp lane s) := by
  unfold execCdrLoss
  exact evt_keeps (by simp)

theorem execTrefclkLoss_keeps (die : Nat) (s : State) : Keeps s (execTrefclkLoss die s) := by
  unfold execTrefclkLoss
  exact evt_keeps (by simp)

theorem execLinkHoldExpiry_keeps (tp : Nat) (s : State) : Keeps s (execLinkHoldExpiry tp s) := by
  unfold execLinkHoldExpiry
  exact evt_keeps (by simp)

theorem execControlFlitRepeat_keeps (tp : Nat) (s : State) : Keeps s (execControlFlitRepeat tp s) := by
  unfold execControlFlitRepeat
  refine evt_keeps ?_
  iterate 24 (all_goals try first | with_reducible rfl | with_reducible assumption | (fail_if_no_progress extract_lets -underBinder +onlyGivenNames x; first | (refine kept_via ?_ ?_ (fun hx => ?_) <;> [(with_reducible apply x; done); (dsimp -zeta only [x]; clear x); (clear_value x)]) | (refine kept_via ?_ ?_ (fun hx => ?_) <;> [(with_reducible apply Prod.fst x; done); (dsimp -zeta only [x]; clear x); (clear_value x)]) | (clear_value x)) | (with_reducible refine (kept_foldl _ _ _ ?_).trans ?_) | (with_reducible refine (kept_foldl_fst _ _ _ ?_).trans ?_) | split | (intro _ _) | simp only [*] | simp [*] | simp +zetaDelta [*] | (simp_all +zetaDelta [State.kept, -kept_eta]; done))

theorem execTrCplTimeout_keeps (fpa : Nat) (src : Agent) (s : State) : Keeps s (execTrCplTimeout fpa src s) := by
  unfold execTrCplTimeout
  refine evt_keeps ?_
  iterate 24 (all_goals try first | with_reducible rfl | with_reducible assumption | (fail_if_no_progress extract_lets -underBinder +onlyGivenNames x; first | (refine kept_via ?_ ?_ (fun hx => ?_) <;> [(with_reducible apply x; done); (dsimp -zeta only [x]; clear x); (clear_value x)]) | (refine kept_via ?_ ?_ (fun hx => ?_) <;> [(with_reducible apply Prod.fst x; done); (dsimp -zeta only [x]; clear x); (clear_value x)]) | (clear_value x)) | (with_reducible refine (kept_foldl _ _ _ ?_).trans ?_) | (with_reducible refine (kept_foldl_fst _ _ _ ?_).trans ?_) | split | (intro _ _) | simp only [*] | simp [*] | simp +zetaDelta [*] | (simp_all +zetaDelta [State.kept, -kept_eta]; done))

end Sys2Proof.Machine
end

