-- ==== Sys2Proof/Laws/KeepsHierCmd.lean ====
section
/-! SUPPORT. What the commands and events of Machine/HierCmd.lean keep. -/
namespace Sys2Proof.Machine

theorem execHierStatus_keeps (f : Frame) (s : State) : Keeps s (execHierStatus f s) := by
  unfold execHierStatus
  exact query_keeps

theorem execHierKeySet_keeps (f : Frame) (key : BitVec 256) (s : State) : Keeps s (execHierKeySet f key s) := by
  unfold execHierKeySet
  exact command_keeps (fun _ => by simp)

theorem execHierSet_keeps (f : Frame) (rolePref : Option Bool) (autoAdmit : Option Bool) (meshTimeout trCpl : Option Nat) (s : State) : Keeps s (execHierSet f rolePref autoAdmit meshTimeout trCpl s) := by
  unfold execHierSet
  exact command_keeps (fun _ => by simp)

theorem execHierAdmit_keeps (f : Frame) (serial : Nat) (s : State) : Keeps s (execHierAdmit f serial s) := by
  unfold execHierAdmit
  exact command_keeps (fun _ => by simp)

theorem execHierRemove_keeps (f : Frame) (idx : Nat) (s : State) : Keeps s (execHierRemove f idx s) := by
  unfold execHierRemove
  exact command_keeps (fun _ => by simp)

theorem execHierRemoveStepDone_keeps (s : State) : Keeps s (execHierRemoveStepDone s) := by
  unfold execHierRemoveStepDone
  refine evt_keeps ?_
  iterate 24 (all_goals try first | with_reducible rfl | with_reducible assumption | (fail_if_no_progress extract_lets -underBinder +onlyGivenNames x; first | (refine kept_via ?_ ?_ (fun hx => ?_) <;> [(with_reducible apply x; done); (dsimp -zeta only [x]; clear x); (clear_value x)]) | (refine kept_via ?_ ?_ (fun hx => ?_) <;> [(with_reducible apply Prod.fst x; done); (dsimp -zeta only [x]; clear x); (clear_value x)]) | (clear_value x)) | (with_reducible refine (kept_foldl _ _ _ ?_).trans ?_) | (with_reducible refine (kept_foldl_fst _ _ _ ?_).trans ?_) | split | (intro _ _) | simp only [*] | simp [*] | simp +zetaDelta [*] | (simp_all +zetaDelta [State.kept, -kept_eta]; done))

theorem execHierForget_keeps (f : Frame) (idx : Nat) (s : State) : Keeps s (execHierForget f idx s) := by
  unfold execHierForget
  exact command_keeps (fun _ => by simp)

theorem execHierTrunkDisable_keeps (f : Frame) (tp : Nat) (s : State) : Keeps s (execHierTrunkDisable f tp s) := by
  unfold execHierTrunkDisable
  exact command_keeps (fun _ => by simp)

theorem execHierTrunkEnable_keeps (f : Frame) (tp : Nat) (s : State) : Keeps s (execHierTrunkEnable f tp s) := by
  unfold execHierTrunkEnable
  exact command_keeps (fun _ => by simp)

theorem execManagerDeclare_keeps (s : State) : Keeps s (execManagerDeclare s) := by
  unfold execManagerDeclare
  exact evt_keeps (by simp)

theorem execMeshComplete_keeps (s : State) : Keeps s (execMeshComplete s) := by
  unfold execMeshComplete
  refine evt_keeps ?_
  iterate 24 (all_goals try first | with_reducible rfl | with_reducible assumption | (fail_if_no_progress extract_lets -underBinder +onlyGivenNames x; first | (refine kept_via ?_ ?_ (fun hx => ?_) <;> [(with_reducible apply x; done); (dsimp -zeta only [x]; clear x); (clear_value x)]) | (refine kept_via ?_ ?_ (fun hx => ?_) <;> [(with_reducible apply Prod.fst x; done); (dsimp -zeta only [x]; clear x); (clear_value x)]) | (clear_value x)) | (with_reducible refine (kept_foldl _ _ _ ?_).trans ?_) | (with_reducible refine (kept_foldl_fst _ _ _ ?_).trans ?_) | split | (intro _ _) | simp only [*] | simp [*] | simp +zetaDelta [*] | (simp_all +zetaDelta [State.kept, -kept_eta]; done))

theorem execMeshTimeout_keeps (s : State) : Keeps s (execMeshTimeout s) := by
  unfold execMeshTimeout
  refine evt_keeps ?_
  iterate 24 (all_goals try first | with_reducible rfl | with_reducible assumption | (fail_if_no_progress extract_lets -underBinder +onlyGivenNames x; first | (refine kept_via ?_ ?_ (fun hx => ?_) <;> [(with_reducible apply x; done); (dsimp -zeta only [x]; clear x); (clear_value x)]) | (refine kept_via ?_ ?_ (fun hx => ?_) <;> [(with_reducible apply Prod.fst x; done); (dsimp -zeta only [x]; clear x); (clear_value x)]) | (clear_value x)) | (with_reducible refine (kept_foldl _ _ _ ?_).trans ?_) | (with_reducible refine (kept_foldl_fst _ _ _ ?_).trans ?_) | split | (intro _ _) | simp only [*] | simp [*] | simp +zetaDelta [*] | (simp_all +zetaDelta [State.kept, -kept_eta]; done))

theorem execJoinRetry_keeps (s : State) : Keeps s (execJoinRetry s) := by
  unfold execJoinRetry
  refine evt_keeps ?_
  iterate 24 (all_goals try first | with_reducible rfl | with_reducible assumption | (fail_if_no_progress extract_lets -underBinder +onlyGivenNames x; first | (refine kept_via ?_ ?_ (fun hx => ?_) <;> [(with_reducible apply x; done); (dsimp -zeta only [x]; clear x); (clear_value x)]) | (refine kept_via ?_ ?_ (fun hx => ?_) <;> [(with_reducible apply Prod.fst x; done); (dsimp -zeta only [x]; clear x); (clear_value x)]) | (clear_value x)) | (with_reducible refine (kept_foldl _ _ _ ?_).trans ?_) | (with_reducible refine (kept_foldl_fst _ _ _ ?_).trans ?_) | split | (intro _ _) | simp only [*] | simp [*] | simp +zetaDelta [*] | (simp_all +zetaDelta [State.kept, -kept_eta]; done))

theorem execHierarchyControl_keeps (tp : Nat) (m : HierMsg) (s : State) : Keeps s (execHierarchyControl tp m s) := by
  unfold execHierarchyControl
  exact evt_keeps (by simp)

theorem execLeave_keeps (tp idx : Nat) (s : State) : Keeps s (execLeave tp idx s) := by
  unfold execLeave
  exact evt_keeps (by simp)

end Sys2Proof.Machine
end

