-- ==== Sys2Proof/Laws/KeepsPower.lean ====
section
/-! SUPPORT. What the commands and events of Machine/Power.lean keep. -/
namespace Sys2Proof.Machine

theorem execSillBrownout_keeps (s : State) : Keeps s (execSillBrownout s) := by
  unfold execSillBrownout
  exact evt_keeps (by simp)

theorem execBrownoutSleep_keeps (s : State) : Keeps s (execBrownoutSleep s) := by
  unfold execBrownoutSleep
  refine evt_keeps ?_
  iterate 24 (all_goals try first | with_reducible rfl | with_reducible assumption | (fail_if_no_progress extract_lets -underBinder +onlyGivenNames x; first | (refine kept_via ?_ ?_ (fun hx => ?_) <;> [(with_reducible apply x; done); (dsimp -zeta only [x]; clear x); (clear_value x)]) | (refine kept_via ?_ ?_ (fun hx => ?_) <;> [(with_reducible apply Prod.fst x; done); (dsimp -zeta only [x]; clear x); (clear_value x)]) | skip) | (with_reducible refine (kept_foldl _ _ _ ?_).trans ?_) | (with_reducible refine (kept_foldl_fst _ _ _ ?_).trans ?_) | split | (intro _ _) | simp only [*] | simp [*] | simp +zetaDelta [*] | (simp_all +zetaDelta [State.kept, -kept_eta]; done))

theorem execPfwRelease_keeps (s : State) : Keeps s (execPfwRelease s) := by
  unfold execPfwRelease
  refine evt_keeps ?_
  iterate 24 (all_goals try first | with_reducible rfl | with_reducible assumption | (fail_if_no_progress extract_lets -underBinder +onlyGivenNames x; first | (refine kept_via ?_ ?_ (fun hx => ?_) <;> [(with_reducible apply x; done); (dsimp -zeta only [x]; clear x); (clear_value x)]) | (refine kept_via ?_ ?_ (fun hx => ?_) <;> [(with_reducible apply Prod.fst x; done); (dsimp -zeta only [x]; clear x); (clear_value x)]) | skip) | (with_reducible refine (kept_foldl _ _ _ ?_).trans ?_) | (with_reducible refine (kept_foldl_fst _ _ _ ?_).trans ?_) | split | (intro _ _) | simp only [*] | simp [*] | simp +zetaDelta [*] | (simp_all +zetaDelta [State.kept, -kept_eta]; done))

theorem execGpfRequest_keeps (port : Nat) (s : State) : Keeps s (execGpfRequest port s) := by
  unfold execGpfRequest
  exact evt_keeps (by simp)

theorem execGpfCompletion_keeps (port : Nat) (s : State) : Keeps s (execGpfCompletion port s) := by
  unfold execGpfCompletion
  exact evt_keeps (by simp)

theorem execFeedChange_keeps (feedB : Bool) (st : Nat) (s : State) : Keeps s (execFeedChange feedB st s) := by
  unfold execFeedChange
  exact evt_keeps (by simp)

theorem execQualStart_keeps (s : State) : Keeps s (execQualStart s) := by
  unfold execQualStart
  exact evt_keeps (by simp)

theorem execQualDone_keeps (s : State) : Keeps s (execQualDone s) := by
  unfold execQualDone
  exact evt_keeps (by simp)

theorem execQualLeavesRange_keeps (s : State) : Keeps s (execQualLeavesRange s) := by
  unfold execQualLeavesRange
  exact evt_keeps (by simp)

theorem execPowerGood_keeps (s : State) : Keeps s (execPowerGood s) := by
  unfold execPowerGood
  refine evt_keeps ?_
  iterate 24 (all_goals try first | with_reducible rfl | with_reducible assumption | (fail_if_no_progress extract_lets -underBinder +onlyGivenNames x; first | (refine kept_via ?_ ?_ (fun hx => ?_) <;> [(with_reducible apply x; done); (dsimp -zeta only [x]; clear x); (clear_value x)]) | (refine kept_via ?_ ?_ (fun hx => ?_) <;> [(with_reducible apply Prod.fst x; done); (dsimp -zeta only [x]; clear x); (clear_value x)]) | skip) | (with_reducible refine (kept_foldl _ _ _ ?_).trans ?_) | (with_reducible refine (kept_foldl_fst _ _ _ ?_).trans ?_) | split | (intro _ _) | simp only [*] | simp [*] | simp +zetaDelta [*] | (simp_all +zetaDelta [State.kept, -kept_eta]; done))

theorem execSillSoa_keeps (s : State) : Keeps s (execSillSoa s) := by
  unfold execSillSoa
  exact evt_keeps (by simp)

theorem execSillFastTrip_keeps (s : State) : Keeps s (execSillFastTrip s) := by
  unfold execSillFastTrip
  exact evt_keeps (by simp)

theorem execSillSlowTrip_keeps (s : State) : Keeps s (execSillSlowTrip s) := by
  unfold execSillSlowTrip
  exact evt_keeps (by simp)

theorem execCoolEnd_keeps (s : State) : Keeps s (execCoolEnd s) := by
  unfold execCoolEnd
  exact evt_keeps (by simp)

theorem execRetryReload_keeps (s : State) : Keeps s (execRetryReload s) := by
  unfold execRetryReload
  exact evt_keeps (by simp)

theorem execSillOv_keeps (s : State) : Keeps s (execSillOv s) := by
  unfold execSillOv
  exact evt_keeps (by simp)

theorem execOvRecover_keeps (s : State) : Keeps s (execOvRecover s) := by
  unfold execOvRecover
  exact evt_keeps (by simp)

theorem execBulkRecharge_keeps (s : State) : Keeps s (execBulkRecharge s) := by
  unfold execBulkRecharge
  exact evt_keeps (by simp)

theorem execBulkRechargeEnd_keeps (s : State) : Keeps s (execBulkRechargeEnd s) := by
  unfold execBulkRechargeEnd
  exact evt_keeps (by simp)

theorem execColdRelease_keeps (s : State) : Keeps s (execColdRelease s) := by
  unfold execColdRelease
  exact evt_keeps (by simp)

theorem execStartupReady_keeps (s : State) : Keeps s (execStartupReady s) := by
  unfold execStartupReady
  exact evt_keeps (by simp)

theorem execMeterUpdate_keeps (va vb vin vbulk ia ib iin : Nat) (ok : Bool) (s : State) : Keeps s (execMeterUpdate va vb vin vbulk ia ib iin ok s) := by
  unfold execMeterUpdate
  refine evt_keeps ?_
  have hk : ∀ v : Sill, v.ctl = s.sill.ctl → v.limits = s.sill.limits → State.kept { s with sill := v } = s.kept :=
    fun v h1 h2 => by simp only [State.kept, h1, h2]
  extract_lets sat p e src sl s1
  have h1 : s1.kept = s.kept := hk sl rfl rfl
  clear_value s1
  split
  · exact h1
  · simp [h1]

theorem execPowerStateSet_keeps (f : Frame) (target : Nat) (persist : Bool) (s : State) : Keeps s (execPowerStateSet f target persist s) := by
  unfold execPowerStateSet
  refine command_keeps (fun t => ?_)
  iterate 24 (all_goals try first | with_reducible rfl | with_reducible assumption | (fail_if_no_progress extract_lets -underBinder +onlyGivenNames x; first | (refine kept_via ?_ ?_ (fun hx => ?_) <;> [(with_reducible apply x; done); (dsimp -zeta only [x]; clear x); (clear_value x)]) | (refine kept_via ?_ ?_ (fun hx => ?_) <;> [(with_reducible apply Prod.fst x; done); (dsimp -zeta only [x]; clear x); (clear_value x)]) | skip) | (with_reducible refine (kept_foldl _ _ _ ?_).trans ?_) | (with_reducible refine (kept_foldl_fst _ _ _ ?_).trans ?_) | split | (intro _ _) | simp only [*] | simp [*] | simp +zetaDelta [*] | (simp_all +zetaDelta [State.kept, -kept_eta]; done))

theorem execEnergyClear_keeps (f : Frame) (s : State) : Keeps s (execEnergyClear f s) := by
  unfold execEnergyClear
  exact command_keeps (fun _ => by simp)

end Sys2Proof.Machine
end

