-- ==== Sys2Proof/Laws/KeepsModuleCmd.lean ====
section
/-! SUPPORT. What the commands and events of Machine/ModuleCmd.lean keep. -/
namespace Sys2Proof.Machine

theorem execModuleIdentify_keeps (f : Frame) (s : State) : Keeps s (execModuleIdentify f s) := by
  unfold execModuleIdentify
  exact query_keeps

theorem execIdentifyV1_keeps (f : Frame) (s : State) : Keeps s (execIdentifyV1 f s) := by
  unfold execIdentifyV1
  exact query_keeps

theorem execModuleStatus_keeps (f : Frame) (s : State) : Keeps s (execModuleStatus f s) := by
  unfold execModuleStatus
  exact query_keeps

theorem execModuleSet_keeps (f : Frame) (smbus vec : Option Nat) (notify alert : Option Bool) (edge : Option (Nat × Nat × Nat)) (s : State) : Keeps s (execModuleSet f smbus vec notify alert edge s) := by
  unfold execModuleSet
  exact command_keeps (fun _ => by simp)

theorem execEventGet_keeps (f : Frame) (ack : Bool) (seq : Nat) (s : State) : Keeps s (execEventGet f ack seq s) := by
  unfold execEventGet
  refine command_keeps (fun t => ?_)
  iterate 24 (all_goals try first | with_reducible rfl | with_reducible assumption | (fail_if_no_progress extract_lets -underBinder +onlyGivenNames x; first | (refine kept_via ?_ ?_ (fun hx => ?_) <;> [(with_reducible apply x; done); (dsimp -zeta only [x]; clear x); (clear_value x)]) | (refine kept_via ?_ ?_ (fun hx => ?_) <;> [(with_reducible apply Prod.fst x; done); (dsimp -zeta only [x]; clear x); (clear_value x)]) | (clear_value x)) | (with_reducible refine (kept_foldl _ _ _ ?_).trans ?_) | (with_reducible refine (kept_foldl_fst _ _ _ ?_).trans ?_) | split | (intro _ _) | simp only [*] | simp [*] | simp +zetaDelta [*] | (simp_all +zetaDelta [State.kept, -kept_eta]; done))

theorem execOpJournalGet_keeps (f : Frame) (index count : Nat) (s : State) : Keeps s (execOpJournalGet f index count s) := by
  unfold execOpJournalGet
  exact query_keeps

theorem execOpStatus_keeps (f : Frame) (grp : Nat) (s : State) : Keeps s (execOpStatus f grp s) := by
  unfold execOpStatus
  exact query_keeps

theorem execOpAbort_keeps (f : Frame) (grp : Nat) (s : State) : Keeps s (execOpAbort f grp s) := by
  unfold execOpAbort
  exact command_keeps (fun _ => by simp)

theorem execMctpControl_keeps (xport : Xport) (ep cmd arg : Nat) (s : State) : Keeps s (execMctpControl xport ep cmd arg s) := by
  unfold execMctpControl
  refine evt_keeps ?_
  iterate 24 (all_goals try first | with_reducible rfl | with_reducible assumption | (fail_if_no_progress extract_lets -underBinder +onlyGivenNames x; first | (refine kept_via ?_ ?_ (fun hx => ?_) <;> [(with_reducible apply x; done); (dsimp -zeta only [x]; clear x); (clear_value x)]) | (refine kept_via ?_ ?_ (fun hx => ?_) <;> [(with_reducible apply Prod.fst x; done); (dsimp -zeta only [x]; clear x); (clear_value x)]) | (clear_value x)) | (with_reducible refine (kept_foldl _ _ _ ?_).trans ?_) | (with_reducible refine (kept_foldl_fst _ _ _ ?_).trans ?_) | split | (intro _ _) | simp only [*] | simp [*] | simp +zetaDelta [*] | (simp_all +zetaDelta [State.kept, -kept_eta]; done))

theorem execTrunkMailboxFrame_keeps (tp : Nat) (f : Frame) (opcode : Nat) (s : State) : Keeps s (execTrunkMailboxFrame tp f opcode s) := by
  unfold execTrunkMailboxFrame
  refine evt_keeps ?_
  iterate 24 (all_goals try first | with_reducible rfl | with_reducible assumption | (fail_if_no_progress extract_lets -underBinder +onlyGivenNames x; first | (refine kept_via ?_ ?_ (fun hx => ?_) <;> [(with_reducible apply x; done); (dsimp -zeta only [x]; clear x); (clear_value x)]) | (refine kept_via ?_ ?_ (fun hx => ?_) <;> [(with_reducible apply Prod.fst x; done); (dsimp -zeta only [x]; clear x); (clear_value x)]) | (clear_value x)) | (with_reducible refine (kept_foldl _ _ _ ?_).trans ?_) | (with_reducible refine (kept_foldl_fst _ _ _ ?_).trans ?_) | split | (intro _ _) | simp only [*] | simp [*] | simp +zetaDelta [*] | (simp_all +zetaDelta [State.kept, -kept_eta]; done))

theorem execForwardResend_keeps (tag : Nat) (s : State) : Keeps s (execForwardResend tag s) := by
  unfold execForwardResend
  refine evt_keeps ?_
  iterate 24 (all_goals try first | with_reducible rfl | with_reducible assumption | (fail_if_no_progress extract_lets -underBinder +onlyGivenNames x; first | (refine kept_via ?_ ?_ (fun hx => ?_) <;> [(with_reducible apply x; done); (dsimp -zeta only [x]; clear x); (clear_value x)]) | (refine kept_via ?_ ?_ (fun hx => ?_) <;> [(with_reducible apply Prod.fst x; done); (dsimp -zeta only [x]; clear x); (clear_value x)]) | (clear_value x)) | (with_reducible refine (kept_foldl _ _ _ ?_).trans ?_) | (with_reducible refine (kept_foldl_fst _ _ _ ?_).trans ?_) | split | (intro _ _) | simp only [*] | simp [*] | simp +zetaDelta [*] | (simp_all +zetaDelta [State.kept, -kept_eta]; done))

theorem execForwardedReply_keeps (tp tag rc : Nat) (data : List Nat) (s : State) : Keeps s (execForwardedReply tp tag rc data s) := by
  unfold execForwardedReply
  refine evt_keeps ?_
  iterate 24 (all_goals try first | with_reducible rfl | with_reducible assumption | (fail_if_no_progress extract_lets -underBinder +onlyGivenNames x; first | (refine kept_via ?_ ?_ (fun hx => ?_) <;> [(with_reducible apply x; done); (dsimp -zeta only [x]; clear x); (clear_value x)]) | (refine kept_via ?_ ?_ (fun hx => ?_) <;> [(with_reducible apply Prod.fst x; done); (dsimp -zeta only [x]; clear x); (clear_value x)]) | (clear_value x)) | (with_reducible refine (kept_foldl _ _ _ ?_).trans ?_) | (with_reducible refine (kept_foldl_fst _ _ _ ?_).trans ?_) | split | (intro _ _) | simp only [*] | simp [*] | simp +zetaDelta [*] | (simp_all +zetaDelta [State.kept, -kept_eta]; done))

theorem execUnsupportedOpcode_keeps (f : Frame) (opcode : Nat) (s : State) : Keeps s (execUnsupportedOpcode f opcode s) := by
  unfold execUnsupportedOpcode
  exact evt_keeps (by simp)

end Sys2Proof.Machine
end

