-- ==== Sys2Proof/Laws/KeptRegCmd.lean ====
section
/-! SUPPORT. What the operations of Machine/RegCmd.lean keep. -/
namespace Sys2Proof.Machine

@[simp ↓] theorem sqcWrite_kept (s : State) (off w : Nat) : (State.sqcWrite s off w).kept = s.kept := by
  unfold State.sqcWrite; split <;> simp

@[simp ↓] theorem wardCtlWrite_kept (s : State) (v : Nat) : (State.wardCtlWrite s v).kept = s.kept := by
  simp [State.wardCtlWrite]

@[simp ↓] theorem perfClear_kept (s : State) : (State.perfClear s).kept = s.kept := by
  rfl

@[simp ↓] theorem perfFreeze_kept (s : State) (on : Bool) : (State.perfFreeze s on).kept = s.kept := by
  rfl

@[simp ↓] theorem smpHead_kept (s : State) (idx head : Nat) : (State.smpHead s idx head).kept = s.kept := by
  simp [State.smpHead]

@[simp ↓] theorem ringCtlWrite_kept (s : State) (n v : Nat) : (State.ringCtlWrite s n v).kept = s.kept := by
  simp [State.ringCtlWrite]

@[simp ↓] theorem ringWrite_kept (s : State) (n cq off v : Nat) : (State.ringWrite s n cq off v).kept = s.kept := by
  unfold State.ringWrite; split <;> simp

@[simp ↓] theorem pagePut_kept (s : State) (sl off v : Nat) : (State.pagePut s sl off v).kept = s.kept := by
  unfold State.pagePut
  extract_lets doorbell
  have hd : ∀ r : Res, Keeps s r → (doorbell r).kept = s.kept := fun r h => by
    cases r with
    | next t => exact h _ rfl
    | fault f => rfl
    | refused f => rfl
  clear_value doorbell
  split
  · exact hd _ (execSchReqDb_keeps _ _ _)
  split
  · exact hd _ (execSchRepDb_keeps _ _ _)
  split
  · split <;> simp
  · rfl

@[simp ↓] theorem pageWrite_kept (s : State) (port off width val : Nat) : (State.pageWrite s port off width val).kept = s.kept := by
  unfold State.pageWrite
  repeat' (first | with_reducible rfl | (simp; done) | (refine (kept_foldl _ _ _ ?_).trans ?_) | (intro _ _) | split | simp)

end Sys2Proof.Machine
end

