-- ==== Sys2Proof/Laws/KeptPerfCmd.lean ====
section
/-! SUPPORT. What the operations of Machine/PerfCmd.lean keep. -/
namespace Sys2Proof.Machine

@[simp ↓] theorem smpLose_kept (s : State) (idx : Nat) (x : Sampler) : (State.smpLose s idx x).kept = s.kept := by
  rfl

@[simp ↓] theorem smpWrite_kept (s : State) (idx : Nat) (x : Sampler) (t : SampSel) (ns : Nat) : (State.smpWrite s idx x t ns).kept = s.kept := by
  unfold State.smpWrite
  repeat' (first | with_reducible rfl | (simp; done) | (refine (kept_foldl _ _ _ ?_).trans ?_) | (intro _ _) | split | simp)

end Sys2Proof.Machine
end

