-- ==== Sys2Proof/Laws/KeptThermCmd.lean ====
section
/-! SUPPORT. What the operations of Machine/ThermCmd.lean keep. -/
namespace Sys2Proof.Machine

@[simp ↓] theorem alarm_kept (s : State) (n g : Nat) (r : Int) (crit : Bool) : (State.alarm s n g r crit).kept = s.kept := by
  simp [State.alarm]

end Sys2Proof.Machine
end

