-- ==== Sys2Proof/Laws/KeptCodeword.lean ====
section
/-! SUPPORT. What the operations of Machine/Codeword.lean keep. -/
namespace Sys2Proof.Machine

@[simp ↓] theorem txTick_kept (s : State) (t : Nat) : (State.txTick s t).kept = s.kept := by
  simp [State.txTick]

@[simp ↓] theorem txTicks_kept (s : State) : (State.txTicks s).kept = s.kept := by
  unfold State.txTicks
  repeat' (first | with_reducible rfl | (simp; done) | (refine (kept_foldl _ _ _ ?_).trans ?_) | (intro _ _) | split | simp)

end Sys2Proof.Machine
end

