-- ==== Sys2Proof/Laws/KeptIdle.lean ====
section
/-! SUPPORT. What the operations of Machine/Idle.lean keep. -/
namespace Sys2Proof.Machine

@[simp ↓] theorem countWaits_kept (s : State) (fromNs toNs : Nat) : (State.countWaits s fromNs toNs).kept = s.kept := by
  unfold State.countWaits
  repeat' (first | with_reducible rfl | (simp; done) | (refine (kept_foldl _ _ _ ?_).trans ?_) | (intro _ _) | split | simp)

@[simp ↓] theorem slotTick_kept (s : State) (p : Nat) : (State.slotTick s p).kept = s.kept := by
  simp [State.slotTick]

@[simp ↓] theorem clockCounts_kept (s : State) : (State.clockCounts s).kept = s.kept := by
  unfold State.clockCounts
  repeat' (first | with_reducible rfl | (simp; done) | (refine (kept_foldl _ _ _ ?_).trans ?_) | (intro _ _) | split | simp)

@[simp ↓] theorem counterTick_kept (s : State) : (State.counterTick s).kept = s.kept := by
  unfold State.counterTick
  repeat' (first | with_reducible rfl | (simp; done) | (refine (kept_foldl _ _ _ ?_).trans ?_) | (intro _ _) | split | simp)

@[simp ↓] theorem idle_kept (s : State) : (State.idle s).kept = s.kept := by
  simp [State.idle]

end Sys2Proof.Machine
end

