-- ==== Sys2Proof/Laws/KeptStep.lean ====
section
/-! SUPPORT. What the operations of Machine/Step.lean keep. -/
namespace Sys2Proof.Machine

@[simp ↓] theorem withFetchWord_kept (s : State) (nbits w : Nat) : (State.withFetchWord s nbits w).kept = s.kept := by
  rfl

end Sys2Proof.Machine
end

