-- ==== Sys2Proof/Laws/KeepsRegCmd.lean ====
section
/-! SUPPORT. What the commands and events of Machine/RegCmd.lean keep. -/
namespace Sys2Proof.Machine

theorem execSequenceClear_keeps (off val : Nat) (s : State) : Keeps s (execSequenceClear off val s) := by
  unfold execSequenceClear
  exact evt_keeps (by simp)

end Sys2Proof.Machine
end

