-- ==== Sys2Proof/Laws/KeepsPerfCmd.lean ====
section
/-! SUPPORT. What the commands and events of Machine/PerfCmd.lean keep. -/
namespace Sys2Proof.Machine

theorem execPerfCntSet_keeps (f : Frame) (glb : Bool) (port idx : Nat) (sel : Reg32) (preload : Option Nat) (clrOvf : Bool) (s : State) : Keeps s (execPerfCntSet f glb port idx sel preload clrOvf s) := by
  unfold execPerfCntSet
  exact command_keeps (fun _ => by simp)

theorem execPerfCntGet_keeps (f : Frame) (glb : Bool) (port idx : Nat) (s : State) : Keeps s (execPerfCntGet f glb port idx s) := by
  unfold execPerfCntGet
  exact query_keeps

theorem execPerfOvfSet_keeps (f : Frame) (en : Bool) (vec : Nat) (s : State) : Keeps s (execPerfOvfSet f en vec s) := by
  unfold execPerfOvfSet
  exact command_keeps (fun _ => by simp)

theorem execPerfSampleSet_keeps (f : Frame) (idx : Nat) (cfg : List Nat) (s : State) : Keeps s (execPerfSampleSet f idx cfg s) := by
  unfold execPerfSampleSet
  exact command_keeps (fun _ => by simp)

theorem execSampleRecord_keeps (idx ns : Nat) (s : State) : Keeps s (execSampleRecord idx ns s) := by
  unfold execSampleRecord
  refine evt_keeps ?_
  iterate 24 (all_goals try first | with_reducible rfl | with_reducible assumption | (fail_if_no_progress extract_lets -underBinder +onlyGivenNames x; first | (refine kept_via ?_ ?_ (fun hx => ?_) <;> [(with_reducible apply x; done); (dsimp -zeta only [x]; clear x); (clear_value x)]) | (refine kept_via ?_ ?_ (fun hx => ?_) <;> [(with_reducible apply Prod.fst x; done); (dsimp -zeta only [x]; clear x); (clear_value x)]) | skip) | (with_reducible refine (kept_foldl _ _ _ ?_).trans ?_) | (with_reducible refine (kept_foldl_fst _ _ _ ?_).trans ?_) | split | (intro _ _) | simp only [*] | simp [*] | simp +zetaDelta [*] | (simp_all +zetaDelta [State.kept, -kept_eta]; done))

theorem execPerfSmpHead_keeps (idx head : Nat) (s : State) : Keeps s (execPerfSmpHead idx head s) := by
  unfold execPerfSmpHead
  exact evt_keeps (by simp)

theorem execPerfCtlFreeze_keeps (freeze : Bool) (s : State) : Keeps s (execPerfCtlFreeze freeze s) := by
  unfold execPerfCtlFreeze
  exact evt_keeps (by simp)

theorem execPerfCtlClear_keeps (s : State) : Keeps s (execPerfCtlClear s) := by
  unfold execPerfCtlClear
  exact evt_keeps (by simp)

theorem execOverflowMessage_keeps (s : State) : Keeps s (execOverflowMessage s) := by
  unfold execOverflowMessage
  exact evt_keeps (by simp)

end Sys2Proof.Machine
end

