-- ==== Sys2Proof/Laws/KeepsThermCmd.lean ====
section
/-! SUPPORT. What the commands and events of Machine/ThermCmd.lean keep. -/
namespace Sys2Proof.Machine

theorem execThermalSensorUpdate_keeps (readings : List Nat) (s : State) : Keeps s (execThermalSensorUpdate readings s) := by
  unfold execThermalSensorUpdate
  refine evt_keeps ?_
  iterate 24 (all_goals try first | with_reducible rfl | with_reducible assumption | (fail_if_no_progress extract_lets -underBinder +onlyGivenNames x; first | (refine kept_via ?_ ?_ (fun hx => ?_) <;> [(with_reducible apply x; done); (dsimp -zeta only [x]; clear x); (clear_value x)]) | (refine kept_via ?_ ?_ (fun hx => ?_) <;> [(with_reducible apply Prod.fst x; done); (dsimp -zeta only [x]; clear x); (clear_value x)]) | (clear_value x)) | (with_reducible refine (kept_foldl _ _ _ ?_).trans ?_) | (with_reducible refine (kept_foldl_fst _ _ _ ?_).trans ?_) | split | (intro _ _) | simp only [*] | simp [*] | simp +zetaDelta [*] | (simp_all +zetaDelta [State.kept, -kept_eta]; done))

theorem execDieThermal_keeps (die : Nat) (s : State) : Keeps s (execDieThermal die s) := by
  unfold execDieThermal
  exact evt_keeps (by simp)

theorem execThermalSet_keeps (f : Frame) (grp warn crit : Nat) (s : State) : Keeps s (execThermalSet f grp warn crit s) := by
  unfold execThermalSet
  exact command_keeps (fun _ => by simp)

theorem execThermalStatus_keeps (f : Frame) (s : State) : Keeps s (execThermalStatus f s) := by
  unfold execThermalStatus
  exact query_keeps

theorem execTapInstruction_keeps (op : Nat) (s : State) : Keeps s (execTapInstruction op s) := by
  unfold execTapInstruction
  exact evt_keeps (by simp)

theorem execTestLogicReset_keeps (s : State) : Keeps s (execTestLogicReset s) := by
  unfold execTestLogicReset
  exact evt_keeps (by simp)

end Sys2Proof.Machine
end

