-- ==== Sys2Proof/Laws/Mailbox.lean ====
section
/-! SUPPORT. What the mailbox's shared operations can do, each said once: admission, the form of a command and of an event, replies. -/
namespace Sys2Proof.Machine

/-- A frame of a session whose MAC its key gives executes where the other checks let it. -/
theorem session_executes {op : Nat} {f : Frame} {c : Instr} {s : State} {x : Session} {y : Nat × Nat × State}
    (hx : s.session f.sid = some x) (hm : f.mac = commandMac f op x.sk)
    (h : (match s.admitMac op f c true with
      | .go role sl s1 => if (lockBit op).any s1.locked then none else some (role, sl, s1)
      | _ => none) = some y) : s.executes op f c = some y := by
  have hk : s.macHolds op f = true := by simp [State.macHolds, hx, hm]
  unfold State.executes State.admission
  rw [hk]
  exact h

/-- A command that executes and whose guard passes has its effect, its response, and settles. -/
theorem commandR_executes {op : Nat} {f : Frame} {c : Instr} {b : Body} {s : State} {role sl : Nat} {s1 : State}
    (h : s.executes op f c = some (role, sl, s1)) (hg : b.guard role sl s1 = none) :
    commandR op f c b s = .next ((b.run role sl s1).1.reply f op (b.run role sl s1).2.1 (b.run role sl s1).2.2).settle := by
  unfold State.executes at h
  unfold commandR
  cases ha : s.admission op f c with
  | go r l t =>
    rw [ha] at h
    by_cases hl : (lockBit op).any t.locked
    · simp [hl] at h
    · simp only [hl, Bool.false_eq_true, if_false, Option.some.injEq, Prod.mk.injEq] at h
      obtain ⟨rfl, rfl, rfl⟩ := h
      simp [execBody, hl, hg]
  | silent => rw [ha] at h; simp at h
  | answer rc t => rw [ha] at h; simp at h
  | done t => rw [ha] at h; simp at h

/-- A command that executes and whose guard refuses is answered with the guard's code and has no other effect. -/
theorem commandR_refused {op : Nat} {f : Frame} {c : Instr} {b : Body} {s : State} {role sl rc : Nat} {s1 : State}
    (h : s.executes op f c = some (role, sl, s1)) (hg : b.guard role sl s1 = some rc) :
    commandR op f c b s = .next (s1.reply f op rc []).settle := by
  unfold State.executes at h
  unfold commandR
  cases ha : s.admission op f c with
  | go r l t =>
    rw [ha] at h
    by_cases hl : (lockBit op).any t.locked
    · simp [hl] at h
    · simp only [hl, Bool.false_eq_true, if_false, Option.some.injEq, Prod.mk.injEq] at h
      obtain ⟨rfl, rfl, rfl⟩ := h
      simp [execBody, hl, hg]
  | silent => rw [ha] at h; simp at h
  | answer rc t => rw [ha] at h; simp at h
  | done t => rw [ha] at h; simp at h

/-- A mailbox command always answers a next state. -/
theorem commandR_goesOn (op : Nat) (f : Frame) (c : Instr) (b : Body) (s : State) : goesOn (commandR op f c b s) := by
  unfold commandR
  cases s.admission op f c <;> exact ⟨_, rfl⟩

/-- An event that can occur has its effect and settles. -/
theorem evt_happens {can : Bool} {effect : State → State} {s : State} (h : can = true) :
    evt can effect s = .next (effect s).settle := by subst h; rfl

/-- An event that cannot occur leaves the state as it is. -/
theorem evt_not {can : Bool} {effect : State → State} {s : State} (h : can = false) : evt can effect s = .next s := by
  subst h; rfl

/-- An event always answers a next state. -/
theorem evt_goesOn (can : Bool) (effect : State → State) (s : State) : goesOn (evt can effect s) := ⟨_, rfl⟩

/-- No check is left. -/
@[simp] theorem checks_nil : checks [] = none := rfl

/-- The first check that fails gives the code. -/
@[simp] theorem checks_cons (b : Bool) (rc : Nat) (l : List (Bool × Nat)) :
    checks ((b, rc) :: l) = if b then some rc else checks l := by
  cases b <;> rfl

/-- A list of checks passes when none of them fails. -/
theorem checks_none (l : List (Bool × Nat)) : checks l = none ↔ ∀ x ∈ l, x.1 = false := by
  induction l with
  | nil => simp
  | cons a r ih => obtain ⟨b, rc⟩ := a; cases b <;> simp [ih]

/-- No response yet: a reply with that mark changes nothing. -/
@[simp] theorem reply_later (s : State) (f : Frame) (op : Nat) (data : List Nat) : s.reply f op rcLater data = s := by
  simp [State.reply]

end Sys2Proof.Machine
end

