-- ==== Sys2Proof/Laws/Table.lean ====
section
/-! SUPPORT. Sparse tables: what a lookup sees of every change, and that every change keeps the canonical form (log 3). -/
namespace Sys2Proof.Machine

variable {α : Type}

/-! ### Lookups -/

/-- A lookup after a value is put. -/
theorem find_put (t : Tbl α) (k j : Nat) (v : α) : Tbl.find (Tbl.put t k v) j = if j = k then some v else Tbl.find t j := by
  induction t with
  | nil =>
    by_cases h : k = j
    · simp [Tbl.put, Tbl.find, h]
    · have h2 : ¬ j = k := fun e => h e.symm
      simp [Tbl.put, Tbl.find, h, h2]
  | cons e r ih =>
    obtain ⟨i, a⟩ := e
    unfold Tbl.put
    split
    · by_cases h : k = j
      · simp [Tbl.find, h]
      · have h2 : ¬ j = k := fun e => h e.symm
        simp [Tbl.find, h, h2]
    · split
      · rename_i h1
        subst h1
        by_cases h : i = j
        · simp [Tbl.find, h]
        · have h2 : ¬ j = i := fun e => h e.symm
          simp [Tbl.find, h, h2]
      · simp only [Tbl.find, ih]
        by_cases h : i = j
        · subst h
          simp_all
        · simp [h]

/-- Keys above a lower bound are not found below it. -/
theorem find_below [DecidableEq α] (d : α) (t : Tbl α) (lo j : Nat) (h : Tbl.okFrom d lo t = true) (hj : j < lo) : Tbl.find t j = none := by
  induction t generalizing lo with
  | nil => rfl
  | cons e r ih =>
    obtain ⟨i, a⟩ := e
    simp only [Tbl.okFrom, Bool.and_eq_true, decide_eq_true_eq] at h
    simp only [Tbl.find]
    rw [if_neg (by omega)]
    exact ih (i + 1) h.2 (by omega)

/-- A lookup in a canonical table after a key is taken out. -/
theorem find_del [DecidableEq α] (d : α) (t : Tbl α) (lo k j : Nat) (h : Tbl.okFrom d lo t = true) :
    Tbl.find (Tbl.del t k) j = if j = k then none else Tbl.find t j := by
  induction t generalizing lo with
  | nil => simp [Tbl.del, Tbl.find]
  | cons e r ih =>
    obtain ⟨i, a⟩ := e
    simp only [Tbl.okFrom, Bool.and_eq_true, decide_eq_true_eq] at h
    unfold Tbl.del
    split
    · rename_i h1
      subst h1
      by_cases hj : j = i
      · subst hj
        rw [if_pos rfl]
        exact find_below d r (j + 1) j h.2 (by omega)
      · rw [if_neg hj]
        simp only [Tbl.find]
        rw [if_neg (fun e => hj e.symm)]
    · rename_i h1
      simp only [Tbl.find, ih (i + 1) h.2]
      by_cases hi : i = j
      · subst hi
        simp [h1]
      · simp [hi]

/-! ### The canonical form is kept -/

/-- A smaller lower bound. -/
theorem okFrom_le [DecidableEq α] {d : α} {t : Tbl α} {lo lo' : Nat} (h : Tbl.okFrom d lo t = true) (hl : lo' ≤ lo) : Tbl.okFrom d lo' t = true := by
  cases t with
  | nil => rfl
  | cons e r =>
    obtain ⟨i, a⟩ := e
    simp only [Tbl.okFrom, Bool.and_eq_true, decide_eq_true_eq] at h ⊢
    exact ⟨⟨by omega, h.1.2⟩, h.2⟩

/-- A value that is not the default is put. -/
theorem okFrom_put [DecidableEq α] {d : α} {t : Tbl α} {lo k : Nat} {v : α} (h : Tbl.okFrom d lo t = true) (hk : lo ≤ k) (hv : v ≠ d) :
    Tbl.okFrom d lo (Tbl.put t k v) = true := by
  induction t generalizing lo with
  | nil => simp [Tbl.put, Tbl.okFrom, hk, hv]
  | cons e r ih =>
    obtain ⟨i, a⟩ := e
    simp only [Tbl.okFrom, Bool.and_eq_true, decide_eq_true_eq] at h
    unfold Tbl.put
    split
    · simp only [Tbl.okFrom, Bool.and_eq_true, decide_eq_true_eq]
      exact ⟨⟨hk, hv⟩, ⟨by omega, h.1.2⟩, h.2⟩
    · split
      · rename_i h1
        subst h1
        simp only [Tbl.okFrom, Bool.and_eq_true, decide_eq_true_eq]
        exact ⟨⟨hk, hv⟩, h.2⟩
      · simp only [Tbl.okFrom, Bool.and_eq_true, decide_eq_true_eq]
        exact ⟨h.1, ih h.2 (by omega)⟩

/-- A key is taken out. -/
theorem okFrom_del [DecidableEq α] {d : α} {t : Tbl α} {lo : Nat} (k : Nat) (h : Tbl.okFrom d lo t = true) : Tbl.okFrom d lo (Tbl.del t k) = true := by
  induction t generalizing lo with
  | nil => rfl
  | cons e r ih =>
    obtain ⟨i, a⟩ := e
    simp only [Tbl.okFrom, Bool.and_eq_true, decide_eq_true_eq] at h
    unfold Tbl.del
    split
    · exact okFrom_le h.2 (by omega)
    · simp only [Tbl.okFrom, Bool.and_eq_true, decide_eq_true_eq]
      exact ⟨h.1, ih h.2⟩

/-- Entries are filtered. -/
theorem okFrom_filter [DecidableEq α] {d : α} {t : Tbl α} {lo : Nat} (p : Nat × α → Bool) (h : Tbl.okFrom d lo t = true) : Tbl.okFrom d lo (t.filter p) = true := by
  induction t generalizing lo with
  | nil => rfl
  | cons e r ih =>
    obtain ⟨i, a⟩ := e
    simp only [Tbl.okFrom, Bool.and_eq_true, decide_eq_true_eq] at h
    simp only [List.filter_cons]
    split
    · simp only [Tbl.okFrom, Bool.and_eq_true, decide_eq_true_eq]
      exact ⟨h.1, ih h.2⟩
    · exact okFrom_le (ih h.2) (by omega)

/-- A value is set: a value equal to the default is not listed. -/
theorem wf_set [DecidableEq α] {d : α} {t : Tbl α} (k : Nat) (v : α) (h : Tbl.wf d t = true) : Tbl.wf d (Tbl.set d t k v) = true := by
  unfold Tbl.set
  split
  · exact okFrom_del k h
  · rename_i hv
    exact okFrom_put h (Nat.zero_le k) hv

/-- Every listed value is changed. -/
theorem okFrom_mapv [DecidableEq α] {d : α} {t : Tbl α} {lo : Nat} (f : Nat → α → α) (h : Tbl.okFrom d lo t = true) : Tbl.okFrom d lo (Tbl.mapv d f t) = true := by
  induction t generalizing lo with
  | nil => rfl
  | cons e r ih =>
    obtain ⟨i, a⟩ := e
    simp only [Tbl.okFrom, Bool.and_eq_true, decide_eq_true_eq] at h
    unfold Tbl.mapv
    split
    · exact okFrom_le (ih h.2) (by omega)
    · rename_i hv
      simp only [Tbl.okFrom, Bool.and_eq_true, decide_eq_true_eq]
      exact ⟨⟨h.1.1, hv⟩, ih h.2⟩

/-- Entries are kept by a test. -/
theorem wf_keep [DecidableEq α] {d : α} {t : Tbl α} (p : Nat → α → Bool) (h : Tbl.wf d t = true) : Tbl.wf d (Tbl.keep p t) = true := okFrom_filter _ h

/-- A value set that is not the default reads back. -/
theorem get_set_self [DecidableEq α] {d : α} {t : Tbl α} {k : Nat} {v : α} (h : v ≠ d) : Tbl.get d (Tbl.set d t k v) k = v := by
  simp [Tbl.get, Tbl.set, h, find_put]

/-- A value set in a canonical table changes no other key. -/
theorem get_set_other [DecidableEq α] {d : α} {t : Tbl α} {k j : Nat} {v : α} (hw : Tbl.wf d t = true) (h : j ≠ k) :
    Tbl.get d (Tbl.set d t k v) j = Tbl.get d t j := by
  unfold Tbl.get Tbl.set
  split
  · rw [find_del d t 0 k j hw, if_neg h]
  · rw [find_put, if_neg h]

/-! ### The flash of the firmware banks -/

/-- A byte written keeps the flash canonical. -/
theorem wf_flashPut {l : List Host.Cell} (a : Nat) (b : Byte) (h : Tbl.wf (0xFF : Byte) l = true) : Tbl.wf (0xFF : Byte) (flashPut l a b) = true := wf_set a b h

/-- Bytes written one after another keep the flash canonical. -/
theorem wf_flashPuts {γ : Type} (at' : γ → Nat) (byte : γ → Byte) (xs : List γ) {l : List Host.Cell} (h : Tbl.wf (0xFF : Byte) l = true) :
    Tbl.wf (0xFF : Byte) (xs.foldl (fun l x => flashPut l (at' x) (byte x)) l) = true := by
  induction xs generalizing l with
  | nil => exact h
  | cons x r ih => exact ih (wf_flashPut _ _ h)

/-- The flash after reset is canonical. -/
theorem wf_reset : Tbl.wf (0xFF : Byte) State.reset.fw.flash = true := rfl

end Sys2Proof.Machine
end

