-- ==== Sys2Proof/Laws/Moves.lean ====
section
/-! SUPPORT. What the operations that touch the locks, the firmware banks, SILL_CTL and SILL_LIMITS do to them. -/
namespace Sys2Proof.Machine

/-- The queue is as it was, the minimum SVN is no lower, and the form of the registers and of the flash is kept. -/
def Moves (s t : State) : Prop := t.pending = s.pending ∧ s.fw.minSvn ≤ t.fw.minSvn ∧ (s.inForm → t.inForm)

/-- Moves, and no GLOBAL_LOCK bit is cleared. -/
def Firm (s t : State) : Prop := Moves s t ∧ ∀ g, s.locked g = true → t.locked g = true

/-- Equal parts. -/
theorem kept_parts {s t : State} (h : t.kept = s.kept) :
    t.pending = s.pending ∧ t.glob.lock = s.glob.lock ∧ t.fw = s.fw ∧ t.sill.ctl = s.sill.ctl ∧ t.sill.limits = s.sill.limits := by
  simpa only [State.kept, Prod.mk.injEq] using h

/-- What keeps the parts is firm. -/
theorem firm_of_kept {s t : State} (h : t.kept = s.kept) : Firm s t := by
  obtain ⟨hp, hl, hf, hc, hm⟩ := kept_parts h
  refine ⟨⟨hp, by rw [hf], fun hi => ?_⟩, fun g hg => ?_⟩
  · simp only [State.inForm, hl, hf, hc, hm] at hi ⊢
    exact hi
  · simp only [State.locked, hl] at hg ⊢
    exact hg

theorem Firm.refl (s : State) : Firm s s := firm_of_kept rfl

theorem Moves.trans {s t u : State} (h : Moves s t) (k : Moves t u) : Moves s u :=
  ⟨k.1.trans h.1, Nat.le_trans h.2.1 k.2.1, fun hi => k.2.2 (h.2.2 hi)⟩

theorem Firm.trans {s t u : State} (h : Firm s t) (k : Firm t u) : Firm s u :=
  ⟨h.1.trans k.1, fun g hg => k.2 g (h.2 g hg)⟩

/-- Every next state of an outcome is firm. -/
def FirmRes (s : State) (r : Res) : Prop := ∀ t, r = .next t → Firm s t

theorem firmRes_of_keeps {s : State} {r : Res} (h : Keeps s r) : FirmRes s r := fun t ht => firm_of_kept (h t ht)

/-- An event is firm where its effect is. -/
theorem evt_firm {can : Bool} {effect : State → State} {s : State} (h : Firm s (effect s)) : FirmRes s (evt can effect s) := by
  intro t ht
  simp only [evt, Host.Outcome.next.injEq] at ht
  subst ht
  split
  · exact h.trans (firm_of_kept (by simp))
  · exact Firm.refl s

/-- A mailbox command is firm where its run is, once its guard has passed. -/
theorem commandR_firm {op : Nat} {f : Frame} {c : Instr} {b : Body} {s : State} (h : ∀ role sl t, b.guard role sl t = none → Firm t (b.run role sl t).1) :
    FirmRes s (commandR op f c b s) := by
  have ha := admission_keeps s op f c
  intro t ht
  unfold commandR at ht
  split at ht <;> rename_i hv <;> rw [hv] at ha <;> (injection ht; subst t) <;> dsimp only [verdictKeeps] at ha
  · exact Firm.refl s
  · exact firm_of_kept (by simp [ha])
  · exact firm_of_kept (by simp [ha])
  · rename_i role sl s1
    refine (firm_of_kept ha).trans ?_
    refine Firm.trans ?_ (firm_of_kept (settle_kept _))
    unfold execBody
    split
    · exact firm_of_kept (by simp)
    · split
      · exact firm_of_kept (by simp)
      · rename_i hg
        exact (h role sl s1 hg).trans (firm_of_kept (by simp))

/-- The same where the rule does not look at the role. -/
theorem command_firm {op : Nat} {f : Frame} {c : Instr} {guard : State → Option Nat} {run : State → State × Nat × List Nat} {s : State}
    (h : ∀ t, guard t = none → Firm t (run t).1) : FirmRes s (command op f c guard run s) := commandR_firm (fun _ _ t hg => h t hg)

/-! ### Firmware banks -/

/-- Only the banks' records change. -/
theorem firm_fw {s : State} {w : Fw} (hf : Tbl.wf (0xFF : Byte) s.fw.flash = true → Tbl.wf (0xFF : Byte) w.flash = true) (hm : s.fw.minSvn ≤ w.minSvn) : Firm s { s with fw := w } :=
  ⟨⟨rfl, hm, fun hi => ⟨hi.1, hi.2.1, hi.2.2.1, hf hi.2.2.2⟩⟩, fun _ hg => hg⟩

theorem setBank_firm (s : State) (n : Nat) (b : Bank) : Firm s (s.setBank n b) := by
  unfold State.setBank
  extract_lets src s1
  have h1 : Firm s s1 := by
    dsimp only [s1, src]
    split
    · exact firm_fw id (Nat.le_refl _)
    · exact firm_fw id (Nat.le_refl _)
  clear_value s1
  split
  · exact h1
  · exact h1.trans (firm_of_kept (by simp))

theorem execFwTransfer_firm (f : Frame) (off : Nat) (data : List Byte) (s : State) : FirmRes s (execFwTransfer f off data s) := by
  unfold execFwTransfer
  refine command_firm (fun t _ => ?_)
  extract_lets n base old new
  refine Firm.trans (firm_fw (s := t) (w := { t.fw with flash := new }) (fun hw => ?_) (Nat.le_refl _)) (setBank_firm _ _ _)
  have ho : Tbl.wf (0xFF : Byte) old = true := by
    dsimp only [old]
    split
    · exact okFrom_filter _ hw
    · exact hw
  exact wf_flashPuts _ _ _ ho

theorem execFwVerifyDone_firm (s : State) : FirmRes s (execFwVerifyDone s) := by
  unfold execFwVerifyDone
  refine evt_firm ?_
  extract_lets n b img svn st s1
  have h1 : Firm s s1 := setBank_firm _ _ _
  clear_value s1
  exact h1.trans (firm_of_kept (by simp))

theorem bootBank_firm (s : State) : Firm s s.bootBank := by
  unfold State.bootBank
  extract_lets m
  clear_value m
  split
  · exact Firm.refl s
  · rename_i n
    extract_lets b img o s1 s2 src
    split
    · have h1 : Firm s s1 := by
        dsimp only [s1]
        split
        · exact setBank_firm _ _ _
        · exact Firm.refl s
      have h2 : Firm s s2 := h1.trans (setBank_firm _ _ _)
      dsimp only [src]
      clear_value s2
      exact h2.trans (firm_fw id (Nat.le_max_left _ _))
    · exact setBank_firm _ _ _

theorem bankCut_firm (s : State) : Firm s s.bankCut := by
  unfold State.bankCut
  extract_lets f
  have hf : ∀ s n, Firm s (f s n) := by
    intro s n
    dsimp only [f]
    split
    · exact setBank_firm _ _ _
    · exact Firm.refl s
  exact (hf s 0).trans (hf _ 1)

theorem coreBoot_firm (s : State) (kind : Nat) : Firm s (s.coreBoot kind) := by
  unfold State.coreBoot
  extract_lets loc s1 s2 a b s3
  have h2 : s2.kept = s.kept := by
    refine (kept_foldl _ _ _ (fun _ _ => by simp)).trans ?_
    simp [s1]
  have h3 : s3.kept = s.kept := h2
  clear_value s3
  exact (firm_of_kept h3).trans (bootBank_firm s3)

theorem mrRelease_firm (s : State) : Firm s s.mrRelease := by
  unfold State.mrRelease
  extract_lets s1 a b s2
  have h1 : s1.kept = s.kept := aliveOn_kept s
  have h2 : s2.kept = s.kept := h1
  clear_value s2
  exact (firm_of_kept h2).trans (coreBoot_firm s2 2)

theorem execModuleResetRelease_firm (s : State) : FirmRes s (execModuleResetRelease s) := by
  unfold execModuleResetRelease
  refine evt_firm ?_
  extract_lets s1
  have h1 : Firm s s1 := mrRelease_firm s
  clear_value s1
  split <;> exact h1.trans (firm_of_kept rfl)

theorem execFwActivate_firm (f : Frame) (resetNow : Bool) (s : State) : FirmRes s (execFwActivate f resetNow s) := by
  unfold execFwActivate
  refine command_firm (fun t _ => ?_)
  extract_lets n b s1
  have h1 : Firm t s1 := setBank_firm _ _ _
  clear_value s1
  split
  · exact h1.trans (firm_of_kept (by simp))
  · exact h1

/-! ### Resets -/

theorem moduleCut_moves (s : State) : Moves s s.moduleCut := by
  unfold State.moduleCut
  extract_lets s1 m
  have h0 : (s.resetTrunks.opsCut).kept = s.kept := by simp
  have h1 : Firm s s1 := ((firm_of_kept h0).trans (bankCut_firm _)).trans (firm_of_kept (by simp [s1]))
  clear_value s1
  have hz : ({} : Tri).maj &&& ~~~(0x1F : Reg64) = 0 := by decide
  exact h1.1.trans ⟨rfl, Nat.le_refl _, fun hi => ⟨hz, hi.2.1, hi.2.2.1, hi.2.2.2⟩⟩

theorem execModuleResetCoreReset_moves (s t : State) (h : execModuleResetCoreReset s = .next t) : Moves s t := by
  unfold execModuleResetCoreReset at h
  simp only [evt, Host.Outcome.next.injEq] at h
  subst h
  split
  · refine Moves.trans ?_ (firm_of_kept (settle_kept _)).1
    have h1 := moduleCut_moves s
    generalize s.moduleCut = s1 at h1
    exact h1.trans (firm_of_kept rfl).1
  · exact (Firm.refl s).1

theorem cold_moves (s : State) : Moves s s.cold := by
  unfold State.cold
  extract_lets c r g m h p sl
  have hc : Firm s c := (firm_of_kept (opsCut_kept s)).trans (bankCut_firm _)
  clear_value c
  refine hc.1.trans ⟨rfl, Nat.le_refl _, fun hi => ⟨?_, ?_, ?_, hi.2.2.2⟩⟩
  · exact (by decide : ({} : Tri).maj &&& ~~~(0x1F : Reg64) = 0)
  · exact (by decide : State.reset.sill.ctl.maj &&& ~~~ctlMask = 0)
  · exact (by decide : State.reset.sill.limits.maj &&& ~~~limMask = 0)

theorem execColdReset_moves (s t : State) (h : execColdReset s = .next t) : Moves s t := by
  unfold execColdReset at h
  injection h with h
  subst h
  split
  · exact (Firm.refl s).1
  · have h1 := cold_moves s
    generalize s.cold = s1 at h1
    exact h1.trans (firm_of_kept (by simp)).1

theorem execPolStop_moves (s t : State) (h : execPolStop s = .next t) : Moves s t := by
  unfold execPolStop at h
  simp only [evt, Host.Outcome.next.injEq] at h
  subst h
  split
  · refine Moves.trans ?_ (firm_of_kept (settle_kept _)).1
    have h1 := (moduleCut_moves s).trans (mrRelease_firm s.moduleCut).1
    generalize s.moduleCut.mrRelease = s2 at h1
    exact h1.trans (firm_of_kept rfl).1
  · exact (Firm.refl s).1

theorem execSelfTestDone_firm (pass : Bool) (s : State) : FirmRes s (execSelfTestDone pass s) := by
  unfold execSelfTestDone
  refine evt_firm ?_
  split
  · extract_lets a si s1 v s2 si'
    have h1 : s1.kept = s.kept := by
      have ha := kept_parts (aliveOn_kept s)
      simp only [State.kept, Prod.mk.injEq]
      exact ⟨ha.1, ha.2.1, ha.2.2.1, rfl, rfl⟩
    have h2 : Firm s s2 := by
      dsimp only [s2, v]
      clear_value s1
      split
      · exact (firm_of_kept h1).trans (coreBoot_firm _ _)
      · exact (firm_of_kept h1).trans (firm_of_kept rfl)
    dsimp only [si']
    clear_value s2
    exact h2.trans (firm_of_kept rfl)
  · exact firm_of_kept (by simp)

/-! ### Reserved bits -/

theorem maj_all (v : Reg64) : (Tri.all v).maj = v := by simp [Tri.all, Tri.maj]

theorem clean_or {x y n : Reg64} (hx : x &&& n = 0) (hy : y &&& n = 0) : (x ||| y) &&& n = 0 := by
  rw [BitVec.and_comm, BitVec.and_or_distrib_left, BitVec.and_comm n x, BitVec.and_comm n y, hx, hy]
  rfl

theorem clean_and {x y n : Reg64} (hx : x &&& n = 0) : x &&& y &&& n = 0 := by
  rw [BitVec.and_assoc, BitVec.and_comm y n, ← BitVec.and_assoc, hx]
  simp

theorem clean_mask (x m : Reg64) : x &&& m &&& ~~~m = 0 := by
  rw [BitVec.and_assoc]
  simp

/-- SILL_CTL and SILL_LIMITS written with their reserved bits clear. -/
theorem firm_sill {s : State} {v : Sill} (hc : s.sill.ctl.maj &&& ~~~ctlMask = 0 → v.ctl.maj &&& ~~~ctlMask = 0)
    (hl : s.sill.limits.maj &&& ~~~limMask = 0 → v.limits.maj &&& ~~~limMask = 0) : Firm s { s with sill := v } :=
  ⟨⟨rfl, Nat.le_refl _, fun hi => ⟨hi.1, hc hi.2.1, hl hi.2.2.1, hi.2.2.2⟩⟩, fun _ hg => hg⟩

/-- GLOBAL_LOCK written with more bits set. -/
theorem firm_lock {s : State} {x : Reg64} (hx : x &&& ~~~(0x1F : Reg64) = 0) : Firm s { s with glob := { s.glob with lock := Tri.all (s.glob.lock.maj ||| x) } } := by
  refine ⟨⟨rfl, Nat.le_refl _, fun hi => ⟨?_, hi.2.1, hi.2.2.1, hi.2.2.2⟩⟩, fun g hg => ?_⟩
  · rw [maj_all]
    exact clean_or hi.1 hx
  · have hb : ∀ n, bit n g = n.testBit g := fun n => by rw [Nat.testBit_eq_decide_div_mod_eq, bit]; rfl
    simp only [State.locked, hb, maj_all, BitVec.toNat_or, Nat.testBit_or] at hg ⊢
    simp [hg]

/-- A mask of the lock groups has no other bit. -/
theorem lockMask_clean {n : Nat} (h : n < 32) : BitVec.ofNat 64 n &&& ~~~(0x1F : Reg64) = 0 := by
  have : n ∈ List.range 32 := List.mem_range.mpr h
  revert this n
  decide

/-! ### The Sill -/

theorem sillEn_firm (s : State) (en : Bool) : Firm s (s.sillEn en) := by
  unfold State.sillEn
  extract_lets was c si s1 off on
  have h1 : Firm s s1 := by
    refine firm_sill (fun hc => ?_) id
    rw [maj_all]
    refine clean_or (clean_and hc) ?_
    cases en <;> decide
  clear_value s1
  split
  · exact h1
  split
  · exact h1.trans (firm_of_kept rfl)
  split
  · refine (h1.trans ?_).trans (firm_of_kept (pfwAssert_kept _ _))
    exact firm_of_kept rfl
  split
  · exact h1.trans (firm_of_kept rfl)
  split
  · exact (h1.trans (firm_of_kept rfl)).trans (firm_of_kept (turnOff_kept _ _))
  · exact h1.trans (firm_of_kept rfl)

theorem execSillCtlEn_firm (en : Bool) (s : State) : FirmRes s (execSillCtlEn en s) := by
  unfold execSillCtlEn
  refine evt_firm ?_
  split
  · exact firm_of_kept (by simp)
  · exact sillEn_firm s en

/-- The fields of SILL_CTL but EN from a new value, EN as it was. -/
theorem ctl_clean {v w : Reg64} : ((v &&& ctlMask &&& 0x7FFFFFFFFFFFFFFF) ||| (w &&& 0x8000000000000000)) &&& ~~~ctlMask = 0 := by
  refine clean_or (clean_and (clean_mask v ctlMask)) ?_
  rw [BitVec.and_assoc, show (0x8000000000000000 : Reg64) &&& ~~~ctlMask = 0 from by decide]
  simp

theorem execPowerSet_firm (f : Frame) (ctl limits : Reg64) (s : State) : FirmRes s (execPowerSet f ctl limits s) := by
  unfold execPowerSet
  refine command_firm (fun t _ => ?_)
  extract_lets was c si s1
  have h1 : Firm t s1 := by
    refine firm_sill (fun _ => ?_) (fun _ => ?_)
    · rw [maj_all]
      exact ctl_clean
    · rw [maj_all]
      exact clean_mask _ _
  clear_value s1
  exact h1.trans (sillEn_firm _ _)

theorem execModuleLock_firm (f : Frame) (mask : Nat) (s : State) : FirmRes s (execModuleLock f mask s) := by
  unfold execModuleLock
  exact command_firm (fun t _ => firm_lock (lockMask_clean (Nat.mod_lt _ (by decide))))

/-! ### Voted fields and register writes -/

theorem tvPut_firm {s u : State} (h : u.kept = s.kept) (k : Nat) : Firm u (u.tvPut k (Tri.all (s.tvGet k).maj)) := by
  obtain ⟨-, hl, -, hc, hm⟩ := kept_parts h
  unfold State.tvPut
  split
  · refine ⟨⟨rfl, Nat.le_refl _, fun hi => ⟨?_, hi.2⟩⟩, fun g hg => ?_⟩
    · rw [maj_all]
      show s.glob.lock.maj &&& _ = 0
      rw [← hl]
      exact hi.1
    · simp only [State.locked, maj_all, hl] at hg ⊢
      exact hg
  · exact firm_of_kept rfl
  · refine firm_sill (fun hi => ?_) id
    rw [maj_all]
    show s.sill.ctl.maj &&& _ = 0
    rw [← hc]
    exact hi
  · refine firm_sill id (fun hi => ?_)
    rw [maj_all]
    show s.sill.limits.maj &&& _ = 0
    rw [← hm]
    exact hi
  all_goals exact firm_of_kept rfl

theorem tvFix_firm (s : State) (k : Nat) : Firm s (s.tvFix k) := by
  unfold State.tvFix
  extract_lets t
  split
  · exact Firm.refl s
  · have hv : (s.voted t (tvOff k) (s.tvLoc k)).kept = s.kept := by simp
    exact (firm_of_kept hv).trans (tvPut_firm hv k)

/-- A fold is firm where each of its steps is. -/
theorem firm_foldl {α : Type} (f : State → α → State) (l : List α) (s : State) (h : ∀ s x, Firm s (f s x)) : Firm s (l.foldl f s) := by
  induction l generalizing s with
  | nil => exact Firm.refl s
  | cons a r ih => exact (h s a).trans (ih (f s a))

theorem tvFixAll_firm (s : State) (ks : List Nat) : Firm s (s.tvFixAll ks) := firm_foldl _ _ _ tvFix_firm

theorem regRead_firm (s : State) (requester off width : Nat) : Firm s (s.regRead requester off width).1 := by
  unfold State.regRead
  extract_lets r o s1 s2
  split
  · exact firm_of_kept (by simp)
  · have h1 : Firm s s1 := tvFixAll_firm _ _
    have h2 : Firm s s2 := by
      dsimp only [s2]
      clear_value s1
      split
      · exact h1.trans (firm_of_kept (by simp))
      · exact h1
    clear_value s2
    split
    · exact h2.trans (firm_of_kept (by simp))
    · exact h2

theorem lockWrite_firm (s : State) (v : Nat) : Firm s (s.lockWrite v) := by
  unfold State.lockWrite
  exact firm_lock (lockMask_clean (Nat.mod_lt _ (by decide)))

theorem sillCtlWrite_firm (s : State) (v : Nat) : Firm s (s.sillCtlWrite v) := by
  unfold State.sillCtlWrite
  split
  · exact firm_of_kept (by simp)
  split
  · exact firm_of_kept (by simp)
  extract_lets c si
  refine Firm.trans (firm_sill (v := { si with ctl := Tri.all c }) (fun _ => ?_) id) (sillEn_firm _ _)
  rw [maj_all]
  exact ctl_clean

theorem sillLimWrite_firm (s : State) (v : Nat) : Firm s (s.sillLimWrite v) := by
  unfold State.sillLimWrite
  split
  · exact firm_of_kept (by simp)
  split
  · exact firm_of_kept (by simp)
  refine firm_sill id (fun _ => ?_)
  rw [maj_all]
  exact clean_mask _ _

theorem regPut_firm (s : State) (off v : Nat) : Firm s (s.regPut off v) := by
  unfold State.regPut
  split
  · exact lockWrite_firm _ _
  split
  · exact sillCtlWrite_firm _ _
  split
  · exact sillLimWrite_firm _ _
  refine firm_of_kept ?_
  iterate 8 (all_goals try first | with_reducible rfl | split | simp)

theorem regWrite_firm (s : State) (off width val : Nat) : Firm s (s.regWrite off width val) := by
  unfold State.regWrite
  split
  · exact Firm.refl s
  split
  · exact firm_of_kept (by simp)
  · exact regPut_firm _ _ _

theorem execGlobalLockWrite_firm (val : Nat) (s : State) : FirmRes s (execGlobalLockWrite val s) := evt_firm (lockWrite_firm _ _)

theorem execRegisterWrite_firm (bar2 : Bool) (port off width val : Nat) (s : State) : FirmRes s (execRegisterWrite bar2 port off width val s) := by
  unfold execRegisterWrite
  refine evt_firm ?_
  split
  · exact firm_of_kept (by simp)
  · exact regWrite_firm _ _ _ _

theorem execTvRead_firm (field : Nat) (s : State) : FirmRes s (execTvRead field s) := evt_firm (tvFixAll_firm _ _)

theorem execWardStatusGet_firm (f : Frame) (s : State) : FirmRes s (execWardStatusGet f s) := by
  unfold execWardStatusGet
  refine command_firm (fun t _ => ?_)
  dsimp only
  exact tvFixAll_firm t _

theorem execPowerStatus_firm (f : Frame) (s : State) : FirmRes s (execPowerStatus f s) := by
  unfold execPowerStatus
  refine command_firm (fun t _ => ?_)
  dsimp only
  exact (tvFixAll_firm t _).trans (firm_of_kept (drawn_kept _))

theorem execVotePass_firm (s : State) : FirmRes s (execVotePass s) := evt_firm (tvFixAll_firm _ _)

theorem execCounterLowRead_firm (requester off : Nat) (s : State) : FirmRes s (execCounterLowRead requester off s) := evt_firm (regRead_firm _ _ _ _)

theorem execRegGet_firm (f : Frame) (off width : Nat) (s : State) : FirmRes s (execRegGet f off width s) := command_firm (fun _ _ => regRead_firm _ _ _ _)

theorem execRegSet_firm (f : Frame) (off width val : Nat) (s : State) : FirmRes s (execRegSet f off width val s) := command_firm (fun _ _ => regWrite_firm _ _ _ _)

end Sys2Proof.Machine
end

