-- ==== Sys2Proof/Laws/State.lean ====
section
/-! SUPPORT. What each update of a record leaves alone, field by field, and what its own record reads as afterwards. -/
namespace Sys2Proof.Machine

/-! ### modTp -/

@[simp] theorem modTp_glob (s : State) (t : Nat) (f : Trunk → Trunk) : (s.modTp t f).glob = s.glob := rfl
@[simp] theorem modTp_svc (s : State) (t : Nat) (f : Trunk → Trunk) : (s.modTp t f).svc = s.svc := rfl
@[simp] theorem modTp_mbx (s : State) (t : Nat) (f : Trunk → Trunk) : (s.modTp t f).mbx = s.mbx := rfl
@[simp] theorem modTp_fw (s : State) (t : Nat) (f : Trunk → Trunk) : (s.modTp t f).fw = s.fw := rfl
@[simp] theorem modTp_perf (s : State) (t : Nat) (f : Trunk → Trunk) : (s.modTp t f).perf = s.perf := rfl
@[simp] theorem modTp_faults (s : State) (t : Nat) (f : Trunk → Trunk) : (s.modTp t f).faults = s.faults := rfl
@[simp] theorem modTp_ports (s : State) (t : Nat) (f : Trunk → Trunk) : (s.modTp t f).ports = s.ports := rfl
@[simp] theorem modTp_pool (s : State) (t : Nat) (f : Trunk → Trunk) : (s.modTp t f).pool = s.pool := rfl
@[simp] theorem modTp_keeper (s : State) (t : Nat) (f : Trunk → Trunk) : (s.modTp t f).keeper = s.keeper := rfl
@[simp] theorem modTp_hs (s : State) (t : Nat) (f : Trunk → Trunk) : (s.modTp t f).hs = s.hs := rfl
@[simp] theorem modTp_xbar (s : State) (t : Nat) (f : Trunk → Trunk) : (s.modTp t f).xbar = s.xbar := rfl
@[simp] theorem modTp_arb (s : State) (t : Nat) (f : Trunk → Trunk) : (s.modTp t f).arb = s.arb := rfl
@[simp] theorem modTp_hier (s : State) (t : Nat) (f : Trunk → Trunk) : (s.modTp t f).hier = s.hier := rfl
@[simp] theorem modTp_dma (s : State) (t : Nat) (f : Trunk → Trunk) : (s.modTp t f).dma = s.dma := rfl
@[simp] theorem modTp_shape (s : State) (t : Nat) (f : Trunk → Trunk) : (s.modTp t f).shape = s.shape := rfl
@[simp] theorem modTp_slices (s : State) (t : Nat) (f : Trunk → Trunk) : (s.modTp t f).slices = s.slices := rfl
@[simp] theorem modTp_ward (s : State) (t : Nat) (f : Trunk → Trunk) : (s.modTp t f).ward = s.ward := rfl
@[simp] theorem modTp_sill (s : State) (t : Nat) (f : Trunk → Trunk) : (s.modTp t f).sill = s.sill := rfl
@[simp] theorem modTp_therm (s : State) (t : Nat) (f : Trunk → Trunk) : (s.modTp t f).therm = s.therm := rfl
@[simp] theorem modTp_out (s : State) (t : Nat) (f : Trunk → Trunk) : (s.modTp t f).out = s.out := rfl
@[simp] theorem modTp_pending (s : State) (t : Nat) (f : Trunk → Trunk) : (s.modTp t f).pending = s.pending := rfl

/-- The record changed, where it is not the default. -/
theorem modTp_tp_self (s : State) (t : Nat) (f : Trunk → Trunk) (h : f (s.tp t) ≠ {}) : (s.modTp t f).tp t = f (s.tp t) := get_set_self h

/-- The records at the other keys. -/
theorem modTp_tp_other (s : State) (t j : Nat) (f : Trunk → Trunk) (hw : Tbl.wf {} s.trunk = true) (h : j ≠ t) : (s.modTp t f).tp j = s.tp j := get_set_other hw h

/-! ### modPort -/

@[simp] theorem modPort_glob (s : State) (p : Nat) (f : Port → Port) : (s.modPort p f).glob = s.glob := rfl
@[simp] theorem modPort_svc (s : State) (p : Nat) (f : Port → Port) : (s.modPort p f).svc = s.svc := rfl
@[simp] theorem modPort_mbx (s : State) (p : Nat) (f : Port → Port) : (s.modPort p f).mbx = s.mbx := rfl
@[simp] theorem modPort_fw (s : State) (p : Nat) (f : Port → Port) : (s.modPort p f).fw = s.fw := rfl
@[simp] theorem modPort_perf (s : State) (p : Nat) (f : Port → Port) : (s.modPort p f).perf = s.perf := rfl
@[simp] theorem modPort_faults (s : State) (p : Nat) (f : Port → Port) : (s.modPort p f).faults = s.faults := rfl
@[simp] theorem modPort_pool (s : State) (p : Nat) (f : Port → Port) : (s.modPort p f).pool = s.pool := rfl
@[simp] theorem modPort_keeper (s : State) (p : Nat) (f : Port → Port) : (s.modPort p f).keeper = s.keeper := rfl
@[simp] theorem modPort_hs (s : State) (p : Nat) (f : Port → Port) : (s.modPort p f).hs = s.hs := rfl
@[simp] theorem modPort_xbar (s : State) (p : Nat) (f : Port → Port) : (s.modPort p f).xbar = s.xbar := rfl
@[simp] theorem modPort_arb (s : State) (p : Nat) (f : Port → Port) : (s.modPort p f).arb = s.arb := rfl
@[simp] theorem modPort_trunk (s : State) (p : Nat) (f : Port → Port) : (s.modPort p f).trunk = s.trunk := rfl
@[simp] theorem modPort_hier (s : State) (p : Nat) (f : Port → Port) : (s.modPort p f).hier = s.hier := rfl
@[simp] theorem modPort_dma (s : State) (p : Nat) (f : Port → Port) : (s.modPort p f).dma = s.dma := rfl
@[simp] theorem modPort_shape (s : State) (p : Nat) (f : Port → Port) : (s.modPort p f).shape = s.shape := rfl
@[simp] theorem modPort_slices (s : State) (p : Nat) (f : Port → Port) : (s.modPort p f).slices = s.slices := rfl
@[simp] theorem modPort_ward (s : State) (p : Nat) (f : Port → Port) : (s.modPort p f).ward = s.ward := rfl
@[simp] theorem modPort_sill (s : State) (p : Nat) (f : Port → Port) : (s.modPort p f).sill = s.sill := rfl
@[simp] theorem modPort_therm (s : State) (p : Nat) (f : Port → Port) : (s.modPort p f).therm = s.therm := rfl
@[simp] theorem modPort_out (s : State) (p : Nat) (f : Port → Port) : (s.modPort p f).out = s.out := rfl
@[simp] theorem modPort_pending (s : State) (p : Nat) (f : Port → Port) : (s.modPort p f).pending = s.pending := rfl

/-- The record changed, where it is not the default. -/
theorem modPort_port_self (s : State) (p : Nat) (f : Port → Port) (h : f (s.port p) ≠ {}) : (s.modPort p f).port p = f (s.port p) := get_set_self h

/-- The records at the other keys. -/
theorem modPort_port_other (s : State) (p j : Nat) (f : Port → Port) (hw : Tbl.wf {} s.ports.port = true) (h : j ≠ p) : (s.modPort p f).port j = s.port j := get_set_other hw h

/-! ### modGroup -/

@[simp] theorem modGroup_glob (s : State) (g : Nat) (f : Group → Group) : (s.modGroup g f).glob = s.glob := rfl
@[simp] theorem modGroup_svc (s : State) (g : Nat) (f : Group → Group) : (s.modGroup g f).svc = s.svc := rfl
@[simp] theorem modGroup_mbx (s : State) (g : Nat) (f : Group → Group) : (s.modGroup g f).mbx = s.mbx := rfl
@[simp] theorem modGroup_fw (s : State) (g : Nat) (f : Group → Group) : (s.modGroup g f).fw = s.fw := rfl
@[simp] theorem modGroup_perf (s : State) (g : Nat) (f : Group → Group) : (s.modGroup g f).perf = s.perf := rfl
@[simp] theorem modGroup_faults (s : State) (g : Nat) (f : Group → Group) : (s.modGroup g f).faults = s.faults := rfl
@[simp] theorem modGroup_pool (s : State) (g : Nat) (f : Group → Group) : (s.modGroup g f).pool = s.pool := rfl
@[simp] theorem modGroup_keeper (s : State) (g : Nat) (f : Group → Group) : (s.modGroup g f).keeper = s.keeper := rfl
@[simp] theorem modGroup_hs (s : State) (g : Nat) (f : Group → Group) : (s.modGroup g f).hs = s.hs := rfl
@[simp] theorem modGroup_xbar (s : State) (g : Nat) (f : Group → Group) : (s.modGroup g f).xbar = s.xbar := rfl
@[simp] theorem modGroup_arb (s : State) (g : Nat) (f : Group → Group) : (s.modGroup g f).arb = s.arb := rfl
@[simp] theorem modGroup_trunk (s : State) (g : Nat) (f : Group → Group) : (s.modGroup g f).trunk = s.trunk := rfl
@[simp] theorem modGroup_hier (s : State) (g : Nat) (f : Group → Group) : (s.modGroup g f).hier = s.hier := rfl
@[simp] theorem modGroup_dma (s : State) (g : Nat) (f : Group → Group) : (s.modGroup g f).dma = s.dma := rfl
@[simp] theorem modGroup_shape (s : State) (g : Nat) (f : Group → Group) : (s.modGroup g f).shape = s.shape := rfl
@[simp] theorem modGroup_slices (s : State) (g : Nat) (f : Group → Group) : (s.modGroup g f).slices = s.slices := rfl
@[simp] theorem modGroup_ward (s : State) (g : Nat) (f : Group → Group) : (s.modGroup g f).ward = s.ward := rfl
@[simp] theorem modGroup_sill (s : State) (g : Nat) (f : Group → Group) : (s.modGroup g f).sill = s.sill := rfl
@[simp] theorem modGroup_therm (s : State) (g : Nat) (f : Group → Group) : (s.modGroup g f).therm = s.therm := rfl
@[simp] theorem modGroup_out (s : State) (g : Nat) (f : Group → Group) : (s.modGroup g f).out = s.out := rfl
@[simp] theorem modGroup_pending (s : State) (g : Nat) (f : Group → Group) : (s.modGroup g f).pending = s.pending := rfl

/-- The record changed, where it is not the default. -/
theorem modGroup_group_self (s : State) (g : Nat) (f : Group → Group) (h : f (s.group g) ≠ {}) : (s.modGroup g f).group g = f (s.group g) := get_set_self h

/-- The records at the other keys. -/
theorem modGroup_group_other (s : State) (g j : Nat) (f : Group → Group) (hw : Tbl.wf {} s.ports.group = true) (h : j ≠ g) : (s.modGroup g f).group j = s.group j := get_set_other hw h

/-! ### modCh -/

@[simp] theorem modCh_glob (s : State) (c : Nat) (f : Chan → Chan) : (s.modCh c f).glob = s.glob := rfl
@[simp] theorem modCh_svc (s : State) (c : Nat) (f : Chan → Chan) : (s.modCh c f).svc = s.svc := rfl
@[simp] theorem modCh_mbx (s : State) (c : Nat) (f : Chan → Chan) : (s.modCh c f).mbx = s.mbx := rfl
@[simp] theorem modCh_fw (s : State) (c : Nat) (f : Chan → Chan) : (s.modCh c f).fw = s.fw := rfl
@[simp] theorem modCh_perf (s : State) (c : Nat) (f : Chan → Chan) : (s.modCh c f).perf = s.perf := rfl
@[simp] theorem modCh_faults (s : State) (c : Nat) (f : Chan → Chan) : (s.modCh c f).faults = s.faults := rfl
@[simp] theorem modCh_ports (s : State) (c : Nat) (f : Chan → Chan) : (s.modCh c f).ports = s.ports := rfl
@[simp] theorem modCh_pool (s : State) (c : Nat) (f : Chan → Chan) : (s.modCh c f).pool = s.pool := rfl
@[simp] theorem modCh_keeper (s : State) (c : Nat) (f : Chan → Chan) : (s.modCh c f).keeper = s.keeper := rfl
@[simp] theorem modCh_hs (s : State) (c : Nat) (f : Chan → Chan) : (s.modCh c f).hs = s.hs := rfl
@[simp] theorem modCh_xbar (s : State) (c : Nat) (f : Chan → Chan) : (s.modCh c f).xbar = s.xbar := rfl
@[simp] theorem modCh_arb (s : State) (c : Nat) (f : Chan → Chan) : (s.modCh c f).arb = s.arb := rfl
@[simp] theorem modCh_trunk (s : State) (c : Nat) (f : Chan → Chan) : (s.modCh c f).trunk = s.trunk := rfl
@[simp] theorem modCh_hier (s : State) (c : Nat) (f : Chan → Chan) : (s.modCh c f).hier = s.hier := rfl
@[simp] theorem modCh_shape (s : State) (c : Nat) (f : Chan → Chan) : (s.modCh c f).shape = s.shape := rfl
@[simp] theorem modCh_slices (s : State) (c : Nat) (f : Chan → Chan) : (s.modCh c f).slices = s.slices := rfl
@[simp] theorem modCh_ward (s : State) (c : Nat) (f : Chan → Chan) : (s.modCh c f).ward = s.ward := rfl
@[simp] theorem modCh_sill (s : State) (c : Nat) (f : Chan → Chan) : (s.modCh c f).sill = s.sill := rfl
@[simp] theorem modCh_therm (s : State) (c : Nat) (f : Chan → Chan) : (s.modCh c f).therm = s.therm := rfl
@[simp] theorem modCh_out (s : State) (c : Nat) (f : Chan → Chan) : (s.modCh c f).out = s.out := rfl
@[simp] theorem modCh_pending (s : State) (c : Nat) (f : Chan → Chan) : (s.modCh c f).pending = s.pending := rfl

/-- The record changed, where it is not the default. -/
theorem modCh_chan_self (s : State) (c : Nat) (f : Chan → Chan) (h : f (s.chan c) ≠ {}) : (s.modCh c f).chan c = f (s.chan c) := get_set_self h

/-- The records at the other keys. -/
theorem modCh_chan_other (s : State) (c j : Nat) (f : Chan → Chan) (hw : Tbl.wf {} s.dma.ch = true) (h : j ≠ c) : (s.modCh c f).chan j = s.chan j := get_set_other hw h

/-! ### modRing -/

@[simp] theorem modRing_glob (s : State) (n : Nat) (f : Ring → Ring) : (s.modRing n f).glob = s.glob := rfl
@[simp] theorem modRing_svc (s : State) (n : Nat) (f : Ring → Ring) : (s.modRing n f).svc = s.svc := rfl
@[simp] theorem modRing_mbx (s : State) (n : Nat) (f : Ring → Ring) : (s.modRing n f).mbx = s.mbx := rfl
@[simp] theorem modRing_fw (s : State) (n : Nat) (f : Ring → Ring) : (s.modRing n f).fw = s.fw := rfl
@[simp] theorem modRing_perf (s : State) (n : Nat) (f : Ring → Ring) : (s.modRing n f).perf = s.perf := rfl
@[simp] theorem modRing_faults (s : State) (n : Nat) (f : Ring → Ring) : (s.modRing n f).faults = s.faults := rfl
@[simp] theorem modRing_ports (s : State) (n : Nat) (f : Ring → Ring) : (s.modRing n f).ports = s.ports := rfl
@[simp] theorem modRing_pool (s : State) (n : Nat) (f : Ring → Ring) : (s.modRing n f).pool = s.pool := rfl
@[simp] theorem modRing_keeper (s : State) (n : Nat) (f : Ring → Ring) : (s.modRing n f).keeper = s.keeper := rfl
@[simp] theorem modRing_hs (s : State) (n : Nat) (f : Ring → Ring) : (s.modRing n f).hs = s.hs := rfl
@[simp] theorem modRing_xbar (s : State) (n : Nat) (f : Ring → Ring) : (s.modRing n f).xbar = s.xbar := rfl
@[simp] theorem modRing_arb (s : State) (n : Nat) (f : Ring → Ring) : (s.modRing n f).arb = s.arb := rfl
@[simp] theorem modRing_trunk (s : State) (n : Nat) (f : Ring → Ring) : (s.modRing n f).trunk = s.trunk := rfl
@[simp] theorem modRing_hier (s : State) (n : Nat) (f : Ring → Ring) : (s.modRing n f).hier = s.hier := rfl
@[simp] theorem modRing_shape (s : State) (n : Nat) (f : Ring → Ring) : (s.modRing n f).shape = s.shape := rfl
@[simp] theorem modRing_slices (s : State) (n : Nat) (f : Ring → Ring) : (s.modRing n f).slices = s.slices := rfl
@[simp] theorem modRing_ward (s : State) (n : Nat) (f : Ring → Ring) : (s.modRing n f).ward = s.ward := rfl
@[simp] theorem modRing_sill (s : State) (n : Nat) (f : Ring → Ring) : (s.modRing n f).sill = s.sill := rfl
@[simp] theorem modRing_therm (s : State) (n : Nat) (f : Ring → Ring) : (s.modRing n f).therm = s.therm := rfl
@[simp] theorem modRing_out (s : State) (n : Nat) (f : Ring → Ring) : (s.modRing n f).out = s.out := rfl
@[simp] theorem modRing_pending (s : State) (n : Nat) (f : Ring → Ring) : (s.modRing n f).pending = s.pending := rfl

/-- The record changed, where it is not the default. -/
theorem modRing_ring_self (s : State) (n : Nat) (f : Ring → Ring) (h : f (s.ring n) ≠ {}) : (s.modRing n f).ring n = f (s.ring n) := get_set_self h

/-- The records at the other keys. -/
theorem modRing_ring_other (s : State) (n j : Nat) (f : Ring → Ring) (hw : Tbl.wf {} s.dma.ring = true) (h : j ≠ n) : (s.modRing n f).ring j = s.ring j := get_set_other hw h

/-! ### modCring -/

@[simp] theorem modCring_glob (s : State) (n : Nat) (f : CRing → CRing) : (s.modCring n f).glob = s.glob := rfl
@[simp] theorem modCring_svc (s : State) (n : Nat) (f : CRing → CRing) : (s.modCring n f).svc = s.svc := rfl
@[simp] theorem modCring_mbx (s : State) (n : Nat) (f : CRing → CRing) : (s.modCring n f).mbx = s.mbx := rfl
@[simp] theorem modCring_fw (s : State) (n : Nat) (f : CRing → CRing) : (s.modCring n f).fw = s.fw := rfl
@[simp] theorem modCring_perf (s : State) (n : Nat) (f : CRing → CRing) : (s.modCring n f).perf = s.perf := rfl
@[simp] theorem modCring_faults (s : State) (n : Nat) (f : CRing → CRing) : (s.modCring n f).faults = s.faults := rfl
@[simp] theorem modCring_ports (s : State) (n : Nat) (f : CRing → CRing) : (s.modCring n f).ports = s.ports := rfl
@[simp] theorem modCring_pool (s : State) (n : Nat) (f : CRing → CRing) : (s.modCring n f).pool = s.pool := rfl
@[simp] theorem modCring_keeper (s : State) (n : Nat) (f : CRing → CRing) : (s.modCring n f).keeper = s.keeper := rfl
@[simp] theorem modCring_hs (s : State) (n : Nat) (f : CRing → CRing) : (s.modCring n f).hs = s.hs := rfl
@[simp] theorem modCring_xbar (s : State) (n : Nat) (f : CRing → CRing) : (s.modCring n f).xbar = s.xbar := rfl
@[simp] theorem modCring_arb (s : State) (n : Nat) (f : CRing → CRing) : (s.modCring n f).arb = s.arb := rfl
@[simp] theorem modCring_trunk (s : State) (n : Nat) (f : CRing → CRing) : (s.modCring n f).trunk = s.trunk := rfl
@[simp] theorem modCring_hier (s : State) (n : Nat) (f : CRing → CRing) : (s.modCring n f).hier = s.hier := rfl
@[simp] theorem modCring_shape (s : State) (n : Nat) (f : CRing → CRing) : (s.modCring n f).shape = s.shape := rfl
@[simp] theorem modCring_slices (s : State) (n : Nat) (f : CRing → CRing) : (s.modCring n f).slices = s.slices := rfl
@[simp] theorem modCring_ward (s : State) (n : Nat) (f : CRing → CRing) : (s.modCring n f).ward = s.ward := rfl
@[simp] theorem modCring_sill (s : State) (n : Nat) (f : CRing → CRing) : (s.modCring n f).sill = s.sill := rfl
@[simp] theorem modCring_therm (s : State) (n : Nat) (f : CRing → CRing) : (s.modCring n f).therm = s.therm := rfl
@[simp] theorem modCring_out (s : State) (n : Nat) (f : CRing → CRing) : (s.modCring n f).out = s.out := rfl
@[simp] theorem modCring_pending (s : State) (n : Nat) (f : CRing → CRing) : (s.modCring n f).pending = s.pending := rfl

/-- The record changed, where it is not the default. -/
theorem modCring_cring_self (s : State) (n : Nat) (f : CRing → CRing) (h : f (s.cring n) ≠ {}) : (s.modCring n f).cring n = f (s.cring n) := get_set_self h

/-- The records at the other keys. -/
theorem modCring_cring_other (s : State) (n j : Nat) (f : CRing → CRing) (hw : Tbl.wf {} s.dma.cring = true) (h : j ≠ n) : (s.modCring n f).cring j = s.cring j := get_set_other hw h

/-! ### modWin -/

@[simp] theorem modWin_glob (s : State) (w : Nat) (f : Window16 → Window16) : (s.modWin w f).glob = s.glob := rfl
@[simp] theorem modWin_svc (s : State) (w : Nat) (f : Window16 → Window16) : (s.modWin w f).svc = s.svc := rfl
@[simp] theorem modWin_mbx (s : State) (w : Nat) (f : Window16 → Window16) : (s.modWin w f).mbx = s.mbx := rfl
@[simp] theorem modWin_fw (s : State) (w : Nat) (f : Window16 → Window16) : (s.modWin w f).fw = s.fw := rfl
@[simp] theorem modWin_perf (s : State) (w : Nat) (f : Window16 → Window16) : (s.modWin w f).perf = s.perf := rfl
@[simp] theorem modWin_faults (s : State) (w : Nat) (f : Window16 → Window16) : (s.modWin w f).faults = s.faults := rfl
@[simp] theorem modWin_ports (s : State) (w : Nat) (f : Window16 → Window16) : (s.modWin w f).ports = s.ports := rfl
@[simp] theorem modWin_pool (s : State) (w : Nat) (f : Window16 → Window16) : (s.modWin w f).pool = s.pool := rfl
@[simp] theorem modWin_keeper (s : State) (w : Nat) (f : Window16 → Window16) : (s.modWin w f).keeper = s.keeper := rfl
@[simp] theorem modWin_hs (s : State) (w : Nat) (f : Window16 → Window16) : (s.modWin w f).hs = s.hs := rfl
@[simp] theorem modWin_xbar (s : State) (w : Nat) (f : Window16 → Window16) : (s.modWin w f).xbar = s.xbar := rfl
@[simp] theorem modWin_arb (s : State) (w : Nat) (f : Window16 → Window16) : (s.modWin w f).arb = s.arb := rfl
@[simp] theorem modWin_trunk (s : State) (w : Nat) (f : Window16 → Window16) : (s.modWin w f).trunk = s.trunk := rfl
@[simp] theorem modWin_hier (s : State) (w : Nat) (f : Window16 → Window16) : (s.modWin w f).hier = s.hier := rfl
@[simp] theorem modWin_shape (s : State) (w : Nat) (f : Window16 → Window16) : (s.modWin w f).shape = s.shape := rfl
@[simp] theorem modWin_slices (s : State) (w : Nat) (f : Window16 → Window16) : (s.modWin w f).slices = s.slices := rfl
@[simp] theorem modWin_ward (s : State) (w : Nat) (f : Window16 → Window16) : (s.modWin w f).ward = s.ward := rfl
@[simp] theorem modWin_sill (s : State) (w : Nat) (f : Window16 → Window16) : (s.modWin w f).sill = s.sill := rfl
@[simp] theorem modWin_therm (s : State) (w : Nat) (f : Window16 → Window16) : (s.modWin w f).therm = s.therm := rfl
@[simp] theorem modWin_out (s : State) (w : Nat) (f : Window16 → Window16) : (s.modWin w f).out = s.out := rfl
@[simp] theorem modWin_pending (s : State) (w : Nat) (f : Window16 → Window16) : (s.modWin w f).pending = s.pending := rfl

/-- The record changed, where it is not the default. -/
theorem modWin_win_self (s : State) (w : Nat) (f : Window16 → Window16) (h : f (s.win w) ≠ {}) : (s.modWin w f).win w = f (s.win w) := get_set_self h

/-- The records at the other keys. -/
theorem modWin_win_other (s : State) (w j : Nat) (f : Window16 → Window16) (hw : Tbl.wf {} s.dma.win = true) (h : j ≠ w) : (s.modWin w f).win j = s.win j := get_set_other hw h

/-! ### modArb -/

@[simp] theorem modArb_glob (s : State) (p : Nat) (f : Arb → Arb) : (s.modArb p f).glob = s.glob := rfl
@[simp] theorem modArb_svc (s : State) (p : Nat) (f : Arb → Arb) : (s.modArb p f).svc = s.svc := rfl
@[simp] theorem modArb_mbx (s : State) (p : Nat) (f : Arb → Arb) : (s.modArb p f).mbx = s.mbx := rfl
@[simp] theorem modArb_fw (s : State) (p : Nat) (f : Arb → Arb) : (s.modArb p f).fw = s.fw := rfl
@[simp] theorem modArb_perf (s : State) (p : Nat) (f : Arb → Arb) : (s.modArb p f).perf = s.perf := rfl
@[simp] theorem modArb_faults (s : State) (p : Nat) (f : Arb → Arb) : (s.modArb p f).faults = s.faults := rfl
@[simp] theorem modArb_ports (s : State) (p : Nat) (f : Arb → Arb) : (s.modArb p f).ports = s.ports := rfl
@[simp] theorem modArb_pool (s : State) (p : Nat) (f : Arb → Arb) : (s.modArb p f).pool = s.pool := rfl
@[simp] theorem modArb_keeper (s : State) (p : Nat) (f : Arb → Arb) : (s.modArb p f).keeper = s.keeper := rfl
@[simp] theorem modArb_hs (s : State) (p : Nat) (f : Arb → Arb) : (s.modArb p f).hs = s.hs := rfl
@[simp] theorem modArb_xbar (s : State) (p : Nat) (f : Arb → Arb) : (s.modArb p f).xbar = s.xbar := rfl
@[simp] theorem modArb_trunk (s : State) (p : Nat) (f : Arb → Arb) : (s.modArb p f).trunk = s.trunk := rfl
@[simp] theorem modArb_hier (s : State) (p : Nat) (f : Arb → Arb) : (s.modArb p f).hier = s.hier := rfl
@[simp] theorem modArb_dma (s : State) (p : Nat) (f : Arb → Arb) : (s.modArb p f).dma = s.dma := rfl
@[simp] theorem modArb_shape (s : State) (p : Nat) (f : Arb → Arb) : (s.modArb p f).shape = s.shape := rfl
@[simp] theorem modArb_slices (s : State) (p : Nat) (f : Arb → Arb) : (s.modArb p f).slices = s.slices := rfl
@[simp] theorem modArb_ward (s : State) (p : Nat) (f : Arb → Arb) : (s.modArb p f).ward = s.ward := rfl
@[simp] theorem modArb_sill (s : State) (p : Nat) (f : Arb → Arb) : (s.modArb p f).sill = s.sill := rfl
@[simp] theorem modArb_therm (s : State) (p : Nat) (f : Arb → Arb) : (s.modArb p f).therm = s.therm := rfl
@[simp] theorem modArb_out (s : State) (p : Nat) (f : Arb → Arb) : (s.modArb p f).out = s.out := rfl
@[simp] theorem modArb_pending (s : State) (p : Nat) (f : Arb → Arb) : (s.modArb p f).pending = s.pending := rfl

/-- The record changed, where it is not the default. -/
theorem modArb_arbOf_self (s : State) (p : Nat) (f : Arb → Arb) (h : f (s.arbOf p) ≠ {}) : (s.modArb p f).arbOf p = f (s.arbOf p) := get_set_self h

/-- The records at the other keys. -/
theorem modArb_arbOf_other (s : State) (p j : Nat) (f : Arb → Arb) (hw : Tbl.wf {} s.arb = true) (h : j ≠ p) : (s.modArb p f).arbOf j = s.arbOf j := get_set_other hw h

/-! ### modGate -/

@[simp] theorem modGate_glob (s : State) (p : Nat) (f : Gate → Gate) : (s.modGate p f).glob = s.glob := rfl
@[simp] theorem modGate_svc (s : State) (p : Nat) (f : Gate → Gate) : (s.modGate p f).svc = s.svc := rfl
@[simp] theorem modGate_mbx (s : State) (p : Nat) (f : Gate → Gate) : (s.modGate p f).mbx = s.mbx := rfl
@[simp] theorem modGate_fw (s : State) (p : Nat) (f : Gate → Gate) : (s.modGate p f).fw = s.fw := rfl
@[simp] theorem modGate_perf (s : State) (p : Nat) (f : Gate → Gate) : (s.modGate p f).perf = s.perf := rfl
@[simp] theorem modGate_faults (s : State) (p : Nat) (f : Gate → Gate) : (s.modGate p f).faults = s.faults := rfl
@[simp] theorem modGate_ports (s : State) (p : Nat) (f : Gate → Gate) : (s.modGate p f).ports = s.ports := rfl
@[simp] theorem modGate_pool (s : State) (p : Nat) (f : Gate → Gate) : (s.modGate p f).pool = s.pool := rfl
@[simp] theorem modGate_keeper (s : State) (p : Nat) (f : Gate → Gate) : (s.modGate p f).keeper = s.keeper := rfl
@[simp] theorem modGate_hs (s : State) (p : Nat) (f : Gate → Gate) : (s.modGate p f).hs = s.hs := rfl
@[simp] theorem modGate_xbar (s : State) (p : Nat) (f : Gate → Gate) : (s.modGate p f).xbar = s.xbar := rfl
@[simp] theorem modGate_arb (s : State) (p : Nat) (f : Gate → Gate) : (s.modGate p f).arb = s.arb := rfl
@[simp] theorem modGate_trunk (s : State) (p : Nat) (f : Gate → Gate) : (s.modGate p f).trunk = s.trunk := rfl
@[simp] theorem modGate_hier (s : State) (p : Nat) (f : Gate → Gate) : (s.modGate p f).hier = s.hier := rfl
@[simp] theorem modGate_dma (s : State) (p : Nat) (f : Gate → Gate) : (s.modGate p f).dma = s.dma := rfl
@[simp] theorem modGate_slices (s : State) (p : Nat) (f : Gate → Gate) : (s.modGate p f).slices = s.slices := rfl
@[simp] theorem modGate_ward (s : State) (p : Nat) (f : Gate → Gate) : (s.modGate p f).ward = s.ward := rfl
@[simp] theorem modGate_sill (s : State) (p : Nat) (f : Gate → Gate) : (s.modGate p f).sill = s.sill := rfl
@[simp] theorem modGate_therm (s : State) (p : Nat) (f : Gate → Gate) : (s.modGate p f).therm = s.therm := rfl
@[simp] theorem modGate_out (s : State) (p : Nat) (f : Gate → Gate) : (s.modGate p f).out = s.out := rfl
@[simp] theorem modGate_pending (s : State) (p : Nat) (f : Gate → Gate) : (s.modGate p f).pending = s.pending := rfl

/-- The record changed, where it is not the default. -/
theorem modGate_gate_self (s : State) (p : Nat) (f : Gate → Gate) (h : f (s.gate p) ≠ {}) : (s.modGate p f).gate p = f (s.gate p) := get_set_self h

/-- The records at the other keys. -/
theorem modGate_gate_other (s : State) (p j : Nat) (f : Gate → Gate) (hw : Tbl.wf {} s.shape.gate = true) (h : j ≠ p) : (s.modGate p f).gate j = s.gate j := get_set_other hw h

/-! ### modExt -/

@[simp] theorem modExt_glob (s : State) (e : Nat) (f : Ext → Ext) : (s.modExt e f).glob = s.glob := rfl
@[simp] theorem modExt_svc (s : State) (e : Nat) (f : Ext → Ext) : (s.modExt e f).svc = s.svc := rfl
@[simp] theorem modExt_mbx (s : State) (e : Nat) (f : Ext → Ext) : (s.modExt e f).mbx = s.mbx := rfl
@[simp] theorem modExt_fw (s : State) (e : Nat) (f : Ext → Ext) : (s.modExt e f).fw = s.fw := rfl
@[simp] theorem modExt_perf (s : State) (e : Nat) (f : Ext → Ext) : (s.modExt e f).perf = s.perf := rfl
@[simp] theorem modExt_faults (s : State) (e : Nat) (f : Ext → Ext) : (s.modExt e f).faults = s.faults := rfl
@[simp] theorem modExt_ports (s : State) (e : Nat) (f : Ext → Ext) : (s.modExt e f).ports = s.ports := rfl
@[simp] theorem modExt_keeper (s : State) (e : Nat) (f : Ext → Ext) : (s.modExt e f).keeper = s.keeper := rfl
@[simp] theorem modExt_hs (s : State) (e : Nat) (f : Ext → Ext) : (s.modExt e f).hs = s.hs := rfl
@[simp] theorem modExt_xbar (s : State) (e : Nat) (f : Ext → Ext) : (s.modExt e f).xbar = s.xbar := rfl
@[simp] theorem modExt_arb (s : State) (e : Nat) (f : Ext → Ext) : (s.modExt e f).arb = s.arb := rfl
@[simp] theorem modExt_trunk (s : State) (e : Nat) (f : Ext → Ext) : (s.modExt e f).trunk = s.trunk := rfl
@[simp] theorem modExt_hier (s : State) (e : Nat) (f : Ext → Ext) : (s.modExt e f).hier = s.hier := rfl
@[simp] theorem modExt_dma (s : State) (e : Nat) (f : Ext → Ext) : (s.modExt e f).dma = s.dma := rfl
@[simp] theorem modExt_shape (s : State) (e : Nat) (f : Ext → Ext) : (s.modExt e f).shape = s.shape := rfl
@[simp] theorem modExt_slices (s : State) (e : Nat) (f : Ext → Ext) : (s.modExt e f).slices = s.slices := rfl
@[simp] theorem modExt_ward (s : State) (e : Nat) (f : Ext → Ext) : (s.modExt e f).ward = s.ward := rfl
@[simp] theorem modExt_sill (s : State) (e : Nat) (f : Ext → Ext) : (s.modExt e f).sill = s.sill := rfl
@[simp] theorem modExt_therm (s : State) (e : Nat) (f : Ext → Ext) : (s.modExt e f).therm = s.therm := rfl
@[simp] theorem modExt_out (s : State) (e : Nat) (f : Ext → Ext) : (s.modExt e f).out = s.out := rfl
@[simp] theorem modExt_pending (s : State) (e : Nat) (f : Ext → Ext) : (s.modExt e f).pending = s.pending := rfl

/-- The record changed, where it is not the default. -/
theorem modExt_ext_self (s : State) (e : Nat) (f : Ext → Ext) (h : f (s.ext e) ≠ {}) : (s.modExt e f).ext e = f (s.ext e) := get_set_self h

/-- The records at the other keys. -/
theorem modExt_ext_other (s : State) (e j : Nat) (f : Ext → Ext) (hw : Tbl.wf {} s.pool.ext = true) (h : j ≠ e) : (s.modExt e f).ext j = s.ext j := get_set_other hw h

/-! ### modSlice -/

@[simp] theorem modSlice_glob (s : State) (n : Nat) (f : Slice → Slice) : (s.modSlice n f).glob = s.glob := by unfold State.modSlice; split <;> rfl
@[simp] theorem modSlice_svc (s : State) (n : Nat) (f : Slice → Slice) : (s.modSlice n f).svc = s.svc := by unfold State.modSlice; split <;> rfl
@[simp] theorem modSlice_mbx (s : State) (n : Nat) (f : Slice → Slice) : (s.modSlice n f).mbx = s.mbx := by unfold State.modSlice; split <;> rfl
@[simp] theorem modSlice_fw (s : State) (n : Nat) (f : Slice → Slice) : (s.modSlice n f).fw = s.fw := by unfold State.modSlice; split <;> rfl
@[simp] theorem modSlice_perf (s : State) (n : Nat) (f : Slice → Slice) : (s.modSlice n f).perf = s.perf := by unfold State.modSlice; split <;> rfl
@[simp] theorem modSlice_faults (s : State) (n : Nat) (f : Slice → Slice) : (s.modSlice n f).faults = s.faults := by unfold State.modSlice; split <;> rfl
@[simp] theorem modSlice_ports (s : State) (n : Nat) (f : Slice → Slice) : (s.modSlice n f).ports = s.ports := by unfold State.modSlice; split <;> rfl
@[simp] theorem modSlice_pool (s : State) (n : Nat) (f : Slice → Slice) : (s.modSlice n f).pool = s.pool := by unfold State.modSlice; split <;> rfl
@[simp] theorem modSlice_keeper (s : State) (n : Nat) (f : Slice → Slice) : (s.modSlice n f).keeper = s.keeper := by unfold State.modSlice; split <;> rfl
@[simp] theorem modSlice_hs (s : State) (n : Nat) (f : Slice → Slice) : (s.modSlice n f).hs = s.hs := by unfold State.modSlice; split <;> rfl
@[simp] theorem modSlice_xbar (s : State) (n : Nat) (f : Slice → Slice) : (s.modSlice n f).xbar = s.xbar := by unfold State.modSlice; split <;> rfl
@[simp] theorem modSlice_arb (s : State) (n : Nat) (f : Slice → Slice) : (s.modSlice n f).arb = s.arb := by unfold State.modSlice; split <;> rfl
@[simp] theorem modSlice_trunk (s : State) (n : Nat) (f : Slice → Slice) : (s.modSlice n f).trunk = s.trunk := by unfold State.modSlice; split <;> rfl
@[simp] theorem modSlice_hier (s : State) (n : Nat) (f : Slice → Slice) : (s.modSlice n f).hier = s.hier := by unfold State.modSlice; split <;> rfl
@[simp] theorem modSlice_dma (s : State) (n : Nat) (f : Slice → Slice) : (s.modSlice n f).dma = s.dma := by unfold State.modSlice; split <;> rfl
@[simp] theorem modSlice_shape (s : State) (n : Nat) (f : Slice → Slice) : (s.modSlice n f).shape = s.shape := by unfold State.modSlice; split <;> rfl
@[simp] theorem modSlice_ward (s : State) (n : Nat) (f : Slice → Slice) : (s.modSlice n f).ward = s.ward := by unfold State.modSlice; split <;> rfl
@[simp] theorem modSlice_sill (s : State) (n : Nat) (f : Slice → Slice) : (s.modSlice n f).sill = s.sill := by unfold State.modSlice; split <;> rfl
@[simp] theorem modSlice_therm (s : State) (n : Nat) (f : Slice → Slice) : (s.modSlice n f).therm = s.therm := by unfold State.modSlice; split <;> rfl
@[simp] theorem modSlice_out (s : State) (n : Nat) (f : Slice → Slice) : (s.modSlice n f).out = s.out := by unfold State.modSlice; split <;> rfl
@[simp] theorem modSlice_pending (s : State) (n : Nat) (f : Slice → Slice) : (s.modSlice n f).pending = s.pending := by unfold State.modSlice; split <;> rfl

/-- The record changed, at every key. -/
theorem modSlice_slice (s : State) (n j : Nat) (f : Slice → Slice) : (s.modSlice n f).slice j = if j = n then (s.slice n).map f else s.slice j := by
  unfold State.modSlice
  split
  · rename_i h
    by_cases hj : j = n
    · simp [hj, h]
    · simp [hj]
  · rename_i x h
    show Tbl.find (Tbl.put _ _ _) _ = _
    rw [find_put]
    by_cases hj : j = n
    · simp [hj, h]
    · simp only [if_neg hj]
      rfl

/-! ### modPartner -/

@[simp] theorem modPartner_glob (s : State) (p : Nat) (f : Partner → Partner) : (s.modPartner p f).glob = s.glob := by unfold State.modPartner; split <;> rfl
@[simp] theorem modPartner_svc (s : State) (p : Nat) (f : Partner → Partner) : (s.modPartner p f).svc = s.svc := by unfold State.modPartner; split <;> rfl
@[simp] theorem modPartner_mbx (s : State) (p : Nat) (f : Partner → Partner) : (s.modPartner p f).mbx = s.mbx := by unfold State.modPartner; split <;> rfl
@[simp] theorem modPartner_fw (s : State) (p : Nat) (f : Partner → Partner) : (s.modPartner p f).fw = s.fw := by unfold State.modPartner; split <;> rfl
@[simp] theorem modPartner_perf (s : State) (p : Nat) (f : Partner → Partner) : (s.modPartner p f).perf = s.perf := by unfold State.modPartner; split <;> rfl
@[simp] theorem modPartner_faults (s : State) (p : Nat) (f : Partner → Partner) : (s.modPartner p f).faults = s.faults := by unfold State.modPartner; split <;> rfl
@[simp] theorem modPartner_ports (s : State) (p : Nat) (f : Partner → Partner) : (s.modPartner p f).ports = s.ports := by unfold State.modPartner; split <;> rfl
@[simp] theorem modPartner_keeper (s : State) (p : Nat) (f : Partner → Partner) : (s.modPartner p f).keeper = s.keeper := by unfold State.modPartner; split <;> rfl
@[simp] theorem modPartner_hs (s : State) (p : Nat) (f : Partner → Partner) : (s.modPartner p f).hs = s.hs := by unfold State.modPartner; split <;> rfl
@[simp] theorem modPartner_xbar (s : State) (p : Nat) (f : Partner → Partner) : (s.modPartner p f).xbar = s.xbar := by unfold State.modPartner; split <;> rfl
@[simp] theorem modPartner_arb (s : State) (p : Nat) (f : Partner → Partner) : (s.modPartner p f).arb = s.arb := by unfold State.modPartner; split <;> rfl
@[simp] theorem modPartner_trunk (s : State) (p : Nat) (f : Partner → Partner) : (s.modPartner p f).trunk = s.trunk := by unfold State.modPartner; split <;> rfl
@[simp] theorem modPartner_hier (s : State) (p : Nat) (f : Partner → Partner) : (s.modPartner p f).hier = s.hier := by unfold State.modPartner; split <;> rfl
@[simp] theorem modPartner_dma (s : State) (p : Nat) (f : Partner → Partner) : (s.modPartner p f).dma = s.dma := by unfold State.modPartner; split <;> rfl
@[simp] theorem modPartner_shape (s : State) (p : Nat) (f : Partner → Partner) : (s.modPartner p f).shape = s.shape := by unfold State.modPartner; split <;> rfl
@[simp] theorem modPartner_slices (s : State) (p : Nat) (f : Partner → Partner) : (s.modPartner p f).slices = s.slices := by unfold State.modPartner; split <;> rfl
@[simp] theorem modPartner_ward (s : State) (p : Nat) (f : Partner → Partner) : (s.modPartner p f).ward = s.ward := by unfold State.modPartner; split <;> rfl
@[simp] theorem modPartner_sill (s : State) (p : Nat) (f : Partner → Partner) : (s.modPartner p f).sill = s.sill := by unfold State.modPartner; split <;> rfl
@[simp] theorem modPartner_therm (s : State) (p : Nat) (f : Partner → Partner) : (s.modPartner p f).therm = s.therm := by unfold State.modPartner; split <;> rfl
@[simp] theorem modPartner_out (s : State) (p : Nat) (f : Partner → Partner) : (s.modPartner p f).out = s.out := by unfold State.modPartner; split <;> rfl
@[simp] theorem modPartner_pending (s : State) (p : Nat) (f : Partner → Partner) : (s.modPartner p f).pending = s.pending := by unfold State.modPartner; split <;> rfl

/-- The record changed, at every key. -/
theorem modPartner_partner (s : State) (p j : Nat) (f : Partner → Partner) : (s.modPartner p f).partner j = if j = p then (s.partner p).map f else s.partner j := by
  unfold State.modPartner
  split
  · rename_i h
    by_cases hj : j = p
    · simp [hj, h]
    · simp [hj]
  · rename_i x h
    show Tbl.find (Tbl.put _ _ _) _ = _
    rw [find_put]
    by_cases hj : j = p
    · simp [hj, h]
    · simp only [if_neg hj]
      rfl

/-! ### emit -/

@[simp] theorem emit_glob (s : State) (o : Out) : (s.emit o).glob = s.glob := by unfold State.emit; dsimp only; (repeat' split) <;> rfl
@[simp] theorem emit_svc (s : State) (o : Out) : (s.emit o).svc = s.svc := by unfold State.emit; dsimp only; (repeat' split) <;> rfl
@[simp] theorem emit_mbx (s : State) (o : Out) : (s.emit o).mbx = s.mbx := by unfold State.emit; dsimp only; (repeat' split) <;> rfl
@[simp] theorem emit_fw (s : State) (o : Out) : (s.emit o).fw = s.fw := by unfold State.emit; dsimp only; (repeat' split) <;> rfl
@[simp] theorem emit_perf (s : State) (o : Out) : (s.emit o).perf = s.perf := by unfold State.emit; dsimp only; (repeat' split) <;> rfl
@[simp] theorem emit_faults (s : State) (o : Out) : (s.emit o).faults = s.faults := by unfold State.emit; dsimp only; (repeat' split) <;> rfl
@[simp] theorem emit_ports (s : State) (o : Out) : (s.emit o).ports = s.ports := by unfold State.emit; dsimp only; (repeat' split) <;> rfl
@[simp] theorem emit_pool (s : State) (o : Out) : (s.emit o).pool = s.pool := by unfold State.emit; dsimp only; (repeat' split) <;> rfl
@[simp] theorem emit_keeper (s : State) (o : Out) : (s.emit o).keeper = s.keeper := by unfold State.emit; dsimp only; (repeat' split) <;> rfl
@[simp] theorem emit_hs (s : State) (o : Out) : (s.emit o).hs = s.hs := by unfold State.emit; dsimp only; (repeat' split) <;> rfl
@[simp] theorem emit_arb (s : State) (o : Out) : (s.emit o).arb = s.arb := by unfold State.emit; dsimp only; (repeat' split) <;> rfl
@[simp] theorem emit_hier (s : State) (o : Out) : (s.emit o).hier = s.hier := by unfold State.emit; dsimp only; (repeat' split) <;> rfl
@[simp] theorem emit_dma (s : State) (o : Out) : (s.emit o).dma = s.dma := by unfold State.emit; dsimp only; (repeat' split) <;> rfl
@[simp] theorem emit_shape (s : State) (o : Out) : (s.emit o).shape = s.shape := by unfold State.emit; dsimp only; (repeat' split) <;> rfl
@[simp] theorem emit_slices (s : State) (o : Out) : (s.emit o).slices = s.slices := by unfold State.emit; dsimp only; (repeat' split) <;> rfl
@[simp] theorem emit_ward (s : State) (o : Out) : (s.emit o).ward = s.ward := by unfold State.emit; dsimp only; (repeat' split) <;> rfl
@[simp] theorem emit_sill (s : State) (o : Out) : (s.emit o).sill = s.sill := by unfold State.emit; dsimp only; (repeat' split) <;> rfl
@[simp] theorem emit_therm (s : State) (o : Out) : (s.emit o).therm = s.therm := by unfold State.emit; dsimp only; (repeat' split) <;> rfl
@[simp] theorem emit_pending (s : State) (o : Out) : (s.emit o).pending = s.pending := by unfold State.emit; dsimp only; (repeat' split) <;> rfl
@[simp] theorem emit_out (s : State) (o : Out) : (s.emit o).out = s.out ++ [o] := by unfold State.emit; dsimp only; (repeat' split) <;> rfl

/-! ### drawn -/

@[simp] theorem drawn_svc (s : State) : s.drawn.svc = s.svc := rfl
@[simp] theorem drawn_mbx (s : State) : s.drawn.mbx = s.mbx := rfl
@[simp] theorem drawn_fw (s : State) : s.drawn.fw = s.fw := rfl
@[simp] theorem drawn_perf (s : State) : s.drawn.perf = s.perf := rfl
@[simp] theorem drawn_faults (s : State) : s.drawn.faults = s.faults := rfl
@[simp] theorem drawn_ports (s : State) : s.drawn.ports = s.ports := rfl
@[simp] theorem drawn_pool (s : State) : s.drawn.pool = s.pool := rfl
@[simp] theorem drawn_keeper (s : State) : s.drawn.keeper = s.keeper := rfl
@[simp] theorem drawn_hs (s : State) : s.drawn.hs = s.hs := rfl
@[simp] theorem drawn_xbar (s : State) : s.drawn.xbar = s.xbar := rfl
@[simp] theorem drawn_arb (s : State) : s.drawn.arb = s.arb := rfl
@[simp] theorem drawn_trunk (s : State) : s.drawn.trunk = s.trunk := rfl
@[simp] theorem drawn_hier (s : State) : s.drawn.hier = s.hier := rfl
@[simp] theorem drawn_dma (s : State) : s.drawn.dma = s.dma := rfl
@[simp] theorem drawn_shape (s : State) : s.drawn.shape = s.shape := rfl
@[simp] theorem drawn_slices (s : State) : s.drawn.slices = s.slices := rfl
@[simp] theorem drawn_ward (s : State) : s.drawn.ward = s.ward := rfl
@[simp] theorem drawn_sill (s : State) : s.drawn.sill = s.sill := rfl
@[simp] theorem drawn_therm (s : State) : s.drawn.therm = s.therm := rfl
@[simp] theorem drawn_out (s : State) : s.drawn.out = s.out := rfl
@[simp] theorem drawn_pending (s : State) : s.drawn.pending = s.pending := rfl

/-! ### modSession -/

@[simp] theorem modSession_glob (s : State) (sid : Nat) (f : Session → Session) : (s.modSession sid f).glob = s.glob := rfl
@[simp] theorem modSession_svc (s : State) (sid : Nat) (f : Session → Session) : (s.modSession sid f).svc = s.svc := rfl
@[simp] theorem modSession_fw (s : State) (sid : Nat) (f : Session → Session) : (s.modSession sid f).fw = s.fw := rfl
@[simp] theorem modSession_perf (s : State) (sid : Nat) (f : Session → Session) : (s.modSession sid f).perf = s.perf := rfl
@[simp] theorem modSession_faults (s : State) (sid : Nat) (f : Session → Session) : (s.modSession sid f).faults = s.faults := rfl
@[simp] theorem modSession_ports (s : State) (sid : Nat) (f : Session → Session) : (s.modSession sid f).ports = s.ports := rfl
@[simp] theorem modSession_pool (s : State) (sid : Nat) (f : Session → Session) : (s.modSession sid f).pool = s.pool := rfl
@[simp] theorem modSession_keeper (s : State) (sid : Nat) (f : Session → Session) : (s.modSession sid f).keeper = s.keeper := rfl
@[simp] theorem modSession_hs (s : State) (sid : Nat) (f : Session → Session) : (s.modSession sid f).hs = s.hs := rfl
@[simp] theorem modSession_xbar (s : State) (sid : Nat) (f : Session → Session) : (s.modSession sid f).xbar = s.xbar := rfl
@[simp] theorem modSession_arb (s : State) (sid : Nat) (f : Session → Session) : (s.modSession sid f).arb = s.arb := rfl
@[simp] theorem modSession_trunk (s : State) (sid : Nat) (f : Session → Session) : (s.modSession sid f).trunk = s.trunk := rfl
@[simp] theorem modSession_hier (s : State) (sid : Nat) (f : Session → Session) : (s.modSession sid f).hier = s.hier := rfl
@[simp] theorem modSession_dma (s : State) (sid : Nat) (f : Session → Session) : (s.modSession sid f).dma = s.dma := rfl
@[simp] theorem modSession_shape (s : State) (sid : Nat) (f : Session → Session) : (s.modSession sid f).shape = s.shape := rfl
@[simp] theorem modSession_slices (s : State) (sid : Nat) (f : Session → Session) : (s.modSession sid f).slices = s.slices := rfl
@[simp] theorem modSession_ward (s : State) (sid : Nat) (f : Session → Session) : (s.modSession sid f).ward = s.ward := rfl
@[simp] theorem modSession_sill (s : State) (sid : Nat) (f : Session → Session) : (s.modSession sid f).sill = s.sill := rfl
@[simp] theorem modSession_therm (s : State) (sid : Nat) (f : Session → Session) : (s.modSession sid f).therm = s.therm := rfl
@[simp] theorem modSession_out (s : State) (sid : Nat) (f : Session → Session) : (s.modSession sid f).out = s.out := rfl
@[simp] theorem modSession_pending (s : State) (sid : Nat) (f : Session → Session) : (s.modSession sid f).pending = s.pending := rfl

end Sys2Proof.Machine
end

