-- ==== Sys2Proof/Tests/Slice0.lean ====
section
/-! SUPPORT. Tests: well-formedness, worked examples of the spec, and states that meet the hypotheses of the statements. -/
namespace Sys2Proof.Machine

set_option maxRecDepth 20000
set_option exponentiation.threshold 1024

/-! ### States and frames for tests -/

/-- A free frame over SMBus. -/
def wFree : Frame := { xport := .smbus, port := 0, ep := 9, version := 4, tag := 1, sid := 0, seq := 0, dest := 15, fwd := false, fwdRole := 0, plen := 0, lenOk := true, mac := 0, body := [], slice := 0xFFFF }
/-- A frame of session 1, and with the MAC of an opcode in that session. -/
def wF : Frame := { wFree with sid := 1, seq := 1 }
def wFv (op : Nat) : Frame :=
  { wF with xport := .cxl, ep := 0, version := 2, mac := commandMac { wF with xport := .cxl, ep := 0, version := 2 } op 0 }
def wFm (op : Nat) : Frame := { wF with mac := commandMac wF op 0 }
/-- A frame of session 1 whose MAC is wrong for MODULE_STATUS. -/
def wFx : Frame := { wF with mac := ~~~(commandMac wF 0xC102 0) }
/-- An authenticated ADMIN session. -/
def wSes : Session := { sid := 1, role := 1, slice := 0xFFFF, ksrc := 0, xport := .smbus, ep := 9, nc := 0, nd := 0, authed := true, sk := 0, seqNext := 1, badMacs := 0, openedAt := 0, lastAt := 0 }
/-- A session that has not authenticated. -/
def wSesNew : Session := { wSes with sid := 2, authed := false }
/-- The manager in ACTIVE with two sessions. -/
def wS : State := { glob := { pstate := .active, midx := 0, hrole := 1 }, mbx := { sessions := [wSes, wSesNew], nextSid := 3 }, svc := { rstN := true, perstAll := false } }
/-- A running operation. -/
def wOp : BgOp := { opid := 1, opcode := 0xC310, running := true, status := 0xFF, pos := 0, total := 4, result := 0, startAt := 0, endAt := 0 }
/-- A forwarded command. -/
def wFwd : Fwd := { frame := wF, opcode := 0xC101, role := 1, resends := 0, slice := 0 }
/-- Trunk port 1 is active toward module 0. -/
def wT : State := { wS with trunk := [(1, { state := .active, peerIdx := 0, rx := .tl0, tx := .tl0, lock := 0xF, peerRole := 1 })] }
/-- A host of HDM-DB, an expander, an extent and an entry. -/
def wHost : Partner := { kind := 1, index := 0, serial := some 7, cert := none, capacity := 0, timerEnd := none, leftAt := 0, leaving := false, cause := 0, pindex := 0 }
def wExp : Partner := { kind := 3, index := 0xFF, serial := some 8, cert := none, capacity := 8, timerEnd := none, leftAt := 0, leaving := false, cause := 0, pindex := 1 }
def wExt : Ext := { state := .bound, port := 4, dpa := 0, binds := 1, partner := 1 }
def wFreeExt : Ext := { state := .free, port := 4, dpa := 1, partner := 1 }
def wEnt : Ent := { hoffExt := 0, home := 0, fext := 0, nm1 := 0, access := 3, dcr := 0, state := .valid, tell := false, since := 0 }
def wEvac : Evac := { port := 4, ch := 3, share := 0, stallPages := 0, maxPasses := 0, mask := 0, e := 0, f := 9, prev := .bound, step := 2, pass := 0, guards := 0, skipped := 0, stallAt := 0 }
/-- A cell of bulk data. -/
def wBlk : Cell := { cls := 4, opc := 0, src := 0x60, dst := 4, addr := 0, load := .blk { src := .dma 3, tag := 0, line := 0, mask := 0, data := 0 } }
def wPid (kind : Nat) : PartnerId := { kind := kind, cxl := 3, serial := some 8, cert := none, capacity := 8 }
/-- Port 0 upstream and port 4 downstream, both linked, with extents and one binding. -/
def wP : State := { wS with
  ports := { map := [(0, 0x4C000FFC#32), (1, 0x80000FFC#32)], group := [(0, { driven := false }), (1, { driven := false })]
             port := [(0, { lanes := .l0, width := 16, rate := 6, pid := some (wPid 0) }), (4, { lanes := .l0, width := 16, rate := 6, pid := some (wPid 1), memActive := true })] }
  pool := { partner := [(0, wHost), (4, wExp)], ext := [(0, wExt), (1, wFreeExt), (2, { wFreeExt with dpa := 2 }), (3, { wFreeExt with state := .suspect, dpa := 3 })], ent := [(0, wEnt)] } }
/-- A copy pass of an evacuation leaves 17 pages dirty, one more than its limit. -/
def wEvDirty (n : Nat) : State := { wP with pool := { wP.pool with dirty := List.range 17, evac := some { wEvac with step := 2, pass := n, stallPages := 16 } } }
/-- An expander whose one block is not yet in the pool. -/
def wAdd : State := { wP with pool := { wP.pool with partner := [(4, { wExp with capacity := 1 })], ext := [] } }

/-- The slice of PASID 0 of host 0, and one of PASID 5 that reaches its entry 0. -/
def wSl0 : Slice := { host := 0, pasid := 0, state := .active, mask := [], userCnt := false, cut := 0xFFF, window := none, area := none, chan := none, cnt := [], log := none, freezers := [] }
def wSl : Slice := { wSl0 with pasid := 5, mask := [0] }
def wL : State := { wP with slices := [(0, wSl0), (1, wSl)] }
def wLog : DLog := { owner := 0, buf0 := 0, buf1 := 0x10000, second := false, exts := [0], bits := [] }
def wImg : Image := { magicOk := true, version := 2, size := 16384, crcOk := true, seald := false, sealOk := false, sv8650 := true, cut := 0xFFF, userCounters := true, window := none, area := none, chanReqBase := 0, chanReqLog := 0, chanRepBase := 0, chanRepLog := 0, chanReqTail := 0, chanReqHead := 0, chanReqPhase := true, chanRepTail := 0, chanRepHead := 0, chanRepPhase := true, rings := [], chans := [], buckets := [], counters := [], ranges := [] }
/-- A slice channel with a request posted and a PEER request waiting. -/
def wChan : SChan := { reqBase := 0, reqLog := 4, repBase := 0x10000, repLog := 4, vec := 9, reqTail := 1, reqHead := 0, reqPhase := true, repTail := 1, repHead := 0, repPhase := true, repUsed := 2, peers := [(5, 6, [])], zornes := [] }
def wC : State := { wL with slices := [(0, wSl0), (1, { wSl with chan := some wChan })] }
/-- Channel 3 of slice 1 with ring 7 running and one descriptor posted. -/
def wRing : Ring := { state := .run, ch := 3, slot := 0, base := 0, log2 := 4, tail := 1, cq := 7 }
def wCh : Chan := { slice := some 1 }
def wFet : Fetched := { ring := 7, idx := 0, desc := 0, phaseOk := true }
def wBeg : Begun := { ring := 7, idx := 0, desc := 0, num := 0, at_ := 0, pos := 0, done := 0, status := 0, issued := true, bursts := [], nburst := 0, crc := 0, applied := 0, refused := 0, taken := 0, releases := 0, recs := [], form := none, committed := false }
def wD : State := { wL with dma := { ch := [(3, wCh)], ring := [(7, wRing)], cring := [(7, { slice := some 1, base := 0x4000, log2 := 4 })] } }
def wB : State := { wD with dma := { wD.dma with ch := [(3, { wCh with begun := [wBeg] })] } }
def wFormed : Form := { elems := 1, bytes := 1, srcs := [], dst := 0 }
def wBegF : Begun := { wBeg with desc := 2, issued := false, form := some wFormed }
/-- A descriptor of an opcode has begun and its next burst can be formed. -/
def wFormDesc (op : BitVec 512) : State := { wD with dma := { wD.dma with ch := [(3, { wCh with begun := [{ wBeg with desc := op, issued := false }] })] } }
def wDef : WinDef := { next := 1, homeA := 0, fextA := 0, homeB := 0, fextB := 3, owner := 1 }
def wW : State := { wD with dma := { wD.dma with win := [(2, { dfn := some wDef })] } }

/-- A FLIP of window 2 to set B, its epoch word at slice address 0. -/
def wBegFlip : Begun := { wBeg with desc := 5 ||| (2#512 <<< 416) ||| (1#512 <<< 424), issued := false }
def wFl : State := { wW with dma := { wW.dma with ch := [(3, { wCh with begun := [wBegFlip] })] }, ward := { ctlNow := 0 } }
def wFlSame : State := { wFl with dma := { wFl.dma with win := [(2, { dfn := some wDef, activeB := true })] } }
def wFlAt (n : Nat) : State := { wFl with dma := { wFl.dma with win := [(2, { dfn := some wDef, step := some n, flip := some (3, 7, 0, 0, true), sweep := some 5 })] } }
def wCharge : Charge := { slice := some 1, bkts := [(false, 16)], bytes := 64, work := .pass 0 [] }
def wCharged : State := { wL with shape := { wL.shape with waiting := [wCharge], bkt := [(16, { cfg := 0x9FE0000200000100, tok := 3276800 })] } }
def wReq (k : ReqKind) (fpa : Nat) : QReq := { kind := k, r := { src := .host 0, fpa := fpa, nt := false, mask := 0, data := 0 }, record := 0, nextRec := 0 }
/-- Point 0x40 with a free-running set of two entries and a cycle of 1 ms. -/
def wGateSet : GateSet := { ctl := 0x8040000000000000 ||| (125000#64 <<< 24), base := 0, list := [50000, 75000] }
def wGateEnt : Nat × Nat := (50000, 50000)
def wGate (mtime : Nat) : State := { wP with shape := { running := true, mtime := mtime, gate := [(0x40, { now := wGateSet })] } }
def wJoin : Join := { tp := 1, serial := 5, idx := 1, admitted := false, since := 0 }

/-- A register value of SILL_CTL and of SILL_LIMITS in range. -/
def wCtl : Reg64 := 0x8000000000000000 ||| (30#64 <<< 48) ||| (10#64 <<< 39) ||| (380#64 <<< 22) ||| (800#64 <<< 12)
def wCtlOff : Reg64 := wCtl &&& 0x7FFFFFFFFFFFFFFF
def wLim : Reg64 := (100#64 <<< 56) ||| (50#64 <<< 40) ||| (30#64 <<< 24)
/-- Sill in a state. -/
def wSill (x : SillState) : State := { wS with sill := { state := x } }
def wWin : Window := { elem := mkLoc 15 15 15 15 255, cls := 1, action := 0, recSeq := 0, closeBy := 0 }
def wBrown (w : Option Bool) : State := { wT with glob := { wT.glob with pstate := .brownout }, sill := { brownStep := 4, resetWaits := w } }

/-- A sampler that runs with one transaction selected. -/
def wSmpCfg : List Nat := [0, 4096, 6, 9, 4, 0, 1, 0x1F, 0, 100, 0x1FF, 0]
def wSel : SampSel := { src := 0, cls := 0, op := 0, slice := 0, addr := 0, remote := false, time := 0, agent := .host 0, key := (1, 0), server := 4 }
def wSmp : Sampler := { en := true, base := 4096, log2 := 6, vec := 9, irqLog2 := 4, point := 0, classes := 1, opcode := 0x1F, lo := 0, hi := 100, slice := 0x1FF, log2n := 0, ended := [wSel] }
def wSmpS : State := { wS with perf := { smp := [(0, wSmp)] } }
def wSmpFull : State := { wS with perf := { smp := [(0, { wSmp with used := 64 })] } }
def wOvf : State := { wS with perf := { ovfPend := true, ovfEn := true, event := ({} : Sqc).raise 23 0 0 } }
/-- Bank 1 is being staged, or a bank is STAGED. -/
def wStag : State := { wS with fw := { wS.fw with bank1 := { state := .staging, size := 1 }, bank0 := { state := .active } } }
def wStaged (n : Nat) : State := { wS with fw := { wS.fw with bank0 := { state := if n = 0 then .staged else .active }, bank1 := { state := if n = 0 then .active else .staged } } }
def wCntOff : Nat := 0x10018
def wHole : State := { wS with xbar := { held := [{ cls := 0, opc := 0, src := 0, dst := 0x40, seq := 5, addr := 0, load := .head }] } }
def wRst (l : List Nat) : ResetRec := { kind := 5, loc := mkLoc 0 0 0 15 255, reaction := false, draining := l }

/-- Messages, snoops and transactions of lines of this module and of module 1. -/
def wMsg (a : Agent) (fpa : Nat) : MsgOp := { src := a, fpa := fpa, dp := false, k := false, nd := false, poison := false, lmask := 0xF, data := 0 }
def wRemFpa : Nat := mkFpa 1 0 64
def wRem : State := { wP with hier := { members := [{ idx := 0, serial := 0 }, { idx := 1, serial := 5 }] } }
def wDH : State := { wD with hier := wRem.hier }
def wWait (k : SnpKind) (a : Agent) : Wait := { own := .txn, agent := a, line := 1, forLine := 1, kind := k, nd := false, rsp := none, dat := none, wb := false, since := 0 }
def wSnp (k : SnpKind) : State := { wP with keeper := { waits := [wWait k (.host 0)] } }
def wSnpMod : State := { wRem with keeper := { waits := [wWait .data (.mod 1)] } }
def wTxn (g : Stage) : Txn := { line := 1, q := wReq .rds 64, stage := g, st := 0, dirty := none, kept := [], ownerKept := false, psn := false, grant := .none }
def wOpen (g : Stage) : State := { wP with keeper := { txns := [wTxn g] } }
def wFwdTxn : Txn := { wTxn .fwd with line := lineOf wRemFpa, q := wReq .rds wRemFpa }
def wRemFwd : State := { wRem with keeper := { txns := [wFwdTxn] } }
/-- A host's access of its offset 64. -/
def wHop : HostOp := { port := 0, hoff := 64, mv := 0, inv := false, ptl := false, evict := false, way := .clean, enables := 0, data := 0 }
def wWinS : State := { wL with slices := [(0, wSl0), (1, { wSl with window := some 0 })] }
def wBi : State := { wL with hs := { wL.hs with biOpen := [(0, 1)], biAddr := [(0, 1, 1)] } }
def wDev : State := { wP with pool := { wP.pool with partner := [(4, { wExp with kind := 4, index := 0 })] } }
/-- A passed-through partner at port 5 and another bound at port 6 that is not there. -/
def wPass : State := { wP with
  ports := { wP.ports with port := (wP.ports.port ++ [(5, { lanes := .l0, width := 16, rate := 6, pid := some (wPid 5), memActive := true })]) }
  pool := { wP.pool with partner := [(0, wHost), (4, wExp), (5, { wExp with kind := 5 })], bridge := [(0, 5), (1, 6)] } }
def wPend : Pend := { req := 0, write := false, units := 1, since := 0 }
/-- An access of line 1 that port 4 has been handed. -/
def wAcc (w : Bool) : Access := { fpa := 64, port := 4, dpa := 0, off := 64, write := w, en := allBytes, data := 0, psn := false, kind := .txn }
def wHanded (w : Bool) : State := { wP with arb := [(4, { handed := [wAcc w] })] }

/-- Port 4 in a lane state, and group 1 in bring-up. -/
def wLane (l : LState) : State := { wP with ports := { wP.ports with port := [(4, { lanes := l, width := 16, rate := 6, pid := some (wPid 1) })] } }
def wGrp : State := { wLane .detect with ports := { (wLane .detect).ports with group := [(1, { driven := true, bringUp := true })] } }
def wEnum : State := { wP with ports := { wP.ports with port := [(4, { lanes := .l0, width := 16, rate := 6, pid := some (wPid 1), enum := true })] } }
def wArr : State := { wP with ports := { wP.ports with port := [(0, { lanes := .l0, width := 16, rate := 6, pid := some (wPid 0), enum := true })] }, pool := {} }
/-- The timer of the host at port 0 runs and a host waits behind it. -/
def wNew : State := { wP with pool := { wP.pool with partner := [(0, wHost)], newcomer := [(0, wPid 0)] } }
def wNewT : State := { wNew with pool := { wNew.pool with partner := [(0, { wHost with timerEnd := some 5 })] } }
def wBack : State := { wNew with pool := { wNew.pool with partner := [(0, { wHost with cert := some 9 })], newcomer := [(0, { wPid 0 with serial := some 7 })] } }
/-- Trunk port 1 in a state, its four lanes aligned. -/
def wTrk : Trunk := { state := .active, peerIdx := 0, rx := .tl0, tx := .tl0, lock := 0xF, peerRole := 2, lanePos := [(0, 0), (1, 1), (2, 2), (3, 3)], linkId := some 8 }
def wTs (x : TState) : State := { wS with trunk := [(1, { wTrk with state := x })] }
def wTwin : State := { wS with trunk := [(0, { wTrk with peerSer := 5 }), (1, { wTrk with state := .init })] }
def wAuth (k : Option (BitVec 256)) : State := { wS with hier := { key := k }, trunk := [(1, { wTrk with state := .auth, noncePeer := some 9, peerInit := (0, 2) })] }
/-- A flit and its message. -/
def wFlit : FlitOp := { tp := 1, ok := true, seq := 0, ack := 0, cls := 0, dataKind := false, count := 0 }
def wTm : TrunkMsg := { cls := 0, op := 0, addr := 64, tag := 0, len := 0, dp := false, lmask := 0, first := false, last := false, k := false, nd := false, nt := false, poison := false, srcm := 1, dstm := 0, data := 0, mask := 0 }
def wTnone : State := { wS with trunk := [(1, { wTrk with ret := [] })] }
def wTrep : State := { wS with trunk := [(1, { wTrk with replay := [(0, wTm, 0)] })] }
def wTidle : State := { wS with glob := { wS.glob with ticks := 1000 }, trunk := [(1, { wTrk with ctl := 0xC0101388 })] }
def wTwake : State := { wS with trunk := [(1, { wTrk with rx := .tl1, lock := 0 })] }

/-- Every lock group is locked. -/
def wLocked : State := { wS with glob := { wS.glob with lock := Tri.all 0x1F } }

theorem not_ne {w : Nat} (x : BitVec (w + 1)) : ~~~x ≠ x := by
  intro h
  have := congrArg (fun y => y.getLsbD 0) h
  simp at this


/-! ### The spec's worked examples -/

/-- Module P2 with port 42 an x8 port. -/
def xP2 : State := { glob := { pstate := .active, midx := 2, hrole := 2 } }

/-- Lane L173 of P2, its port 42, the keeper slices and channels of quadrant 5, the arbiter, the supervisor die, and TP5's cluster on P0 (chapters 0, 1 and 12). -/
theorem test_locationsOfTheExamples :
    xP2.laneLoc 173 = 0x02111050 ∧ (0x02111050 : Loc).lane = 173 ∧ xP2.tpLoc 5 = mkLoc 2 1 1 6 255 ∧ xP2.ksLoc 20 = mkLoc 2 1 1 4 0
      ∧ xP2.chLoc 40 = mkLoc 2 1 1 5 0 ∧ xP2.arbLoc 42 = mkLoc 2 1 1 7 2 ∧ xP2.supLoc = 0x026FFFF0
      ∧ xP2.ksLoc 9 = mkLoc 2 0 2 4 1 ∧ xP2.arbLoc 12 = mkLoc 2 0 1 7 4 ∧ wS.tpLoc 5 = 0x00116FF0 := by decide

/-- FPA 0x2_0000_0000_0B40: KS09, set 4,096, tag 0x24_9249, LS1 (chapter 2). -/
theorem test_keeperSliceOfTheExample :
    sliceHash 0x2000000000B40 = 9 ∧ Machine.setOf 0x2000000000B40 = 4096 ∧ tagOf 0x2000000000B40 = 0x249249 ∧ lineOf 0x2000000000B40 % 4 = 1 := by decide

/-- Groups 6 and 7 of quadrant 3: x16 UP; x8, x4 and x2 DOWN (chapter 4). -/
def xMap : State := { wS with ports := { map := [(6, 0x40000000 ||| 0xFFC#32), (7, 0x80000000 ||| 0x2BB#32)] } }

/-- Ports 24 up; 28, 30 and 31 down; no other. -/
theorem test_portMapOfTheExample :
    (List.range 64).filter xMap.isPort = [24, 28, 30, 31] ∧ (List.range 64).filter xMap.isUp = [24] ∧ (List.range 64).filter xMap.isDown = [28, 30, 31]
      ∧ [24, 28, 30, 31].map (cfgWidth xMap.ports.map) = [16, 8, 4, 2] := by decide

/-- DMA_EVENT of chapter 11: ring 5 of channel 9 in ERROR at SEQ 0x40, its watchdog at 0x41. -/
def xSqc : Sqc := (({ seq := 0x3F } : Sqc).raise 14 0x00050240 0x00FF0FC0).raise 13 0x00050240 0x00FF0FC0

/-- The reads and clears of the SQC example. -/
theorem test_sequenceClearOfTheExample :
    xSqc.read = 0x41056240 ∧ ((xSqc.raise 15 0x000C0500 0x00FF0FC0).clear 0x41).read = 0x420C8500
      ∧ (((xSqc.raise 15 0x000C0500 0x00FF0FC0).clear 0x41).clear 0x42).read = 0x42000000 := by decide

/-- SL017's bucket on port 12 OUT: RATE 8,000, BURST 8,192, full (chapter 8). -/
def xBkt : Bucket := { cfg := 0x8000000000000000 ||| (8000#64 <<< 33) ||| 8192#64, tok := 8192 * 12800 }

/-- Bursts 1 to 4 leave 8,192 less 2,048 each; a tick of 40 ns gives 40 bytes; a fifth burst waits at 96 bytes and goes at 2,048. -/
theorem test_tokensOfTheExample :
    (xBkt.take 2048).tok = 6144 * 12800 ∧ ({ xBkt with tok := 96 * 12800 } : Bucket).tick.tok = 136 * 12800
      ∧ ({ xBkt with tok := 96 * 12800 } : Bucket).allows 2048 = false ∧ ({ xBkt with tok := 2048 * 12800 } : Bucket).allows 2048 = true := by decide

/-- Port 12 at x8, 64 GT/s: W is 40 bytes per clock. -/
def xP12 : State := { wS with ports := { port := [(12, { lanes := .l0, width := 8, rate := 6 })] } }

/-- The guard of the three writes: 63, 102 and 54 clocks of 625 ps (chapter 8). -/
theorem test_guardOfTheExample : (xP12.port 12).w = 40 * 256 ∧ xP12.portGuard 12 32 0 = 63 * 625 ∧ xP12.portGuard 12 32 1552 = 102 * 625
    ∧ xP12.portGuard 12 4 1552 = 54 * 625 := by decide

/-- The stall limit of the evacuation between two such ports: 256 pages (chapter 5). -/
theorem test_stallLimitOfTheExample :
    ({ xP12 with pool := { ext := [(9, { state := .evacDst, port := 12 })] } } : State).stallLimit { wEvac with port := 12 } = 256 := by decide

/-- The COPY of Table 7.3: ESIZE 3, 4 x 3 x 2 elements of 8-byte counters. -/
def xCopy : Line := 0x31#512 ||| (0x100000#512 <<< 64) ||| (2#512 <<< 112) ||| (0x200000#512 <<< 128) ||| (1#512 <<< 176) ||| (3#512 <<< 192)
  ||| (8#512 <<< 224) ||| (0x100#512 <<< 256) ||| (0xFFFFF000#512 <<< 288) ||| (8#512 <<< 320) ||| (0x20#512 <<< 352) ||| (0x60#512 <<< 384)

/-- Elements 1, 4, 5, 9, 13, 16 and 24 of Table 7.3, and bursts of four elements. -/
theorem test_elementsOfTheExample :
    dEs xCopy = 8 ∧ dCount xCopy = 24 ∧ [0, 3, 4, 8, 12, 15, 23].map (dSrc xCopy) = [0x100000, 0x100018, 0x100100, 0x100200, 0x0FF000, 0x0FF018, 0x0FF218]
      ∧ [0, 3, 4, 8, 12, 15, 23].map (dDst xCopy) = [0x200000, 0x200018, 0x200020, 0x200040, 0x200060, 0x200078, 0x2000B8] ∧ grow xCopy 24 0 1 2048 = 4 := by decide

/-- Regions 7 and 300 of chapter 9, with a channel owned by a slice of cut 0x021. -/
def xWard : State :=
  let rs : Tbl Region := [(7, { v := true, cut := 0x021, cutMask := 0xFFF, permIn := 3, permOut := 1, base := 0x1000000, limit := 0x10FFFFF }),
    (300, { v := true, cut := 0x021, cutMask := 0xFFF, permIn := 1, permOut := 0, base := 0x1000038, limit := 0x100003F })]
  { wL with ward := { now := rs, shadow := rs }, slices := [(17, { wSl with cut := 0x021 })], dma := { ch := [(3, { slice := some 17 })] } }

/-- Region 7 decides the first byte at 0x3400 and gives W; region 300 decides at 0x3800 and 0x3A00: R to the cut, nothing to another; the audit flags 300. -/
theorem test_wardOfTheExample :
    (let d := xWard.wardDecide 0x021 0x100003400; d.2 = some 7 ∧ hasRight d.1 1 = true)
      ∧ (let d := xWard.wardDecide 0x021 0x100003800; d.2 = some 300 ∧ hasRight d.1 1 = false)
      ∧ (let d := xWard.wardDecide 0x021 0x100003A00; hasRight d.1 0 = true) ∧ (let d := xWard.wardDecide 0x022 0x100003A00; d.2 = some 300 ∧ d.1 = 0)
      ∧ xWard.auditList = [300] := by decide

/-- The sender of chapter 6: used 0xF_FF80, last_ret 0x0_0140. -/
def xCred : Trunk := { used := [(7, 0xFFF80)], lastRet := [(7, 0x140)] }

/-- Available credit: 448, after 200 messages 248, after the update to 570 498. -/
theorem test_creditOfTheExample :
    xCred.avail 3 1 = 448 ∧ ({ xCred with used := [(7, 72)] } : Trunk).avail 3 1 = 248 ∧ ({ xCred with used := [(7, 72)], lastRet := [(7, 570)] } : Trunk).avail 3 1 = 498 := by decide

/-- Port 42 of chapter 11 generates 0.625 slots per clock: 40 in a tick of 64 clocks. -/
theorem test_slotsOfTheExample :
    let s : State := ({ wGrp with ports := { map := [(10, 0x40000000 ||| 0xEC0#32)], port := [(42, { lanes := .l0, width := 8, rate := 6 })] } } : State).slotTick 42
    (Tbl.get ({} : Cnt) s.perf.cnt (8 * 42 + 2)).count.toNat = 40 := by decide


/-- I0 asks for O0 and O1, I1 for O0, I2 for O0 and O2, all in one class of the latency group (R143). -/
def xCells : List VCell := [(0, 0), (0, 1), (1, 0), (2, 0), (2, 2)].map (fun p => { src := p.1, dst := p.2, cls := 2 })
/-- The crossbar after the first slot's matches of plane 0. -/
def xTurned : Xbar := (({} : Xbar).matches 0 xCells).1.foldl (fun x c => x.turn 0 c) {}

/-- Slot 1 matches I0 with O0 and I2 with O2, slot 2 I1 with O0, I0 with O1 and I2 with O2, each in the first iteration (R143). -/
theorem test_matchesOfTheExample :
    (({} : Xbar).matches 0 xCells).1.length = 2 ∧ (({} : Xbar).matches 0 xCells).2 = []
      ∧ [(0, 0), (2, 2)].all (fun p => (({} : Xbar).matches 0 xCells).1.any (fun c => c.src == p.1 && c.dst == p.2)) = true
      ∧ (xTurned.matches 0 xCells).1.length = 3 ∧ (xTurned.matches 0 xCells).2 = []
      ∧ [(1, 0), (0, 1), (2, 2)].all (fun p => (xTurned.matches 0 xCells).1.any (fun c => c.src == p.1 && c.dst == p.2)) = true := by decide


/-! ### Well-formedness: a term that each check refuses, and one of every constructor that passes -/

/-- A frame of a port that does not exist. -/
def wFbad : Frame := { wF with port := 64 }
/-- A request, a message, a hierarchy message, a region and a binding to alter. -/
def wReqOp : ReqOp := { src := .host 0, fpa := 0, nt := false, mask := 0, data := 0 }
/-- A message to alter. -/
def wMsgOp : MsgOp := wMsg (.host 0) 0
/-- A hierarchy message to alter. -/
def wHm : HierMsg := { kind := 0, idx := 0, serial := 0, autoAdmit := false, meshTimeout := 0, trCpl := 0, members := [] }
/-- A region to alter. -/
def wReg : Region := {}
/-- A binding to alter. -/
def wBr : BindReq := { hoffExt := 0, home := 0, fext := 0, nm1 := 0, access := 0, dcr := 0 }

theorem test_operandStructuresRefused1 : ([.sessionList { wF with port := 64 },
  .sessionList { wF with ep := 256 },
  .sessionList { wF with version := 256 },
  .sessionList { wF with tag := 2^32 },
  .sessionList { wF with sid := 2^32 },
  .sessionList { wF with seq := 2^32 },
  .sessionList { wF with dest := 16 },
  .sessionList { wF with fwdRole := 5 },
  .sessionList { wF with plen := 65536 },
  .sessionList { wF with slice := 65536 },
  .snoopTimeout 0 (.host 48),
  .snoopTimeout 0 (.dev 16),
  .snoopTimeout 0 (.mod 9),
  .snoopTimeout 0 (.dma 64),
  .snoopTimeout 0 (.io 64),
  .snoopTimeout 0 (.post 512),
  .rds { wReqOp with src := .host 48 },
  .rspi { wMsgOp with src := .host 48 },
  .rspi { wMsgOp with lmask := 16 },
  .m2sReq { wHop with hoff := 2^64 },
  .m2sReq { wHop with mv := 3 },
  .bindAdd wF 0 [{ wBr with hoffExt := 2^18 }],
  .bindAdd wF 0 [{ wBr with fext := 65536 }],
  .bindAdd wF 0 [{ wBr with nm1 := 65536 }],
  .bindAdd wF 0 [{ wBr with access := 4 }],
  .bindAdd wF 0 [{ wBr with dcr := 256 }],
  .wardRegionSet wF 0 { wReg with limit := 2^44 },
  .dmaAliasSet wF 0 (some { wDef with homeA := 16 }),
  .dmaAliasSet wF 0 (some { wDef with fextA := 65536 }),
  .dmaAliasSet wF 0 (some { wDef with homeB := 16 }),
  .dmaAliasSet wF 0 (some { wDef with fextB := 65536 }),
  .dmaAliasSet wF 0 (some { wDef with owner := 512 }),
  .sliceRestoreV1 wF 0 0 0 { wImg with size := 2^32 },
  .sliceRestoreV1 wF 0 0 0 { wImg with counters := [(2^48, false)] },
  .sliceRestoreV1 wF 0 0 0 { wImg with counters := List.replicate 9 (0, false) },
  .linkUp 0 ⟨0, false⟩ 0 { wPid 0 with cxl := 4 },
  .linkUp 0 ⟨0, false⟩ 0 { wPid 0 with serial := some (2^64) },
  .linkUp 0 ⟨0, false⟩ 0 { wPid 0 with cert := some (2^256) },
  .linkUp 0 ⟨0, false⟩ 0 { wPid 0 with capacity := 2^32 },
  .nullFlit ⟨{ wFlit with seq := 4096 }, false⟩,
  .nullFlit ⟨{ wFlit with ack := 4096 }, false⟩,
  .nullFlit ⟨{ wFlit with cls := 8 }, false⟩,
  .nullFlit ⟨{ wFlit with count := 2^20 }, false⟩,
  .payloadFlit wFlit { wTm with op := 32 },
  .payloadFlit wFlit { wTm with addr := 2^52 }] : List Instr).all (fun i => ! instrWf i) = true := by decide

theorem test_operandStructuresRefused2 : ([.payloadFlit wFlit { wTm with tag := 65536 },
  .payloadFlit wFlit { wTm with len := 64 },
  .payloadFlit wFlit { wTm with lmask := 16 },
  .payloadFlit wFlit { wTm with srcm := 16 },
  .payloadFlit wFlit { wTm with dstm := 16 },
  .hierarchyControl 0 { wHm with idx := 16 },
  .hierarchyControl 0 { wHm with serial := 2^64 },
  .hierarchyControl 0 { wHm with members := [(9, 0)] },
  .hierarchyControl 0 { wHm with members := [(0, 2^64)] }] : List Instr).all (fun i => ! instrWf i) = true := by decide

theorem test_operandsRefused1 : ([.openSession wFbad 0 0 0 0,
  .openSession wF (2^8) 0 0 0,
  .openSession wF 0 (2^16) 0 0,
  .openSession wF 0 0 (2^8) 0,
  .sessionAuth wFbad 0 0,
  .sessionAuth wF (2^32) 0,
  .closeSession wFbad 0,
  .closeSession wF (2^32),
  .sessionList wFbad,
  .keySet wFbad 0 0,
  .keySet wF (2^8) 0,
  .passwordSet wFbad 0 0,
  .passwordSet wF (2^8) 0,
  .sessionSet wFbad 0 0,
  .sessionSet wF (2^8) 0,
  .sessionSet wF 0 (2^16),
  .sessionIdleTimeout (2^32),
  .sessionAuthExpiry (2^32),
  .lockoutExpiry (2^8),
  .moduleIdentify wFbad,
  .moduleStatus wFbad,
  .moduleSet wFbad none none none none none,
  .moduleSet wF (some (2^8)) none none none none,
  .moduleSet wF none (some (2^16)) none none none,
  .moduleSet wF none none none none (some (256, 0, 0)),
  .moduleSet wF none none none none (some (0, 256, 0)),
  .moduleSet wF none none none none (some (0, 0, 256)),
  .moduleLock wFbad 0,
  .moduleLock wF (2^64),
  .eventGet wFbad false 0,
  .eventGet wF false (2^32),
  .opJournalGet wFbad 0 0,
  .opJournalGet wF (2^64) 0,
  .opJournalGet wF 0 (2^32),
  .opStatus wFbad 0,
  .opStatus wF (2^8),
  .opAbort wFbad 0,
  .opAbort wF (2^8),
  .moduleReset wFbad,
  .resetTarget wFbad 0,
  .resetStatus wFbad,
  .regGet wFbad 0 0,
  .regGet wF (2^32) 0,
  .regGet wF 0 (2^8),
  .regSet wFbad 0 0 0,
  .regSet wF (2^32) 0 0,
  .regSet wF 0 (2^8) 0,
  .regSet wF 0 0 (2^64),
  .identifyV1 wFbad,
  .sliceFreezeV1 wFbad 0,
  .sliceFreezeV1 wF (2^16),
  .sliceSaveV1 wFbad 0 0,
  .sliceSaveV1 wF (2^16) 0,
  .sliceSaveV1 wF 0 (2^64),
  .sliceRestoreV1 wFbad 0 0 0 wImg] : List Instr).all (fun i => ! instrWf i) = true := by decide

theorem test_operandsRefused2 : ([.sliceRestoreV1 wF (2^8) 0 0 wImg,
  .sliceRestoreV1 wF 0 (2^20) 0 wImg,
  .sliceRestoreV1 wF 0 0 (2^64) wImg,
  .sliceRestoreV1 wF 0 0 0 { wImg with version := 65536 },
  .sliceThawV1 wFbad 0,
  .sliceThawV1 wF (2^16),
  .mctpControl .smbus (2^8) 0 0,
  .mctpControl .smbus 0 (2^8) 0,
  .mctpControl .smbus 0 0 (2^8),
  .trunkMailboxFrame 8 wF 0,
  .trunkMailboxFrame 0 wFbad 0,
  .trunkMailboxFrame 0 wF (2^16),
  .forwardResend (2^32),
  .portMapGet wFbad,
  .portMapCommit wFbad [],
  .portEnable wFbad 0,
  .portEnable wF (2^8),
  .portDisable wFbad 0,
  .portDisable wF (2^8),
  .portStatus wFbad 0,
  .portStatus wF (2^8),
  .portSet wFbad 0 none none none none none none,
  .portSet wF (2^8) none none none none none none,
  .portSet wF 0 (some (2^32)) none none none none none,
  .portSet wF 0 none (some (2^16)) none none none none,
  .portSet wF 0 none none (some (2^32)) none none none,
  .portEqSet wFbad 0 false 0,
  .portEqStatus wFbad 0,
  .portReset wFbad 0,
  .portReset wF (2^8),
  .portBlockRead wFbad 0 0,
  .portBlockRead wF 0 (2^8),
  .portBlockWrite wFbad 0 0 0,
  .portBlockWrite wF 0 (2^8) 0,
  .portBlockWrite wF 0 0 (2^64),
  .partnerList wFbad,
  .partnerEventGet wFbad 0,
  .partnerEventGet wF (2^32),
  .partnerSet wFbad 0 none none none,
  .partnerSet wF (2^8) none none none,
  .partnerSet wF 0 (some (2^16)) none none,
  .partnerSet wF 0 none (some (2^32)) none,
  .partnerRelease wFbad 0,
  .partnerRelease wF (2^8),
  .evacuatePartner wFbad 0 0 0 0 0 0,
  .evacuatePartner wF (2^8) 0 0 0 0 0,
  .evacuatePartner wF 0 (2^8) 0 0 0 0,
  .evacuatePartner wF 0 0 (2^8) 0 0 0,
  .evacuatePartner wF 0 0 0 (2^32) 0 0,
  .evacuatePartner wF 0 0 0 0 (2^16) 0,
  .evacuatePartner wF 0 0 0 0 0 (2^64),
  .evacPassDone (2^16),
  .evacStallDrained (2^16),
  .bindAdd wFbad 0 [],
  .bindAdd wF (2^8) []] : List Instr).all (fun i => ! instrWf i) = true := by decide

theorem test_operandsRefused3 : ([.bindAdd wF 0 [{ wBr with home := 16 }],
  .bindRelease wFbad 0 0 false,
  .bindRelease wF (2^8) 0 false,
  .bindRelease wF 0 (2^16) false,
  .bindTableGet wFbad 0,
  .bindTableGet wF (2^8),
  .bindPassthru wFbad (⟨0, 0⟩ : LogDev) 0 0,
  .bindPassthru wF { (⟨0, 0⟩ : LogDev) with port := 2^8 } 0 0,
  .bindPassthru wF { (⟨0, 0⟩ : LogDev) with ld := 16 } 0 0,
  .bindPassthru wF (⟨0, 0⟩ : LogDev) (2^8) 0,
  .bindPassthru wF (⟨0, 0⟩ : LogDev) 0 (2^8),
  .addDynamicCapacityResponse 48 [] [],
  .addDynamicCapacityResponse 0 [2^64] [],
  .addDynamicCapacityResponse 0 [] [2^64],
  .dcAddTimeout 48 0,
  .dcAddTimeout 0 512,
  .releaseDynamicCapacity 48 0,
  .releaseDynamicCapacity 0 512,
  .dcReleaseTimeout 48 0,
  .dcReleaseTimeout 0 512,
  .bindingRemovalDone 48 0,
  .bindingRemovalDone 0 512,
  .poolAddPartner wFbad 0,
  .poolAddPartner wF (2^8),
  .scrubDone (2^16),
  .poolStatus wFbad,
  .poolExtentRevalidate wFbad 0 0,
  .poolExtentRevalidate wF (2^16) 0,
  .poolExtentRevalidate wF 0 (2^32),
  .poolExtentRelease wFbad 0 0,
  .poolExtentRelease wF (2^16) 0,
  .poolExtentRelease wF 0 (2^32),
  .poolAlloc wFbad 0 0,
  .poolAlloc wF (2^8) 0,
  .poolAlloc wF 0 (2^32),
  .poolSpillSet wFbad 0 0 0 0 false,
  .poolSpillSet wF (2^64) 0 0 0 false,
  .poolSpillSet wF 0 (2^64) 0 0 false,
  .poolSpillSet wF 0 0 (2^8) 0 false,
  .poolSpillSet wF 0 0 0 (2^8) false,
  .sliceCreate wFbad 0 0,
  .sliceCreate wF (2^8) 0,
  .sliceCreate wF 0 (2^20),
  .sliceSet wFbad 0 none none,
  .sliceSet wF (2^16) none none,
  .sliceSet wF 0 (some [512]) none,
  .sliceDestroy wFbad 0,
  .sliceDestroy wF (2^16),
  .sliceStatus wFbad 0,
  .sliceStatus wF (2^16),
  .sliceFreeze wFbad 0,
  .sliceFreeze wF (2^16),
  .sliceThaw wFbad 0,
  .sliceThaw wF (2^16),
  .sliceSave wFbad 0 0 0] : List Instr).all (fun i => ! instrWf i) = true := by decide

theorem test_operandsRefused4 : ([.sliceSave wF (2^16) 0 0,
  .sliceSave wF 0 (2^16) 0,
  .sliceSave wF 0 0 (2^64),
  .sliceRestore wFbad 0 0 0 [] wImg,
  .sliceRestore wF (2^8) 0 0 [] wImg,
  .sliceRestore wF 0 (2^20) 0 [] wImg,
  .sliceRestore wF 0 0 (2^64) [] wImg,
  .sliceRestore wF 0 0 0 [2^64] wImg,
  .sliceRestore wF 0 0 0 [] { wImg with version := 65536 },
  .sliceWindowSet wFbad 0 none none,
  .sliceWindowSet wF (2^16) none none,
  .sliceWindowSet wF 0 (some (2^64)) none,
  .sliceWindowSet wF 0 none (some (2^64)),
  .sliceChanSet wFbad 0 0 0 0 0 0,
  .sliceChanSet wF (2^16) 0 0 0 0 0,
  .sliceChanSet wF 0 (2^64) 0 0 0 0,
  .sliceChanSet wF 0 0 (2^8) 0 0 0,
  .sliceChanSet wF 0 0 0 (2^64) 0 0,
  .sliceChanSet wF 0 0 0 0 (2^8) 0,
  .sliceChanSet wF 0 0 0 0 0 (2^16),
  .sliceChanGet wFbad 0,
  .sliceChanGet wF (2^16),
  .sliceChanPut wFbad 0 0 0 0 [],
  .sliceChanPut wF (2^16) 0 0 0 [],
  .sliceChanPut wF 0 (2^32) 0 0 [],
  .sliceChanPut wF 0 0 (2^16) 0 [],
  .sliceChanPut wF 0 0 0 (2^16) [],
  .logStart wFbad 0 0 0 0,
  .logStart wF (2^16) 0 0 0,
  .logStart wF 0 (2^16) 0 0,
  .logStart wF 0 0 (2^64) 0,
  .logStart wF 0 0 0 (2^64),
  .logHarvest wFbad 0 false false,
  .logHarvest wF (2^16) false false,
  .logStop wFbad 0,
  .logStop wF (2^16),
  .sliceCounterClear wFbad 0,
  .sliceCounterClear wF (2^16),
  .dmaChSet wFbad 0 none none none none,
  .dmaChSet wF (2^8) none none none none,
  .dmaChSet wF 0 (some (2^16)) none none none,
  .dmaChSet wF 0 none (some (2^8)) none none,
  .dmaChSet wF 0 none none (some (2^8)) none,
  .dmaChSet wF 0 none none none (some (2^32)),
  .dmaRingAssign wFbad 0 0 0 0 0 0 0 0 0,
  .dmaRingAssign wF (2^16) 0 0 0 0 0 0 0 0,
  .dmaRingAssign wF 0 (2^8) 0 0 0 0 0 0 0,
  .dmaRingAssign wF 0 0 (2^8) 0 0 0 0 0 0,
  .dmaRingAssign wF 0 0 0 (2^64) 0 0 0 0 0,
  .dmaRingAssign wF 0 0 0 0 (2^8) 0 0 0 0,
  .dmaRingAssign wF 0 0 0 0 0 (2^16) 0 0 0,
  .dmaRingAssign wF 0 0 0 0 0 0 (2^64) 0 0,
  .dmaRingAssign wF 0 0 0 0 0 0 0 (2^8) 0,
  .dmaRingAssign wF 0 0 0 0 0 0 0 0 (2^16),
  .dmaRingRelease wFbad 0] : List Instr).all (fun i => ! instrWf i) = true := by decide

theorem test_operandsRefused5 : ([.dmaRingRelease wF (2^16),
  .dmaStatus wFbad 0,
  .dmaStatus wF (2^16),
  .dmaAliasSet wFbad 0 none,
  .dmaAliasSet wF (2^8) none,
  .dmaAliasSet wF 0 (some { wDef with next := 65536 }),
  .dmaAliasStatus wFbad 0,
  .dmaAliasStatus wF (2^8),
  .wardRegionSet wFbad 0 wReg,
  .wardRegionSet wF (2^16) wReg,
  .wardRegionSet wF 0 { wReg with base := 2^44 },
  .wardRegionGet wFbad 0,
  .wardRegionGet wF (2^16),
  .wardCutSet wFbad false 0 0,
  .wardCutSet wF false (2^16) 0,
  .wardCommit wFbad 0,
  .wardCommit wF (2^32),
  .wardStatusGet wFbad,
  .shapeBktSet wFbad false 0 0 0,
  .shapeBktSet wF false (2^16) 0 0,
  .shapeBktSet wF false 0 (2^8) 0,
  .shapeBktGet wFbad false 0 0,
  .shapeBktGet wF false (2^16) 0,
  .shapeBktGet wF false 0 (2^8),
  .shapeStatus wFbad,
  .gateListSet wFbad 0 0 0 [],
  .gateListSet wF (2^8) 0 0 [],
  .gateCommit wFbad 0,
  .gateCommit wF (2^8),
  .gateGet wFbad 0,
  .gateGet wF (2^8),
  .gateTsyncSet wFbad 0,
  .gateTsyncSet wF (2^16),
  .hierStatus wFbad,
  .hierKeySet wFbad 0,
  .hierSet wFbad none none none none,
  .hierSet wF none none (some (2^32)) none,
  .hierSet wF none none none (some (2^16)),
  .hierAdmit wFbad 0,
  .hierAdmit wF (2^64),
  .hierRemove wFbad 0,
  .hierRemove wF (2^16),
  .hierForget wFbad 0,
  .hierForget wF (2^16),
  .hierTrunkDisable wFbad 0,
  .hierTrunkDisable wF 8,
  .hierTrunkEnable wFbad 0,
  .hierTrunkEnable wF 8,
  .faultLogGet wFbad 0 0,
  .faultLogGet wF (2^32) 0,
  .faultLogGet wF 0 (2^32),
  .faultStatus wFbad,
  .faultReactionSet wFbad false 0 0 none false 0 false,
  .faultReactionSet wF false (2^16) 0 none false 0 false,
  .faultReactionSet wF false 0 0 (some (2^8)) false 0 false] : List Instr).all (fun i => ! instrWf i) = true := by decide

theorem test_operandsRefused6 : ([.faultReactionSet wF false 0 0 none false (2^16) false,
  .reactionDryrun wFbad false 0 0,
  .reactionDryrun wF false (2^16) 0,
  .faultLogClear wFbad,
  .aliveSet wFbad 0,
  .aliveSet wF (2^16),
  .powerStatus wFbad,
  .powerSet wFbad 0 0,
  .powerStateSet wFbad 0 false,
  .powerStateSet wF (2^32) false,
  .energyClear wFbad,
  .thermalSet wFbad 0 0 0,
  .thermalSet wF (2^8) 0 0,
  .thermalSet wF 0 (2^8) 0,
  .thermalSet wF 0 0 (2^8),
  .thermalStatus wFbad,
  .perfCntSet wFbad false 0 0 0 none false,
  .perfCntSet wF false (2^8) 0 0 none false,
  .perfCntSet wF false 0 (2^16) 0 none false,
  .perfCntSet wF false 0 0 0 (some (2^64)) false,
  .perfCntGet wFbad false 0 0,
  .perfCntGet wF false (2^8) 0,
  .perfCntGet wF false 0 (2^16),
  .perfSampleSet wFbad 0 [],
  .perfSampleSet wF (2^16) [],
  .perfSampleSet wF 0 [2^64],
  .perfOvfSet wFbad false 0,
  .perfOvfSet wF false (2^16),
  .fwInfo wFbad,
  .fwTransfer wFbad 0 [],
  .fwTransfer wF (2^32) [],
  .fwVerify wFbad,
  .fwActivate wFbad false,
  .dmaSqDb 256 0,
  .dmaSqDb 0 (2^16),
  .dmaCqDb 256 0,
  .dmaCqDb 0 (2^16),
  .dmaRingCtlEn 256 false,
  .dmaRingCtlAbort 256,
  .chStop 64 false,
  .schReqDb 512 0,
  .schReqDb 0 (2^16),
  .schRepDb 512 0,
  .schRepDb 0 (2^16),
  .wardCommitGo (2^32) false,
  .globalLockWrite (2^64),
  .perfSmpHead 9 0,
  .perfSmpHead 0 (2^16),
  .sequenceClear (2^32) 0,
  .sequenceClear 0 (2^64),
  .registerWrite false 64 0 0 0,
  .registerWrite false 0 (2^32) 0 0,
  .registerWrite false 0 0 (2^8) 0,
  .registerWrite false 0 0 0 (2^64),
  .tvRead (2^8)] : List Instr).all (fun i => ! instrWf i) = true := by decide

theorem test_operandsRefused7 : ([.counterLowRead (2^64) 0,
  .counterLowRead 0 (2^32),
  .corePllLock 7,
  .planeIdleGate 4,
  .planeUngate 4,
  .sliceDrainDone 32,
  .rds { wReqOp with fpa := 2^52 },
  .rdx { wReqOp with fpa := 2^52 },
  .upg { wReqOp with fpa := 2^52 },
  .wrinvfull { wReqOp with fpa := 2^52 },
  .wrinvpart { wReqOp with fpa := 2^52 },
  .atomop { wReqOp with fpa := 2^52 } 0 0,
  .evict { wReqOp with fpa := 2^52 },
  .wbdata { wMsgOp with fpa := 2^52 },
  .snpinv { wMsgOp with fpa := 2^52 },
  .snpshr { wMsgOp with fpa := 2^52 },
  .snpdata { wMsgOp with fpa := 2^52 },
  .birecall { wMsgOp with fpa := 2^52 },
  .rspi { wMsgOp with fpa := 2^52 },
  .rsps { wMsgOp with fpa := 2^52 },
  .rspo { wMsgOp with fpa := 2^52 },
  .rspwbpend { wMsgOp with fpa := 2^52 },
  .cmp { wMsgOp with fpa := 2^52 },
  .cmppoison { wMsgOp with fpa := 2^52 },
  .datas { wMsgOp with fpa := 2^52 },
  .datae { wMsgOp with fpa := 2^52 },
  .datam { wMsgOp with fpa := 2^52 },
  .datao { wMsgOp with fpa := 2^52 },
  .conflictQueueResume 32 0,
  .conflictQueueResume 0 (2^52),
  .snoopTimeout (2^52) .fw,
  .snoopTimeout 0 (.host 48),
  .postingWindowWrite { wHop with port := 64 },
  .m2sReq { wHop with port := 64 },
  .m2sRwd { wHop with port := 64 },
  .m2sBirsp 64 0 (⟨false, false⟩ : BirspOp),
  .m2sBirsp 0 (2^64) (⟨false, false⟩ : BirspOp),
  .biconflict 64 0,
  .biconflict 0 (2^64),
  .d2hReq 16 0 wReqOp,
  .d2hReq 0 (2^8) wReqOp,
  .d2hReq 0 0 { wReqOp with fpa := 2^52 },
  .s2mDrs 64 0 false 0,
  .s2mDrs 0 (2^52) false 0,
  .s2mNdrCmp 64 0,
  .s2mNdrCmp 0 (2^52),
  .passthruMemRequest { (⟨0, 0⟩ : LogDev) with port := 64 } 0 0 0 false [],
  .passthruMemRequest { (⟨0, 0⟩ : LogDev) with ld := 16 } 0 0 0 false [],
  .passthruMemRequest (⟨0, 0⟩ : LogDev) (2^20) 0 0 false [],
  .passthruMemRequest (⟨0, 0⟩ : LogDev) 0 (2^64) 0 false [],
  .passthruMemRequest (⟨0, 0⟩ : LogDev) 0 0 (2^16) false [],
  .cxlioTlp { (⟨0, 0⟩ : LogDev) with port := 64 } false [],
  .cxlioTlp { (⟨0, 0⟩ : LogDev) with ld := 16 } false [],
  .reseqHole 128 0 0,
  .reseqHole 0 128 0] : List Instr).all (fun i => ! instrWf i) = true := by decide

theorem test_operandsRefused8 : ([.reseqHole 0 0 6,
  .spillReadBack 128,
  .arbRequest 64 0 false 0,
  .arbRequest 0 52 false 0,
  .arbRequest 0 0 false (2^8),
  .arbGrant 64,
  .arbHandoffDone 64,
  .arbHold 64,
  .arbMask 64 0,
  .arbMask 0 52,
  .arbUnmask 64 0,
  .arbUnmask 0 52,
  .arbParkTimeout 64 0,
  .arbParkTimeout 0 52,
  .perstNLow 16,
  .perstNRelease 16,
  .perstReleaseTimer 16,
  .refclkStable 8,
  .receiverDetect 64 false,
  .linkUp 64 (⟨0, false⟩ : LinkLanes) 0 (wPid 0),
  .linkUp 0 { (⟨0, false⟩ : LinkLanes) with width := 2^8 } 0 (wPid 0),
  .linkUp 0 (⟨0, false⟩ : LinkLanes) (2^8) (wPid 0),
  .linkUp 0 (⟨0, false⟩ : LinkLanes) 0 { wPid 0 with kind := 5 },
  .ideEstablished 64,
  .memoryActive 64 0,
  .memoryActive 0 (2^32),
  .arrive 64,
  .spdmSessionComplete 64 0 false,
  .spdmSessionComplete 0 (2^256) false,
  .linkDown 64 0,
  .linkDown 0 (2^8),
  .linkLevelReset 64,
  .ideIntegrityFailure 64,
  .departureSweepDone 64,
  .departureTimerExpiry 64,
  .dsCplTimeout 64 0,
  .dsCplTimeout 0 (2^52),
  .usCplTimeout 64 0,
  .usCplTimeout 0 (2^52),
  .trCplTimeout (2^52) .fw,
  .trCplTimeout 0 (.host 48),
  .refclkLoss 8,
  .refclkReturn 8,
  .trunkTrainDone 8 false,
  .trunkTrainTimeout 8,
  .trunkAlignDone { (⟨0, 0⟩ : AlignOp) with tp := 8 },
  .trunkAlignDone { (⟨0, 0⟩ : AlignOp) with skew := 2^16 },
  .laneMarker 8 0 false 0 0 0,
  .laneMarker 0 4 false 0 0 0,
  .laneMarker 0 0 false (2^8) 0 0,
  .laneMarker 0 0 false 0 (2^16) 0,
  .laneMarker 0 0 false 0 0 (2^4),
  .initCredit 8 0 0 0 [],
  .initCredit 0 (2^64) 0 0 [],
  .initCredit 0 0 9 0 []] : List Instr).all (fun i => ! instrWf i) = true := by decide

theorem test_operandsRefused9 : ([.initCredit 0 0 0 (2^8) [],
  .initCredit 0 0 0 0 [2^64],
  .authChal 8 0,
  .authResp 8 0,
  .authFailRetry 8,
  .payloadFlit { wFlit with tp := 8 } wTm,
  .payloadFlit wFlit { wTm with cls := 8 },
  .nullFlit (⟨{ wFlit with tp := 8 }, false⟩ : NullOp),
  .replayReq 8 0,
  .replayReq 0 (2^32),
  .replayTimeout 8,
  .resume 8 0 0 [] false,
  .resume 0 0 (2^32) [] false,
  .resume 0 0 0 [2^64] false,
  .linkSleep 8 0,
  .linkSleep 0 (2^8),
  .leave 8 0,
  .leave 0 9,
  .reset 8 0,
  .reset 0 9,
  .sleep1Codeword 8,
  .tl1IdleEntry 8,
  .wakeSequence 8,
  .wakeLockTimeout 8,
  .errorWindowEval 8,
  .cdrLoss 8 0,
  .cdrLoss 0 4,
  .trefclkLoss 7,
  .linkHoldExpiry 8,
  .hierarchyControl 8 wHm,
  .hierarchyControl 0 { wHm with kind := 256 },
  .descriptorFetch 64 0 0,
  .descriptorFetch 0 256 0,
  .descriptorFetch 0 0 (2^16),
  .descriptorBegin 64,
  .nop 64,
  .copy 64,
  .fill 64,
  .check 64,
  .atomic 64,
  .flip 64,
  .fence 64,
  .burstBegin 64,
  .descriptorComplete 64,
  .drainDone 256,
  .dreqEdge 16,
  .dmaWatchdog 64,
  .flipPrepare 16,
  .flipCommit 16,
  .flipDrainDone 16,
  .flipSweepDone 16,
  .chargeProceed false 512 0,
  .chargeProceed false 0 16,
  .shapingQueueEntry 64,
  .cycleStart 128] : List Instr).all (fun i => ! instrWf i) = true := by decide

theorem test_operandsRefused10 : ([.gateEntry 128,
  .gateSwap 128,
  .sliceChannelRequest 512 false false 0 0 0 [],
  .sliceChannelRequest 0 false false (2^16) 0 0 [],
  .sliceChannelRequest 0 false false 0 (2^32) 0 [],
  .sliceChannelRequest 0 false false 0 0 (2^16) [],
  .faultReport (2^16) 0 0 0,
  .faultReport 0 0 0 64,
  .wire 0 (2^8),
  .sampleRecord 9 0,
  .sampleRecord 0 (2^32),
  .thermalSensorUpdate [2^64],
  .dieThermal 7,
  .feedChange false (2^8),
  .meterUpdate (2^16) 0 0 0 0 0 0 false,
  .meterUpdate 0 (2^16) 0 0 0 0 0 false,
  .meterUpdate 0 0 (2^16) 0 0 0 0 false,
  .meterUpdate 0 0 0 (2^16) 0 0 0 false,
  .meterUpdate 0 0 0 0 (2^16) 0 0 false,
  .meterUpdate 0 0 0 0 0 (2^16) 0 false,
  .meterUpdate 0 0 0 0 0 0 (2^16) false,
  .gpfRequest 64,
  .tapInstruction (2^8),
  .controlFlitRepeat 8,
  .forwardedReply 8 0 0 [],
  .forwardedReply 0 (2^32) 0 [],
  .forwardedReply 0 0 (2^8) [],
  .forwardedReply 0 0 0 [2^64],
  .homeModuleRequest 8 0 0 0,
  .homeModuleRequest 0 (2^8) 0 0,
  .homeModuleRequest 0 0 (2^16) 0,
  .homeModuleRequest 0 0 0 (2^32),
  .gpfCompletion 64,
  .memoryActiveTimeout 64,
  .linkL1Entry { (⟨0, 0⟩ : IdleOp) with port := 64 },
  .linkL1Entry { (⟨0, 0⟩ : IdleOp) with width := 2^8 },
  .linkL1Exit 64,
  .cxlMemoryDeviceCommand 64 0,
  .cxlMemoryDeviceCommand 0 (2^16),
  .unsupportedOpcode wFbad 0,
  .unsupportedOpcode wF (2^16),
  .scrubPatrol 7 0,
  .scrubPatrol 0 64] : List Instr).all (fun i => ! instrWf i) = true := by decide

theorem test_tooLong_portMapCommit : instrWf (.portMapCommit wF (List.replicate 129 0)) = false := by simp [instrWf]

theorem test_tooLong_sliceChanPut : instrWf (.sliceChanPut wF 0 0 0 0 (List.replicate 4097 0)) = false := by simp [instrWf]

theorem test_tooLong_gateListSet : instrWf (.gateListSet wF 0 0 0 (List.replicate 129 0)) = false := by simp [instrWf]

theorem test_tooLong_fwTransfer : instrWf (.fwTransfer wF 0 (List.replicate 4097 0)) = false := by simp [instrWf]

theorem test_tooLong_passthruMemRequest : instrWf (.passthruMemRequest (⟨0, 0⟩ : LogDev) 0 0 0 false (List.replicate 4097 0)) = false := by simp [instrWf]

theorem test_tooLong_cxlioTlp : instrWf (.cxlioTlp (⟨0, 0⟩ : LogDev) false (List.replicate 4097 0)) = false := by simp [instrWf]

theorem test_tooLong_sliceChannelRequest : instrWf (.sliceChannelRequest 0 false false 0 0 0 (List.replicate 4097 0)) = false := by simp [instrWf]

theorem test_wellFormed1 : ([.openSession wF 0 0 0 0,
  .sessionAuth wF 0 0,
  .closeSession wF 0,
  .sessionList wF,
  .keySet wF 0 0,
  .passwordSet wF 0 0,
  .sessionSet wF 0 0,
  .sessionIdleTimeout 0,
  .sessionAuthExpiry 0,
  .lockoutExpiry 0,
  .moduleIdentify wF,
  .moduleStatus wF,
  .moduleSet wF none none none none none,
  .moduleLock wF 0,
  .eventGet wF false 0,
  .opJournalGet wF 0 0,
  .opStatus wF 0,
  .opAbort wF 0,
  .moduleReset wF,
  .resetTarget wF 0,
  .resetStatus wF,
  .regGet wF 0 0,
  .regSet wF 0 0 0,
  .identifyV1 wF,
  .sliceFreezeV1 wF 0,
  .sliceSaveV1 wF 0 0,
  .sliceRestoreV1 wF 0 0 0 wImg,
  .sliceThawV1 wF 0,
  .mctpControl .smbus 0 0 0,
  .trunkMailboxFrame 0 wF 0,
  .forwardResend 0,
  .portMapGet wF,
  .portMapCommit wF [],
  .portEnable wF 0,
  .portDisable wF 0,
  .portStatus wF 0,
  .portSet wF 0 none none none none none none,
  .portEqSet wF 0 false 0,
  .portEqStatus wF 0,
  .portReset wF 0,
  .portBlockRead wF 0 0,
  .portBlockWrite wF 0 0 0,
  .partnerList wF,
  .partnerEventGet wF 0,
  .partnerSet wF 0 none none none,
  .partnerRelease wF 0,
  .evacuatePartner wF 0 0 0 0 0 0,
  .evacPassDone 0,
  .evacStallDrained 0,
  .evacFinalPassDone,
  .evacStallGuard,
  .bindAdd wF 0 [],
  .bindRelease wF 0 0 false,
  .bindTableGet wF 0,
  .bindPassthru wF (⟨0, 0⟩ : LogDev) 0 0,
  .addDynamicCapacityResponse 0 [] [],
  .dcAddTimeout 0 0,
  .releaseDynamicCapacity 0 0,
  .dcReleaseTimeout 0 0,
  .bindingRemovalDone 0 0] : List Instr).all (fun i => instrWf i) = true := by decide

theorem test_wellFormed2 : ([.poolAddPartner wF 0,
  .scrubDone 0,
  .poolStatus wF,
  .poolExtentRevalidate wF 0 0,
  .poolExtentRelease wF 0 0,
  .poolAlloc wF 0 0,
  .poolSpillSet wF 0 0 0 0 false,
  .sliceCreate wF 0 0,
  .sliceSet wF 0 none none,
  .sliceDestroy wF 0,
  .sliceStatus wF 0,
  .sliceFreeze wF 0,
  .sliceThaw wF 0,
  .sliceSave wF 0 0 0,
  .sliceRestore wF 0 0 0 [] wImg,
  .sliceWindowSet wF 0 none none,
  .sliceChanSet wF 0 0 0 0 0 0,
  .sliceChanGet wF 0,
  .sliceChanPut wF 0 0 0 0 [],
  .logStart wF 0 0 0 0,
  .logHarvest wF 0 false false,
  .logStop wF 0,
  .sliceCounterClear wF 0,
  .dmaChSet wF 0 none none none none,
  .dmaRingAssign wF 0 0 0 0 0 0 0 0 0,
  .dmaRingRelease wF 0,
  .dmaStatus wF 0,
  .dmaAliasSet wF 0 none,
  .dmaAliasStatus wF 0,
  .wardRegionSet wF 0 wReg,
  .wardRegionGet wF 0,
  .wardCutSet wF false 0 0,
  .wardCommit wF 0,
  .wardStatusGet wF,
  .shapeBktSet wF false 0 0 0,
  .shapeBktGet wF false 0 0,
  .shapeStatus wF,
  .gateListSet wF 0 0 0 [],
  .gateCommit wF 0,
  .gateGet wF 0,
  .gateTsyncSet wF 0,
  .hierStatus wF,
  .hierKeySet wF 0,
  .hierSet wF none none none none,
  .hierAdmit wF 0,
  .hierRemove wF 0,
  .hierRemoveStepDone,
  .hierForget wF 0,
  .hierTrunkDisable wF 0,
  .hierTrunkEnable wF 0,
  .faultLogGet wF 0 0,
  .faultStatus wF,
  .faultReactionSet wF false 0 0 none false 0 false,
  .reactionDryrun wF false 0 0,
  .faultLogClear wF,
  .aliveSet wF 0,
  .powerStatus wF,
  .powerSet wF 0 0,
  .powerStateSet wF 0 false,
  .energyClear wF] : List Instr).all (fun i => instrWf i) = true := by decide

theorem test_wellFormed3 : ([.thermalSet wF 0 0 0,
  .thermalStatus wF,
  .perfCntSet wF false 0 0 0 none false,
  .perfCntGet wF false 0 0,
  .perfSampleSet wF 0 [],
  .perfOvfSet wF false 0,
  .fwInfo wF,
  .fwTransfer wF 0 [],
  .fwVerify wF,
  .fwVerifyDone,
  .fwActivate wF false,
  .dmaSqDb 0 0,
  .dmaCqDb 0 0,
  .dmaRingCtlEn 0 false,
  .dmaRingCtlAbort 0,
  .chStop 0 false,
  .schReqDb 0 0,
  .schRepDb 0 0,
  .wardCommitGo 0 false,
  .globalLockWrite 0,
  .perfCtlFreeze false,
  .perfCtlClear,
  .perfSmpHead 0 0,
  .sequenceClear 0 0,
  .sillCtlEn false,
  .registerWrite false 0 0 0 0,
  .tvRead 0,
  .votePass,
  .counterLowRead 0 0,
  .coreWake,
  .coreHalt,
  .coreWdog,
  .corePllLock 0,
  .planeIdleGate 0,
  .planeUngate 0,
  .rstNLow,
  .rstNRelease,
  .moduleResetCoreReset,
  .moduleResetRelease,
  .moduleResetReady,
  .sliceDrainDone 0,
  .resetDone 0,
  .rds wReqOp,
  .rdx wReqOp,
  .upg wReqOp,
  .wrinvfull wReqOp,
  .wrinvpart wReqOp,
  .atomop wReqOp 0 0,
  .evict wReqOp,
  .wbdata wMsgOp,
  .snpinv wMsgOp,
  .snpshr wMsgOp,
  .snpdata wMsgOp,
  .birecall wMsgOp,
  .rspi wMsgOp,
  .rsps wMsgOp,
  .rspo wMsgOp,
  .rspwbpend wMsgOp,
  .cmp wMsgOp,
  .cmppoison wMsgOp] : List Instr).all (fun i => instrWf i) = true := by decide

theorem test_wellFormed4 : ([.datas wMsgOp,
  .datae wMsgOp,
  .datam wMsgOp,
  .datao wMsgOp,
  .conflictQueueResume 0 0,
  .snoopTimeout 0 .fw,
  .postingWindowWrite wHop,
  .m2sReq wHop,
  .m2sRwd wHop,
  .m2sBirsp 0 0 (⟨false, false⟩ : BirspOp),
  .biconflict 0 0,
  .d2hReq 0 0 wReqOp,
  .s2mDrs 0 0 false 0,
  .s2mNdrCmp 0 0,
  .passthruMemRequest (⟨0, 0⟩ : LogDev) 0 0 0 false [],
  .cxlioTlp (⟨0, 0⟩ : LogDev) false [],
  .reseqHole 0 0 0,
  .spillReadBack 0,
  .arbRequest 0 0 false 0,
  .arbGrant 0,
  .arbHandoffDone 0,
  .arbHold 0,
  .arbMask 0 0,
  .arbUnmask 0 0,
  .arbParkTimeout 0 0,
  .perstNLow 0,
  .perstNRelease 0,
  .perstReleaseTimer 0,
  .refclkStable 0,
  .receiverDetect 0 false,
  .linkUp 0 (⟨0, false⟩ : LinkLanes) 0 (wPid 0),
  .ideEstablished 0,
  .memoryActive 0 0,
  .arrive 0,
  .spdmSessionComplete 0 0 false,
  .linkDown 0 0,
  .linkLevelReset 0,
  .ideIntegrityFailure 0,
  .departureSweepDone 0,
  .departureTimerExpiry 0,
  .dsCplTimeout 0 0,
  .usCplTimeout 0 0,
  .trCplTimeout 0 .fw,
  .refclkLoss 0,
  .refclkReturn 0,
  .trunkTrainDone 0 false,
  .trunkTrainTimeout 0,
  .trunkAlignDone (⟨0, 0⟩ : AlignOp),
  .laneMarker 0 0 false 0 0 0,
  .initCredit 0 0 0 0 [],
  .authChal 0 0,
  .authResp 0 0,
  .authFailRetry 0,
  .payloadFlit wFlit wTm,
  .nullFlit (⟨wFlit, false⟩ : NullOp),
  .replayReq 0 0,
  .replayTimeout 0,
  .resume 0 0 0 [] false,
  .linkSleep 0 0,
  .leave 0 0] : List Instr).all (fun i => instrWf i) = true := by decide

theorem test_wellFormed5 : ([.reset 0 0,
  .sleep1Codeword 0,
  .tl1IdleEntry 0,
  .wakeSequence 0,
  .wakeLockTimeout 0,
  .errorWindowEval 0,
  .cdrLoss 0 0,
  .trefclkLoss 0,
  .linkHoldExpiry 0,
  .managerDeclare,
  .hierarchyControl 0 wHm,
  .meshComplete,
  .meshTimeout,
  .joinRetry,
  .descriptorFetch 0 0 0,
  .descriptorBegin 0,
  .nop 0,
  .copy 0,
  .fill 0,
  .check 0,
  .atomic 0,
  .flip 0,
  .fence 0,
  .burstBegin 0,
  .descriptorComplete 0,
  .drainDone 0,
  .dreqEdge 0,
  .dmaWatchdog 0,
  .flipPrepare 0,
  .flipCommit 0,
  .flipDrainDone 0,
  .flipSweepDone 0,
  .chargeProceed false 0 0,
  .shapingQueueEntry 0,
  .tsync,
  .tsyncLoss,
  .cycleStart 0,
  .gateEntry 0,
  .gateSwap 0,
  .sliceChannelRequest 0 false false 0 0 0 [],
  .wardCommitCheck,
  .wardSwitch,
  .wardCopyDone,
  .faultReport 0 0 0 0,
  .wire 0 0,
  .reactionWindowClose 0,
  .overflowMessage,
  .sampleRecord 0 0,
  .thermalSensorUpdate [],
  .dieThermal 0,
  .feedChange false 0,
  .qualStart,
  .qualDone,
  .powerGood,
  .sillSoa,
  .sillFastTrip,
  .sillSlowTrip,
  .coolEnd,
  .retryReload,
  .sillOv] : List Instr).all (fun i => instrWf i) = true := by decide

theorem test_wellFormed6 : ([.ovRecover,
  .bulkRecharge,
  .coldReset,
  .coldRelease,
  .sillBrownout,
  .brownoutSleep,
  .pfwRelease,
  .polStop,
  .meterUpdate 0 0 0 0 0 0 0 false,
  .gpfRequest 0,
  .selfTestDone false,
  .startupReady,
  .tapInstruction 0,
  .testLogicReset,
  .qualLeavesRange,
  .bulkRechargeEnd,
  .controlFlitRepeat 0,
  .forwardedReply 0 0 0 [],
  .homeModuleRequest 0 0 0 0,
  .gpfCompletion 0,
  .memoryActiveTimeout 0,
  .linkL1Entry (⟨0, 0⟩ : IdleOp),
  .linkL1Exit 0,
  .cxlMemoryDeviceCommand 0 0,
  .unsupportedOpcode wF 0,
  .scrubPatrol 0 0] : List Instr).all (fun i => instrWf i) = true := by decide

/-- The hypotheses of SessionsOpen are met. -/
theorem met_sessions_open :
    (∃ f role slice ksrc nc, Met 0xC001 f (.openSession f role slice ksrc nc) (fun _ _ s => 1 ≤ role ∧ role ≤ 4 ∧ ksrc ≤ 1 ∧ (role = 4 → (s.slice slice).isSome = true) ∧ s.lockedOut role = false ∧ s.mbx.sessions.length < 8)) ∧
    (∃ f sid proof x, Met 0xC002 f (.sessionAuth f sid proof) (fun _ _ s => s.session sid = some x ∧ x.authed = false ∧ x.xport = f.xport ∧ x.ep = endpointOf f ∧ proof = x.proof (s.sessionKey x.role x.slice x.ksrc))) ∧
    (∃ f sid proof x, Met 0xC002 f (.sessionAuth f sid proof) (fun _ _ s => s.session sid = some x ∧ x.authed = false ∧ x.xport = f.xport ∧ x.ep = endpointOf f ∧ proof ≠ x.proof (s.sessionKey x.role x.slice x.ksrc))) ∧
    (∃ role, Could (.lockoutExpiry role) (fun s => (Tbl.find s.mbx.lockouts role).isSome = true)) :=
  ⟨⟨wFree, 1, 0, 0, 0, wS, _, _, _, rfl, by decide⟩,
    ⟨wFree, 2, wSesNew.proof (wS.sessionKey 1 0xFFFF 0), wSesNew, wS, _, _, _, rfl, ⟨rfl, rfl, rfl, rfl, rfl⟩⟩,
    ⟨wFree, 2, ~~~(wSesNew.proof (wS.sessionKey 1 0xFFFF 0)), wSesNew, wS, _, _, _, rfl, ⟨rfl, rfl, rfl, rfl, not_ne _⟩⟩,
    ⟨1, { wS with mbx := { wS.mbx with lockouts := [(1, 5)] } }, by decide⟩⟩

/-- The hypotheses of SessionsEndAndKeys are met. -/
theorem met_sessions_end_and_keys :
    (∃ f sid, Met 0xC003 f (.closeSession f sid) (fun r _ s => (sid = f.sid ∨ r = 1) ∧ (s.session sid).isSome = true)) ∧
    (∃ sid x, Could (.sessionIdleTimeout sid) (fun s => s.session sid = some x ∧ x.authed = true)) ∧
    (∃ sid x, Could (.sessionAuthExpiry sid) (fun s => s.session sid = some x ∧ x.authed = false)) ∧
    (∃ f, Met 0xC004 f (.sessionList f) (fun _ _ _ => True)) ∧
    (∃ f role key, Met 0xC005 f (.keySet f role key) (fun _ _ _ => 1 ≤ role ∧ role ≤ 4)) ∧
    (∃ f role key, Met 0xC006 f (.passwordSet f role key) (fun _ _ _ => 1 ≤ role ∧ role ≤ 4)) ∧
    (∃ f role secs, Met 0xC007 f (.sessionSet f role secs) (fun _ _ _ => 1 ≤ role ∧ role ≤ 4 ∧ 30 ≤ secs ∧ secs ≤ 3600)) :=
  ⟨⟨wFm 0xC003, 1, wS, _, _, _, session_executes rfl rfl rfl, by decide⟩,
    ⟨1, wSes, wS, by decide⟩,
    ⟨2, wSesNew, wS, by decide⟩,
    ⟨wFm 0xC004, wS, _, _, _, session_executes rfl rfl rfl, by decide⟩,
    ⟨wFm 0xC005, 1, 7, wS, _, _, _, session_executes rfl rfl rfl, by decide⟩,
    ⟨wFm 0xC006, 4, 7, wS, _, _, _, session_executes rfl rfl rfl, by decide⟩,
    ⟨wFm 0xC007, 2, 3600, wS, _, _, _, session_executes rfl rfl rfl, by decide⟩⟩

/-- The hypotheses of ModuleReports are met. -/
theorem met_module_reports :
    (∃ f, Met 0xC101 f (.moduleIdentify f) (fun _ _ _ => True)) ∧
    (∃ f, Met 0xD001 f (.identifyV1 f) (fun _ _ _ => True)) ∧
    (∃ f, Met 0xC102 f (.moduleStatus f) (fun _ _ _ => True)) ∧
    (∃ f index count, Met 0xC106 f (.opJournalGet f index count) (fun _ _ _ => 1 ≤ count ∧ count ≤ 127)) ∧
    (∃ f grp, Met 0xC107 f (.opStatus f grp) (fun _ _ _ => grp ≤ 15)) ∧
    (∃ f, Met 0xC112 f (.resetStatus f) (fun _ _ _ => True)) ∧
    (∃ f seq, Met 0xC105 f (.eventGet f false seq) (fun _ _ _ => True)) ∧
    (∃ f seq, Met 0xC105 f (.eventGet f true seq) (fun _ _ s => (s.mbx.summary.clear (BitVec.ofNat 8 seq)).ages ≠ [])) ∧
    (∃ f seq, Met 0xC105 f (.eventGet f true seq) (fun _ _ s => (s.mbx.summary.clear (BitVec.ofNat 8 seq)).ages = [] ∧ s.mbx.alert = true)) :=
  ⟨⟨wFm 0xC101, wS, _, _, _, session_executes rfl rfl rfl, by decide⟩,
    ⟨wFree, wS, _, _, _, rfl, by decide⟩,
    ⟨wFm 0xC102, wS, _, _, _, session_executes rfl rfl rfl, by decide⟩,
    ⟨wFm 0xC106, 0, 127, wS, _, _, _, session_executes rfl rfl rfl, by decide⟩,
    ⟨wFm 0xC107, 15, wS, _, _, _, session_executes rfl rfl rfl, by decide⟩,
    ⟨wFm 0xC112, wS, _, _, _, session_executes rfl rfl rfl, by decide⟩,
    ⟨wFm 0xC105, 0, wS, _, _, _, session_executes rfl rfl rfl, by decide⟩,
    ⟨wFm 0xC105, 0, { wS with mbx := { wS.mbx with summary := { seq := 1, ages := [(6, 0)], val := 0 } } }, _, _, _, session_executes rfl rfl rfl, by decide⟩,
    ⟨wFm 0xC105, 1, { wS with mbx := { wS.mbx with summary := { seq := 1, ages := [(6, 0)], val := 0 }, alert := true } }, _, _, _, session_executes rfl rfl rfl, by decide⟩⟩

/-- The hypotheses of ModuleSettings are met. -/
theorem met_module_settings :
    (∃ f smbus vec notify alert edge, Met 0xC103 f (.moduleSet f smbus vec notify alert edge) (fun _ _ _ => smbus.all (fun a => decide (a ≤ 127)) = true ∧ vec.all (fun v => decide (v ≤ 2047)) = true ∧ edge.all (fun e => decide (e.1 ≤ 3) && decide (e.2.1 ≤ 3) && decide (e.2.2 ≤ 3)) = true)) ∧
    (∃ f mask, Met 0xC104 f (.moduleLock f mask) (fun _ _ _ => True)) ∧
    (∃ f, Met 0xC108 f (.opAbort f 3) (fun _ _ s => s.opRunning 3 = true)) ∧
    (∃ f, Met 0xC108 f (.opAbort f 15) (fun _ _ s => s.opRunning 15 = true)) ∧
    (∃ f off width, Met 0xC120 f (.regGet f off width) (fun _ _ s => off < 2 ^ 20 ∧ (width = 1 ∨ width = 2 ∨ width = 4 ∨ width = 8) ∧ s.regUp off = true)) ∧
    (∃ f off width val, Met 0xC121 f (.regSet f off width val) (fun _ _ s => off < 2 ^ 20 ∧ (width = 1 ∨ width = 2 ∨ width = 4 ∨ width = 8) ∧ s.regUp off = true)) ∧
    (∃ f, Met 0xC110 f (.moduleReset f) (fun _ _ _ => True)) ∧
    (∃ f loc, Met 0xC111 f (.resetTarget f loc) (fun _ _ s => s.locExists loc = true ∧ 2 ≤ loc.level ∧ loc.die ≠ 6 ∧ ¬ (loc.clu = 7 ∧ loc.level = 4) ∧ s.svc.mr = .idle ∧ s.svc.resets.any (fun x => scopesMeet x.loc loc) = false ∧ (loc.level == 2 && s.therm.tripped.contains loc.die && (dieSensors loc.die).any s.hot) = false)) :=
  ⟨⟨wFm 0xC103, some 127, some 2047, some true, none, some (3, 0, 2), wS, _, _, _, session_executes rfl rfl rfl, by decide⟩,
    ⟨wFm 0xC104, 0xFFFF, wS, _, _, _, session_executes rfl rfl rfl, by decide⟩,
    ⟨wFm 0xC108, { wS with mbx := { wS.mbx with ops := [(3, wOp)] } }, _, _, _, session_executes rfl rfl rfl, by decide⟩,
    ⟨wFm 0xC108, { wS with mbx := { wS.mbx with ops := [(15, wOp)] } }, _, _, _, session_executes rfl rfl rfl, by decide⟩,
    ⟨wFm 0xC120, 0x20, 4, wS, _, _, _, session_executes rfl rfl rfl, by decide⟩,
    ⟨wFm 0xC121, 0x20, 4, 0, wS, _, _, _, session_executes rfl rfl rfl, by decide⟩,
    ⟨wFm 0xC110, wS, _, _, _, session_executes rfl rfl rfl, by decide⟩,
    ⟨wFm 0xC111, mkLoc 0 2 15 15 255, wS, _, _, _, session_executes rfl rfl rfl, by decide⟩⟩

/-- The hypotheses of FramesForwarded are met. -/
theorem met_frames_forwarded :
    (∃ tp f op, Could (.trunkMailboxFrame tp f op) (fun s => (s.tp tp).state = .active ∧ s.glob.pstate = .active ∧ s.glob.hrole = 2 ∧ (s.tp tp).peerIdx = 0 ∧ f.fwd = true ∧ f.xport = .trunk ∧ (∀ x, Tbl.find s.mbx.lastFwd f.sid = some x → ¬ (x.1 = f.tag ∧ x.2.1 = f.seq)))) ∧
    (∃ tp f op x, Could (.trunkMailboxFrame tp f op) (fun s => (s.tp tp).state = .active ∧ s.glob.pstate = .active ∧ s.glob.hrole = 2 ∧ (s.tp tp).peerIdx = 0 ∧ f.fwd = true ∧ f.xport = .trunk ∧ Tbl.find s.mbx.lastFwd f.sid = some x ∧ x.1 = f.tag ∧ x.2.1 = f.seq)) ∧
    (∃ tag w, Could (.forwardResend tag) (fun s => s.mbx.fwds.find? (fun x => x.frame.tag == tag) = some w ∧ w.resends < 3)) ∧
    (∃ tag w, Could (.forwardResend tag) (fun s => s.mbx.fwds.find? (fun x => x.frame.tag == tag) = some w ∧ 3 ≤ w.resends)) ∧
    (∃ tp tag rc data w, Could (.forwardedReply tp tag rc data) (fun s => (s.tp tp).state = .active ∧ s.mbx.fwds.find? (fun x => x.frame.tag == tag && x.frame.dest == (s.tp tp).peerIdx) = some w)) ∧
    (∃ x ep arg, Could (.mctpControl x ep 1 arg) (fun s => s.glob.pstate ≠ .off ∧ (x = .smbus ∨ x = .i3c ∧ s.svc.sbVio = true) ∧ 1 ≤ arg ∧ arg < 255)) ∧
    (∃ x ep arg, Could (.mctpControl x ep 2 arg) (fun s => s.glob.pstate ≠ .off ∧ (x = .smbus ∨ x = .i3c ∧ s.svc.sbVio = true))) ∧
    (∃ f op, Could (.unsupportedOpcode f op) (fun s => s.reachable f op = true)) ∧
    (∃ p op, Could (.cxlMemoryDeviceCommand p op) (fun s => s.isUp p = true ∧ (s.port p).up = true)) :=
  ⟨⟨1, { wF with fwd := true, xport := .trunk }, 0xC101, { wT with glob := { wT.glob with hrole := 2, midx := 1 } }, ⟨by decide, by decide, by decide, by decide, rfl, rfl, fun x h => by cases h⟩⟩,
    ⟨1, { wF with fwd := true, xport := .trunk }, 0xC101, (1, 1, 0, []), { wT with glob := { wT.glob with hrole := 2, midx := 1 }, mbx := { wT.mbx with lastFwd := [(1, (1, 1, 0, []))] } }, by decide⟩,
    ⟨1, wFwd, { wS with mbx := { wS.mbx with fwds := [wFwd] } }, by decide⟩,
    ⟨1, { wFwd with resends := 3 }, { wS with mbx := { wS.mbx with fwds := [{ wFwd with resends := 3 }] } }, by decide⟩,
    ⟨1, 1, 0, [], { wFwd with frame := { wF with dest := 0 } }, { wT with mbx := { wT.mbx with fwds := [{ wFwd with frame := { wF with dest := 0 } }] } }, by decide⟩,
    ⟨.smbus, 3, 8, wS, by decide⟩,
    ⟨.i3c, 3, 8, wS, by decide⟩,
    ⟨wF, 0xC0FF, wS, by decide⟩,
    ⟨0, 0x4000, wP, by decide⟩⟩

/-- The hypotheses of PortCommands are met. -/
theorem met_port_commands :
    (∃ f, Met 0xC200 f (.portMapGet f) (fun _ _ _ => True)) ∧
    (∃ f map, Met 0xC201 f (.portMapCommit f map) (fun _ _ s => map.length = 16 ∧ mapOk s.glob.isMA (mapOf map) = true ∧ s.locked 3 = false ∧ ∀ g ∈ mapDiff s.ports.map (mapOf map), ∀ p ∈ (List.range 4).map (4 * g + ·), s.portBusy p = false)) ∧
    (∃ f port, Met 0xC202 f (.portEnable f port) (fun _ _ s => port < 64 ∧ s.isPort port = true)) ∧
    (∃ f port, Met 0xC203 f (.portDisable f port) (fun _ _ s => port < 64 ∧ s.isPort port = true ∧ s.evacPort port = false)) ∧
    (∃ f port, Met 0xC204 f (.portStatus f port) (fun _ _ s => port < 64 ∧ s.isPort port = true)) ∧
    (∃ f port ds fl us aspm l0p cont, Met 0xC205 f (.portSet f port ds fl us aspm l0p cont) (fun _ _ s => port < 64 ∧ s.isPort port = true ∧ ds.all (fun v => decide (50 ≤ v ∧ v ≤ 64000) && s.isDown port) = true ∧ fl.all (fun v => decide (1 ≤ v ∧ v ≤ 255) && s.isDown port) = true
      ∧ us.all (fun v => decide (1000 ≤ v ∧ v ≤ 256000) && s.isUp port) = true ∧ (s.portSet port ds fl us aspm l0p cont).timeoutsOk = true ∧ (s.portSet port ds fl us aspm l0p cont).gatesOk = true)) ∧
    (∃ f port, Met 0xC208 f (.portReset f port) (fun _ _ s => port < 64 ∧ s.isPort port = true ∧ s.svc.mr = .idle ∧ s.svc.resets.any (fun x => (s.locPorts x.loc).contains port && decide (2 ≤ x.loc.level)) = false)) :=
  ⟨⟨wFm 0xC200, wP, _, _, _, session_executes rfl rfl rfl, by decide⟩,
    ⟨wFm 0xC201, 0x4C000FFC#32 :: 0 :: 0x80000FFC#32 :: List.replicate 13 0, wS, _, _, _, session_executes rfl rfl rfl, by decide⟩,
    ⟨wFm 0xC202, 0, wP, _, _, _, session_executes rfl rfl rfl, by decide⟩,
    ⟨wFm 0xC203, 4, wP, _, _, _, session_executes rfl rfl rfl, by decide⟩,
    ⟨wFm 0xC204, 0, wP, _, _, _, session_executes rfl rfl rfl, by decide⟩,
    ⟨wFm 0xC205, 4, some 5000, some 255, none, some true, none, none, wP, _, _, _, session_executes rfl rfl rfl, by decide⟩,
    ⟨wFm 0xC208, 4, wP, _, _, _, session_executes rfl rfl rfl, by decide⟩⟩

/-- The hypotheses of LanesAndBlocks are met. -/
theorem met_lanes_and_blocks :
    (∃ f loc whole val, Met 0xC206 f (.portEqSet f loc whole val) (fun _ _ s => s.locExists loc = true ∧ laneShape loc = true ∧ (loc.clu = 6 ∨ s.eqLanes loc whole ≠ []))) ∧
    (∃ f loc, Met 0xC207 f (.portEqStatus f loc) (fun _ _ s => s.locExists loc = true ∧ laneShape loc = true)) ∧
    (∃ f loc reg v, Met 0xC209 f (.portBlockRead f loc reg) (fun _ _ s => s.locExists loc = true ∧ s.blockRead loc reg = some v)) ∧
    (∃ f loc reg val v, Met 0xC20A f (.portBlockWrite f loc reg val) (fun _ _ s => s.locExists loc = true ∧ s.blockRead loc reg = some v ∧ (loc.clu = 6 → reg = 1 → 10 ≤ bits val 9 0 ∧ bits val 9 0 ≤ 1000)
      ∧ (loc.clu = 6 → reg = 0 → (s.modTp loc.k (fun x => { x with ctl := trunkCtlWrite val })).timeoutsOk = true))) :=
  ⟨⟨wFm 0xC206, mkLoc 0 0 0 0 0, true, 0, wP, _, _, _, session_executes rfl rfl rfl, by decide⟩,
    ⟨wFm 0xC207, mkLoc 0 0 0 0 0, wP, _, _, _, session_executes rfl rfl rfl, by decide⟩,
    ⟨wFm 0xC209, mkLoc 0 0 0 7 4, 0, _, wP, _, _, _, session_executes rfl rfl rfl, ⟨by decide, rfl⟩⟩,
    ⟨wFm 0xC20A, mkLoc 0 0 0 7 4, 0, 0x60007100, _, wP, _, _, _, session_executes rfl rfl rfl, ⟨by decide, rfl, fun h => by revert h; decide, fun h => by revert h; decide⟩⟩⟩

/-- The hypotheses of PartnerCommands are met. -/
theorem met_partner_commands :
    (∃ f, Met 0xC301 f (.partnerList f) (fun _ _ _ => True)) ∧
    (∃ f count, Met 0xC302 f (.partnerEventGet f count) (fun _ _ s => s.pool.evLost = none)) ∧
    (∃ f count n q t, Met 0xC302 f (.partnerEventGet f count) (fun _ _ s => s.pool.evLost = some (n, q, t) ∧ 1 ≤ count)) ∧
    (∃ f port timer snoop auto, Met 0xC303 f (.partnerSet f port timer snoop auto) (fun _ _ s => (port < 64 ∨ (0x40 ≤ port ∧ port ≤ 0x47)) ∧ timer.all (fun v => decide (100 ≤ v ∧ v ≤ 60000)) = true ∧ snoop.all (fun v => decide (1000 ≤ v ∧ v ≤ 256000)) = true
      ∧ (s.partnerSet port timer snoop auto).timeoutsOk = true ∧ (s.partnerSet port timer snoop auto).gatesOk = true)) ∧
    (∃ f port x, Met 0xC304 f (.partnerRelease f port) (fun _ _ s => s.partner port = some x ∧ x.leaving = false ∧ x.timerEnd.isSome = true)) ∧
    (∃ f port ch share stall passes mask x, Met 0xC310 f (.evacuatePartner f port ch share stall passes mask) (fun _ _ s => s.partner port = some x ∧ x.timerEnd = none ∧ x.leaving = false ∧ s.opRunning 3 = false ∧ x.kind = 3 ∧ ch ≤ 63 ∧ share ≤ 255
      ∧ (stall = 0 ∨ (16 ≤ stall ∧ stall ≤ 1024)) ∧ (passes = 0 ∨ (2 ≤ passes ∧ passes ≤ 32)) ∧ s.extsOf port (fun st => st == .carve) = [] ∧ (s.chan ch).slice = none ∧ (s.chan ch).fwJob = false
      ∧ (s.evacTodo port).length ≤ (s.pool.ext.filter (fun e => e.2.state == .free && e.2.port != port && (mask == 0 || bit mask e.2.port))).length)) :=
  ⟨⟨wFm 0xC301, wP, _, _, _, session_executes rfl rfl rfl, by decide⟩,
    ⟨wFm 0xC302, 3, wP, _, _, _, session_executes rfl rfl rfl, by decide⟩,
    ⟨wFm 0xC302, 3, 1, 2, 3, { wP with pool := { wP.pool with evLost := some (1, 2, 3) } }, _, _, _, session_executes rfl rfl rfl, by decide⟩,
    ⟨wFm 0xC303, 4, some 60000, none, some true, wP, _, _, _, session_executes rfl rfl rfl, by decide⟩,
    ⟨wFm 0xC304, 4, { wExp with timerEnd := some 9 }, { wP with pool := { wP.pool with partner := [(0, wHost), (4, { wExp with timerEnd := some 9 })] } }, _, _, _, session_executes rfl rfl rfl, by decide⟩,
    ⟨wFm 0xC310, 4, 3, 255, 0, 32, 0, wExp, { wP with pool := { wP.pool with ext := [(0, wExt), (9, { state := .free, port := 8 })] } }, _, _, _, session_executes rfl rfl rfl, by decide⟩⟩

/-- The hypotheses of EvacuationSteps are met. -/
theorem met_evacuation_steps :
    (∃ v, Could (.evacPassDone v.e) (fun s => s.pool.evac = some v ∧ v.step = 2 ∧ (s.emit (.evacCopy v.e v.f v.pages)).evacHarvest.1.length ≤ s.stallLimit v)) ∧
    (∃ v, Could (.evacPassDone v.e) (fun s => s.pool.evac = some v ∧ v.step = 2 ∧ s.stallLimit v < (s.emit (.evacCopy v.e v.f v.pages)).evacHarvest.1.length ∧ v.pass + 1 < (if v.maxPasses = 0 then 8 else v.maxPasses))) ∧
    (∃ v, Could (.evacPassDone v.e) (fun s => s.pool.evac = some v ∧ v.step = 2 ∧ s.stallLimit v < (s.emit (.evacCopy v.e v.f v.pages)).evacHarvest.1.length ∧ (if v.maxPasses = 0 then 8 else v.maxPasses) ≤ v.pass + 1)) ∧
    (∃ v, Could (.evacStallDrained v.e) (fun s => s.pool.evac = some v ∧ v.step = 4 ∧ s.evacBusy v = false)) ∧
    (∃ v o, Could (.evacFinalPassDone) (fun s => s.pool.evac = some v ∧ v.step = 5 ∧ Tbl.find s.mbx.ops 3 = some o)) ∧
    (∃ v, Could (.evacStallGuard) (fun s => s.pool.evac = some v ∧ 4 ≤ v.step ∧ v.guards = 0)) ∧
    (∃ v, Could (.evacStallGuard) (fun s => s.pool.evac = some v ∧ 4 ≤ v.step ∧ 1 ≤ v.guards)) :=
  ⟨⟨{ wEvac with step := 2 }, { wP with pool := { wP.pool with evac := some { wEvac with step := 2 } } }, by decide⟩,
    ⟨{ wEvac with step := 2, stallPages := 16 }, wEvDirty 0, by decide⟩,
    ⟨{ wEvac with step := 2, pass := 7, stallPages := 16 }, wEvDirty 7, by decide⟩,
    ⟨{ wEvac with step := 4 }, { wP with pool := { wP.pool with evac := some { wEvac with step := 4 } } }, by decide⟩,
    ⟨{ wEvac with step := 5 }, wOp, { wP with mbx := { wP.mbx with ops := [(3, wOp)] }, pool := { wP.pool with evac := some { wEvac with step := 5 } } }, by decide⟩,
    ⟨{ wEvac with step := 5 }, { wP with pool := { wP.pool with evac := some { wEvac with step := 5 } } }, by decide⟩,
    ⟨{ wEvac with step := 4, guards := 1 }, { wP with pool := { wP.pool with evac := some { wEvac with step := 4, guards := 1 } } }, by decide⟩⟩

/-- The hypotheses of BindCommands are met. -/
theorem met_bind_commands :
    (∃ f host es, Met 0xC401 f (.bindAdd f host es) (fun _ _ s => s.hostCheck host = none ∧ s.leaving = false ∧ s.decodes = true ∧ (∀ b ∈ es, s.bindShape (((s.hostPort host).bind s.partner).map (fun x => x.kind) |>.getD 1) b = true ∧ (b.home = 15 ∨ b.home = s.glob.midx)) ∧ s.bindFree host es = true
      ∧ (s.entsOf host).length + es.length ≤ 512 ∧ s.homeCheck (reqExts s.glob.midx es) = none)) ∧
    (∃ f host es, Met 0xC401 f (.bindAdd f host es) (fun _ _ s => s.hostCheck host = none ∧ s.leaving = false ∧ s.decodes = true ∧ (∀ b ∈ es, s.bindShape (((s.hostPort host).bind s.partner).map (fun x => x.kind) |>.getD 1) b = true) ∧ s.bindFree host es = true
      ∧ (s.entsOf host).length + es.length ≤ 512 ∧ s.opRunning 11 = false ∧ (∃ b ∈ es, b.home ≠ 15 ∧ b.home ≠ s.glob.midx)
      ∧ (∀ b ∈ es, b.home = 15 ∨ b.home = s.glob.midx ∨ (s.hier.members.any (fun x => x.idx == b.home) = true ∧ s.hier.lost.contains b.home = false)) ∧ s.homeCheck (reqExts s.glob.midx es) = none)) ∧
    (∃ f host n e, Met 0xC402 f (.bindRelease f host n false) (fun _ _ s => s.hostCheck host = none ∧ n < 512 ∧ Tbl.find s.pool.ent (512 * host + n) = some e ∧ e.state = .valid ∧ ((s.hostPort host).bind s.partner).any (fun x => x.kind == 2) = false)) ∧
    (∃ f host n e, Met 0xC402 f (.bindRelease f host n true) (fun _ _ s => s.hostCheck host = none ∧ n < 512 ∧ Tbl.find s.pool.ent (512 * host + n) = some e ∧ (e.state = .valid ∨ e.state = .releasePending) ∧ ((s.hostPort host).bind s.partner).any (fun x => x.kind == 2) = false)) ∧
    (∃ f host, Met 0xC403 f (.bindTableGet f host) (fun _ _ s => (s.hostPort host).isSome = true)) ∧
    (∃ f port ld host bridge x, Met 0xC404 f (.bindPassthru f ⟨port, ld⟩ host bridge) (fun _ _ s => s.hostCheck host = none ∧ s.partner port = some x ∧ x.timerEnd = none ∧ x.leaving = false ∧ s.decodes = true ∧ x.kind = 5 ∧ ld < x.lds ∧ s.isSwitch host = true ∧ 1 ≤ bridge ∧ bridge ≤ 15 ∧ Tbl.find s.pool.bridge (16 * host + bridge) = none ∧ s.pool.bridge.any (fun b => b.2 == port + 64 * ld) = false)) :=
  ⟨⟨wFm 0xC401, 0, [{ hoffExt := 4, home := 0, fext := 1, nm1 := 0, access := 3, dcr := 0 }], wP, _, _, _, session_executes rfl rfl rfl, by decide⟩,
    ⟨wFm 0xC401, 0, [{ hoffExt := 4, home := 1, fext := 1, nm1 := 0, access := 3, dcr := 0 }], { wP with hier := { wP.hier with members := [{ idx := 0, serial := 0 }, { idx := 1, serial := 5 }] } }, _, _, _, session_executes rfl rfl rfl, by decide⟩,
    ⟨wFm 0xC402, 0, 0, wEnt, wP, _, _, _, session_executes rfl rfl rfl, by decide⟩,
    ⟨wFm 0xC402, 0, 0, wEnt, wP, _, _, _, session_executes rfl rfl rfl, by decide⟩,
    ⟨wFm 0xC403, 0, wP, _, _, _, session_executes rfl rfl rfl, by decide⟩,
    ⟨wFm 0xC404, 4, 0, 0, 15, { wExp with kind := 5 }, { wP with pool := { wP.pool with partner := [(0, wHost), (4, { wExp with kind := 5 })] } }, _, _, _, session_executes rfl rfl rfl, by decide⟩⟩

/-- The hypotheses of BindEvents are met. -/
theorem met_bind_events :
    (∃ host acc dec, Could (.addDynamicCapacityResponse host acc dec) (fun s => s.hostLive host = true)) ∧
    (∃ host n, Could (.dcAddTimeout host n) (fun s => s.entState host n = some .addPending ∧ n < 512)) ∧
    (∃ host n, Could (.releaseDynamicCapacity host n) (fun s => s.entState host n = some .releasePending ∧ n < 512)) ∧
    (∃ host n, Could (.dcReleaseTimeout host n) (fun s => s.entState host n = some .releasePending ∧ n < 512)) ∧
    (∃ host n, Could (.bindingRemovalDone host n) (fun s => s.entState host n = some .removing ∧ n < 512 ∧ s.removeQuiet host n = true ∧ s.pool.forced.find? (fun x => x.1 == host && x.2.1 == n) = none)) ∧
    (∃ host n x, Could (.bindingRemovalDone host n) (fun s => s.entState host n = some .removing ∧ n < 512 ∧ s.removeQuiet host n = true ∧ s.pool.forced.find? (fun x => x.1 == host && x.2.1 == n) = some x)) :=
  ⟨⟨0, [0], [], { wP with pool := { wP.pool with ent := [(0, { wEnt with state := .addPending })] } }, by decide⟩,
    ⟨0, 0, { wP with pool := { wP.pool with ent := [(0, { wEnt with state := .addPending })] } }, by decide⟩,
    ⟨0, 0, { wP with pool := { wP.pool with ent := [(0, { wEnt with state := .releasePending })] } }, by decide⟩,
    ⟨0, 0, { wP with pool := { wP.pool with ent := [(0, { wEnt with state := .releasePending })] } }, by decide⟩,
    ⟨0, 0, { wP with pool := { wP.pool with ent := [(0, { wEnt with state := .removing })] } }, by decide⟩,
    ⟨0, 0, (0, 0, wF), { wP with pool := { wP.pool with ent := [(0, { wEnt with state := .removing })], forced := [(0, 0, wF)] } }, by decide⟩⟩

/-- The hypotheses of PoolCommands are met. -/
theorem met_pool_commands :
    (∃ f port, Met 0xC501 f (.poolAddPartner f port) (fun _ _ s => s.expanderCheck port = none ∧ s.decodes = true ∧ s.opRunning 5 = false ∧ s.pool.adding.any (fun a => a.1 == port) = false ∧ s.addable port ≠ 0)) ∧
    (∃ ext, Could (.scrubDone ext) (fun s => (s.ext ext).state = .scrub)) ∧
    (∃ f, Met 0xC502 f (.poolStatus f) (fun _ _ _ => True)) ∧
    (∃ f ext count, Met 0xC503 f (.poolExtentRevalidate f ext count) (fun _ _ s => 1 ≤ count ∧ ext + count ≤ 65536 ∧ (∀ e ∈ named ext count, (s.partner (s.ext e).port).any (fun p => p.timerEnd.isSome || p.leaving) = false) ∧ (∀ e ∈ named ext count, (s.ext e).state = .suspect))) ∧
    (∃ f ext count, Met 0xC504 f (.poolExtentRelease f ext count) (fun _ _ s => 1 ≤ count ∧ ext + count ≤ 65536 ∧ s.opRunning 5 = false ∧ (∀ e ∈ named ext count, (s.ext e).state = .suspect ∨ (s.ext e).state = .failed))) ∧
    (∃ f m count es, Met 0xC505 f (.poolAlloc f m count) (fun _ _ s => m = s.glob.midx ∧ 1 ≤ count ∧ s.reserve count = some es)) ∧
    (∃ f module count, Met 0xC505 f (.poolAlloc f module count) (fun _ _ s => module ≠ s.glob.midx ∧ module ≤ 8 ∧ 1 ≤ count ∧ s.hier.members.any (fun x => x.idx == module) = true ∧ s.hier.lost.contains module = false)) ∧
    (∃ f base size high low en, Met 0xC506 f (.poolSpillSet f base size high low en) (fun _ _ s => base + size ≤ 65536 ∧ (4 ≤ size ∨ size = 0 ∧ en = false) ∧ size ≤ 255 ∧ 50 ≤ high ∧ high ≤ 95 ∧ 10 ≤ low ∧ low + 10 ≤ high ∧ (∀ e ∈ named base size, ((s.ext e).state = .free ∨ (s.ext e).state = .carve) ∧ (s.ext e).port = (s.ext base).port
      ∧ (s.partner (s.ext e).port).any (fun p => p.timerEnd.isSome || p.leaving) = false) ∧ (s.xbar.spillQ = [] ∨ (size ≠ 0 ∧ base = s.carveExt ∧ size = bits s.xbar.spillCtl.toNat 39 32)))) ∧
    (∃ f base high low, Met 0xC506 f (.poolSpillSet f base 0 high low false) (fun _ _ s => base ≤ 65536 ∧ 50 ≤ high ∧ high ≤ 95 ∧ 10 ≤ low ∧ low + 10 ≤ high ∧ s.xbar.spillQ ≠ [])) ∧
    (∃ tp ext count, Could (.homeModuleRequest tp 0 ext count) (fun s => (s.tp tp).state = .active ∧ s.leaving = false ∧ s.homeCheck (named ext count) = none)) ∧
    (∃ tp ext count es, Could (.homeModuleRequest tp 2 ext count) (fun s => (s.tp tp).state = .active ∧ s.leaving = false ∧ s.reserve count = some es)) :=
  ⟨⟨wFm 0xC501, 4, wAdd, _, _, _, session_executes rfl rfl rfl, by decide⟩,
    ⟨4, { wP with pool := { wP.pool with ext := [(4, { wExt with state := .scrub })] } }, by decide⟩,
    ⟨wFm 0xC502, wP, _, _, _, session_executes rfl rfl rfl, by decide⟩,
    ⟨wFm 0xC503, 3, 1, wP, _, _, _, session_executes rfl rfl rfl, by decide⟩,
    ⟨wFm 0xC504, 3, 1, wP, _, _, _, session_executes rfl rfl rfl, by decide⟩,
    ⟨wFm 0xC505, 0, 1, [1], wP, _, _, _, session_executes rfl rfl rfl, by decide⟩,
    ⟨wFm 0xC505, 1, 1, { wP with hier := { wP.hier with members := [{ idx := 0, serial := 0 }, { idx := 1, serial := 5 }] } }, _, _, _, session_executes rfl rfl rfl, by decide⟩,
    ⟨wFm 0xC506, 16, 4, 95, 10, true, { wP with pool := { wP.pool with ext := [(16, wFreeExt), (17, wFreeExt), (18, wFreeExt), (19, wFreeExt)] } }, _, _, _, session_executes rfl rfl rfl, by decide⟩,
    ⟨wFm 0xC506, 0, 95, 10, { wP with xbar := { wP.xbar with spillQ := [(0, 0, wBlk)] } }, _, _, _, session_executes rfl rfl rfl, ⟨by decide, by decide, by decide, by decide, by decide, by decide⟩⟩,
    ⟨1, 1, 1, { wT with pool := wP.pool }, by decide⟩,
    ⟨1, 0, 1, [1], { wT with pool := wP.pool }, by decide⟩⟩

/-- The hypotheses of SliceLife are met. -/
theorem met_slice_life :
    (∃ f host pasid n, Met 0xC601 f (.sliceCreate f host pasid) (fun _ _ s => s.hostCheck host = none ∧ pasid ≠ 0 ∧ pasid < 2 ^ 20 ∧ s.sliceKey host pasid = none ∧ s.sliceFull = false ∧ s.freeSlice = some n)) ∧
    (∃ f sl0 mask uc x, Met 0xC602 f (.sliceSet f sl0 mask uc) (fun _ _ s => s.slice sl0 = some x ∧ s.hostCheck x.host = none ∧ mask.all (fun m => ! s.maskBad sl0 x m && x.log.isNone) = true)) ∧
    (∃ f sl0 x, Met 0xC603 f (.sliceDestroy f sl0) (fun _ _ s => s.slice sl0 = some x ∧ x.pasid ≠ 0 ∧ s.sliceHolds sl0 x = false)) ∧
    (∃ f sl0 x, Met 0xC604 f (.sliceStatus f sl0) (fun r sl s => s.slice sl0 = some x ∧ (r = 4 → sl = sl0))) ∧
    (∃ f sl0 x, Met 0xC613 f (.sliceCounterClear f sl0) (fun r sl s => s.slice sl0 = some x ∧ (r = 4 → sl = sl0 ∧ x.userCnt = true))) ∧
    (∃ f sl0 win area x, Met 0xC609 f (.sliceWindowSet f sl0 win area) (fun _ _ s => s.slice sl0 = some x ∧ win.all (fun w => s.windowOk sl0 x w) = true ∧ area.all (fun a => decide (a % 4096 = 0) && s.sliceRange sl0 a 4096) = true)) :=
  ⟨⟨wFm 0xC601, 0, 77, 2, wL, _, _, _, session_executes rfl rfl rfl, by decide⟩,
    ⟨wFm 0xC602, 1, some [0], some true, wSl, wL, _, _, _, session_executes rfl rfl rfl, by decide⟩,
    ⟨wFm 0xC603, 1, wSl, wL, _, _, _, session_executes rfl rfl rfl, by decide⟩,
    ⟨wFm 0xC604, 1, wSl, wL, _, _, _, session_executes rfl rfl rfl, by decide⟩,
    ⟨wFm 0xC613, 1, wSl, wL, _, _, _, session_executes rfl rfl rfl, by decide⟩,
    ⟨wFm 0xC609, 1, none, some 4096, wSl, wL, _, _, _, session_executes rfl rfl rfl, by decide⟩⟩

/-- The hypotheses of SliceFreezeAndSave are met. -/
theorem met_slice_freeze_and_save :
    (∃ f sl0 x, Met 0xC605 f (.sliceFreeze f sl0) (fun _ _ s => s.slice sl0 = some x ∧ x.state = .frozen)) ∧
    (∃ f sl0 x, Met 0xC605 f (.sliceFreeze f sl0) (fun _ _ s => s.slice sl0 = some x ∧ x.state ≠ .frozen)) ∧
    (∃ f sl0 x, Met 0xD041 f (.sliceFreezeV1 f sl0) (fun _ _ s => s.slice sl0 = some x ∧ x.state ≠ .frozen)) ∧
    (∃ f sl0 x, Met 0xC606 f (.sliceThaw f sl0) (fun _ _ s => s.slice sl0 = some x ∧ x.state ≠ .freezing)) ∧
    (∃ f sl0 x, Met 0xD044 f (.sliceThawV1 f sl0) (fun _ _ s => s.slice sl0 = some x ∧ x.state ≠ .freezing)) ∧
    (∃ f sl0 own addr, Met 0xC607 f (.sliceSave f sl0 own addr) (fun _ _ s => s.saveCheck sl0 (some own) addr = none)) ∧
    (∃ f sl0 own addr, Met 0xD042 f (.sliceSaveV1 f sl0 addr) (fun _ _ s => s.callerSlice f = some own ∧ s.saveCheck sl0 (some own) addr = none)) ∧
    (∃ f host pasid addr chmap img n, Met 0xC608 f (.sliceRestore f host pasid addr chmap img) (fun _ _ s => s.restoreCheck host pasid addr (some chmap) img = none ∧ s.freeSlice = some n)) ∧
    (∃ f host pasid addr img n, Met 0xD043 f (.sliceRestoreV1 f host pasid addr img) (fun _ _ s => s.restoreCheck host pasid addr none img = none ∧ s.freeSlice = some n)) :=
  ⟨⟨wFm 0xC605, 1, { wSl with state := .frozen }, { wL with slices := [(1, { wSl with state := .frozen })] }, _, _, _, session_executes rfl rfl rfl, by decide⟩,
    ⟨wFm 0xC605, 1, wSl, wL, _, _, _, session_executes rfl rfl rfl, by decide⟩,
    ⟨wFm 0xD041, 1, wSl, wL, _, _, _, session_executes rfl rfl rfl, by decide⟩,
    ⟨wFm 0xC606, 1, wSl, wL, _, _, _, session_executes rfl rfl rfl, by decide⟩,
    ⟨wFm 0xD044, 1, wSl, wL, _, _, _, session_executes rfl rfl rfl, by decide⟩,
    ⟨wFm 0xC607, 1, 0, 0x10000, { wL with slices := [(0, wSl0), (1, { wSl with state := .frozen })] }, _, _, _, session_executes rfl rfl rfl, by decide⟩,
    ⟨wFv 0xD042, 1, 0, 0x10000, { wL with slices := [(0, wSl0), (1, { wSl with state := .frozen })], mbx := { wL.mbx with sessions := [{ wSes with xport := .cxl, ep := 0 }] } }, _, _, _, session_executes rfl rfl rfl, by decide⟩,
    ⟨wFm 0xC608, 0, 9, 0x10000, [], wImg, 2, wL, _, _, _, session_executes rfl rfl rfl, by decide⟩,
    ⟨wFm 0xD043, 0, 9, 0x10000, wImg, 2, wL, _, _, _, session_executes rfl rfl rfl, by decide⟩⟩

/-- The hypotheses of DirtyLogs are met. -/
theorem met_dirty_logs :
    (∃ f sl0 own b0 b1 x y, Met 0xC610 f (.logStart f sl0 own b0 b1) (fun _ _ s => s.slice sl0 = some x ∧ s.slice own = some y ∧ x.log = none ∧ b0 % 4096 = 0 ∧ b1 % 4096 = 0 ∧ s.sliceRange own b0 (logBytes (s.sliceExts sl0).length) = true ∧ s.sliceRange own b1 (logBytes (s.sliceExts sl0).length) = true)) ∧
    (∃ f sl0 zero rcl g, Met 0xC611 f (.logHarvest f sl0 zero rcl) (fun _ _ s => (s.slice sl0).bind (fun x => x.log) = some g)) ∧
    (∃ f sl0 x g, Met 0xC612 f (.logStop f sl0) (fun _ _ s => s.slice sl0 = some x ∧ x.log = some g)) :=
  ⟨⟨wFm 0xC610, 1, 0, 0, 0x10000, wSl, wSl0, wL, _, _, _, session_executes rfl rfl rfl, by decide⟩,
    ⟨wFm 0xC611, 1, true, true, wLog, { wL with slices := [(0, wSl0), (1, { wSl with log := some wLog })] }, _, _, _, session_executes rfl rfl rfl, by decide⟩,
    ⟨wFm 0xC612, 1, { wSl with log := some wLog }, wLog, { wL with slices := [(0, wSl0), (1, { wSl with log := some wLog })] }, _, _, _, session_executes rfl rfl rfl, by decide⟩⟩

/-- The hypotheses of SliceChannels are met. -/
theorem met_slice_channels :
    (∃ f sl0 qb ql pb pl vec x, Met 0xC60A f (.sliceChanSet f sl0 qb ql pb pl vec) (fun _ _ s => s.slice sl0 = some x ∧ x.chan = none ∧ s.chanRing sl0 qb ql = true ∧ s.chanRing sl0 pb pl = true ∧ vec ≤ 2047)) ∧
    (∃ f sl0 c, Met 0xC60B f (.sliceChanGet f sl0) (fun _ _ s => s.schan sl0 = some c)) ∧
    (∃ f sl0 tag st len pay c p, Met 0xC60C f (.sliceChanPut f sl0 tag st len pay) (fun _ _ s => s.schan sl0 = some c ∧ c.peers.find? (fun p => p.1 == tag) = some p ∧ len ≤ 240 ∧ pay.length = len)) ∧
    (∃ sl0 tail c, Could (.schReqDb sl0 tail) (fun s => s.running = true ∧ s.schan sl0 = some c ∧ tail < 2 ^ c.reqLog)) ∧
    (∃ sl0 head c, Could (.schRepDb sl0 head) (fun s => s.running = true ∧ s.schan sl0 = some c ∧ head < 2 ^ c.repLog ∧ (head + 2 ^ c.repLog - c.repHead) % 2 ^ c.repLog + c.peers.length + c.zornes.length ≤ c.repUsed)) ∧
    (∃ sl0 ph cls op tag len pay x c, Could (.sliceChannelRequest sl0 ph cls op tag len pay) (fun s => s.glob.pstate = .active ∧ s.slice sl0 = some x ∧ x.state = .active ∧ s.schan sl0 = some c ∧ c.zornes = [] ∧ c.reqHead ≠ c.reqTail ∧ c.repUsed < 2 ^ c.repLog ∧ ph = c.reqPhase ∧ len ≤ 240)) ∧
    (∃ sl0 ph cls op tag len pay x c, Could (.sliceChannelRequest sl0 ph cls op tag len pay) (fun s => s.glob.pstate = .active ∧ s.slice sl0 = some x ∧ x.state = .active ∧ s.schan sl0 = some c ∧ c.zornes = [] ∧ c.reqHead ≠ c.reqTail ∧ c.repUsed < 2 ^ c.repLog ∧ (ph ≠ c.reqPhase ∨ 240 < len))) :=
  ⟨⟨wFm 0xC60A, 1, 0, 4, 0x10000, 4, 2047, wSl, wL, _, _, _, session_executes rfl rfl rfl, by decide⟩,
    ⟨wFm 0xC60B, 1, wChan, wC, _, _, _, session_executes rfl rfl rfl, by decide⟩,
    ⟨wFm 0xC60C, 1, 5, 0, 0, [], wChan, (5, 6, []), wC, _, _, _, session_executes rfl rfl rfl, by decide⟩,
    ⟨1, 15, wChan, wC, by decide⟩,
    ⟨1, 1, wChan, wC, by decide⟩,
    ⟨1, true, true, 0xC101, 9, 240, [], { wSl with chan := some wChan }, wChan, wC, by decide⟩,
    ⟨1, true, false, 0xC101, 9, 241, [], { wSl with chan := some wChan }, wChan, wC, by decide⟩⟩

/-- The hypotheses of DmaAdmin are met. -/
theorem met_dma_admin :
    (∃ f ch sl0 prio share wdog, Met 0xC701 f (.dmaChSet f ch sl0 prio share wdog) (fun _ _ s => chanOk ch = true ∧ (∀ n, sl0 = some n → n = 0x1FF ∨ (s.slice n).isSome = true) ∧ prio.all (fun n => decide (n ≤ 7)) = true ∧ share.all (fun n => decide (n ≤ 255)) = true ∧ wdog.all (fun n => decide (n ≤ 60000)) = true
      ∧ s.chanHeld ch = false ∧ s.notActive (s.chan ch).slice = false ∧ s.notActive (sl0.bind (fun n => if n = 0x1FF then none else some n)) = false ∧ s.ringsOfCh ch = [])) ∧
    (∃ f ring ch slot sb sl0 cq cb cl vec, Met 0xC702 f (.dmaRingAssign f ring ch slot sb sl0 cq cb cl vec) (fun _ _ s => s.ringCheck ring ch slot sb sl0 cq cb cl vec = none ∧ s.ringsOfCq cq = [])) ∧
    (∃ f ring ch slot sb sl0 cq cb cl vec, Met 0xC702 f (.dmaRingAssign f ring ch slot sb sl0 cq cb cl vec) (fun _ _ s => s.ringCheck ring ch slot sb sl0 cq cb cl vec = none ∧ s.ringsOfCq cq ≠ [])) ∧
    (∃ f ring, Met 0xC703 f (.dmaRingRelease f ring) (fun _ _ s => ring ≤ 255 ∧ (s.ring ring).state = .off ∧ s.ringIdle ring = true)) ∧
    (∃ f sl0, Met 0xC704 f (.dmaStatus f sl0) (fun r sl s => (r = 4 → sl = sl0) ∧ (sl0 = 0x1FF ∨ (s.slice sl0).isSome = true))) ∧
    (∃ f win, Met 0xC705 f (.dmaAliasSet f win none) (fun _ _ s => s.aliasCheck win none = none)) ∧
    (∃ f win d, Met 0xC705 f (.dmaAliasSet f win (some d)) (fun _ _ s => s.aliasCheck win (some d) = none ∧ aliasFar s.glob.midx d = [])) ∧
    (∃ f win d, Met 0xC705 f (.dmaAliasSet f win (some d)) (fun _ _ s => s.aliasCheck win (some d) = none ∧ aliasFar s.glob.midx d ≠ [])) ∧
    (∃ f win d, Met 0xC706 f (.dmaAliasStatus f win) (fun _ _ s => win ≤ 15 ∧ (s.win win).dfn = some d)) :=
  ⟨⟨wFm 0xC701, 5, some 1, some 7, some 255, some 60000, wL, _, _, _, session_executes rfl rfl rfl, ⟨by decide, fun n h => by cases h; exact Or.inr (by decide), by decide⟩⟩,
    ⟨wFm 0xC702, 200, 3, 5, 0x20000, 4, 200, 0x30000, 4, 9, wD, _, _, _, session_executes rfl rfl rfl, by decide⟩,
    ⟨wFm 0xC702, 200, 3, 5, 0x20000, 4, 7, 0x4000, 4, 9, wD, _, _, _, session_executes rfl rfl rfl, by decide⟩,
    ⟨wFm 0xC703, 7, { wD with dma := { wD.dma with ring := [(7, { wRing with state := .off })] } }, _, _, _, session_executes rfl rfl rfl, by decide⟩,
    ⟨wFm 0xC704, 1, wD, _, _, _, session_executes rfl rfl rfl, by decide⟩,
    ⟨wFm 0xC705, 2, wW, _, _, _, session_executes rfl rfl rfl, by decide⟩,
    ⟨wFm 0xC705, 3, wDef, wD, _, _, _, session_executes rfl rfl rfl, by decide⟩,
    ⟨wFm 0xC705, 3, { wDef with homeA := 1 }, wDH, _, _, _, session_executes rfl rfl rfl, by decide⟩,
    ⟨wFm 0xC706, 2, wDef, wW, _, _, _, session_executes rfl rfl rfl, by decide⟩⟩

/-- The hypotheses of DmaDoorbells are met. -/
theorem met_dma_doorbells :
    (∃ ring tail, Could (.dmaSqDb ring tail) (fun s => s.running = true ∧ ring < 256)) ∧
    (∃ ring head, Could (.dmaCqDb ring head) (fun s => s.running = true ∧ ring < 256)) ∧
    (∃ ring en, Could (.dmaRingCtlEn ring en) (fun s => s.running = true ∧ ring < 256)) ∧
    (∃ ring, Could (.dmaRingCtlAbort ring) (fun s => s.running = true ∧ ring < 256)) ∧
    (∃ ch stop, Could (.chStop ch stop) (fun s => s.running = true ∧ chanOk ch = true)) ∧
    (∃ ring, Could (.drainDone ring) (fun s => ring < 256 ∧ (s.ring ring).state = .drain ∧ s.begunOf ring = [] ∧ (s.drainList ring = [] ∨ 0 < (s.cring (s.ring ring).cq).free))) :=
  ⟨⟨255, 65535, wD, by decide⟩,
    ⟨0, 0, wD, by decide⟩,
    ⟨7, true, wD, by decide⟩,
    ⟨7, wD, by decide⟩,
    ⟨3, true, wD, by decide⟩,
    ⟨7, { wD with dma := { wD.dma with ring := [(7, { wRing with state := .drain })] } }, by decide⟩⟩

/-- The hypotheses of DmaDescriptors are met. -/
theorem met_dma_descriptors :
    (∃ ch ring i n a, Could (.descriptorFetch ch ring i) (fun s => (s.ring ring).fetch = i ∧ s.chRuns ch = true ∧ s.chActive ch = true ∧ (s.ring ring).state = .run ∧ (s.ring ring).ch = ch ∧ ring < 256 ∧ (s.chan ch).pre.length + (s.chan ch).fetching.length < 1920 ∧ (s.chan ch).fetching.any (fun y => y.1 == ring) = false ∧ 0 < (s.ring ring).posted ∧ (s.chan ch).slice = some n ∧ s.sliceFpa n ((s.ring ring).base + 64 * (s.ring ring).fetch) = some a)) ∧
    (∃ ch n g, Could (.descriptorBegin ch) (fun s => s.chRuns ch = true ∧ s.chActive ch = true ∧ (s.chan ch).stop = false ∧ (s.chan ch).cur = none ∧ s.nextRing ch = some n ∧ (s.chan ch).pre.find? (fun e => e.ring == n) = some g)) ∧
    (∃ ch b, Could (.descriptorComplete ch) (fun s => s.running = true ∧ s.nextDone ch = some b)) ∧
    (∃ ch b, Could (.nop ch) (fun s => s.running = true ∧ s.nextDone ch = some b ∧ dOpcode b.desc = 0)) ∧
    (∃ ch b, Could (.fence ch) (fun s => s.running = true ∧ s.nextDone ch = some b ∧ dOpcode b.desc = 6)) ∧
    (∃ ch b n, Could (.copy ch) (fun s => s.chRuns ch = true ∧ (s.chan ch).cur = some b ∧ dOpcode b.desc = 1 ∧ b.canForm = true ∧ (s.chan ch).slice = some n)) ∧
    (∃ ch b n, Could (.fill ch) (fun s => s.chRuns ch = true ∧ (s.chan ch).cur = some b ∧ dOpcode b.desc = 2 ∧ b.canForm = true ∧ (s.chan ch).slice = some n)) ∧
    (∃ ch b n, Could (.check ch) (fun s => s.chRuns ch = true ∧ (s.chan ch).cur = some b ∧ dOpcode b.desc = 3 ∧ b.canForm = true ∧ (s.chan ch).slice = some n)) ∧
    (∃ ch b n, Could (.atomic ch) (fun s => s.chRuns ch = true ∧ (s.chan ch).cur = some b ∧ dOpcode b.desc = 4 ∧ b.canForm = true ∧ (s.chan ch).slice = some n)) ∧
    (∃ ch b g, Could (.burstBegin ch) (fun s => s.burstReady ch = true ∧ (s.burstAllowed ch = false ∨ s.moverPick (ch / 8) = some ch) ∧ (s.chan ch).cur = some b ∧ b.form = some g)) :=
  ⟨⟨3, 7, _, 1, _, wD, ⟨rfl, by decide, by decide, by decide, by decide, by decide, by decide, by decide, by decide, rfl, rfl⟩⟩,
    ⟨3, 7, wFet, { wD with dma := { wD.dma with ch := [(3, { wCh with pre := [wFet] })] } }, by decide⟩,
    ⟨3, wBeg, wB, by decide⟩,
    ⟨3, wBeg, wB, by decide⟩,
    ⟨3, { wBeg with desc := 6 }, { wD with dma := { wD.dma with ch := [(3, { wCh with begun := [{ wBeg with desc := 6 }] })] } }, by decide⟩,
    ⟨3, { wBeg with desc := 1, issued := false }, 1, wFormDesc 1, by decide⟩,
    ⟨3, { wBeg with desc := 2, issued := false }, 1, wFormDesc 2, by decide⟩,
    ⟨3, { wBeg with desc := 3, issued := false }, 1, wFormDesc 3, by decide⟩,
    ⟨3, { wBeg with desc := 4, issued := false }, 1, wFormDesc 4, by decide⟩,
    ⟨3, wBegF, wFormed, { wD with dma := { wD.dma with ch := [(3, { wCh with begun := [wBegF] })] } }, by decide⟩⟩

/-- The hypotheses of DmaFlips are met. -/
theorem met_dma_flips :
    (∃ ch b n d fpa, Could (.flip ch) (fun s => s.chRuns ch = true ∧ s.flipDue ch = some (b, n) ∧ (s.win (dfld b.desc 419 416)).dfn = some d ∧ d.owner = n ∧ s.epochPlace n b.desc = .ok fpa ∧ bit b.desc.toNat 424 ≠ (s.win (dfld b.desc 419 416)).activeB)) ∧
    (∃ ch b n d fpa, Could (.flip ch) (fun s => s.chRuns ch = true ∧ s.flipDue ch = some (b, n) ∧ (s.win (dfld b.desc 419 416)).dfn = some d ∧ d.owner = n ∧ s.epochPlace n b.desc = .ok fpa ∧ bit b.desc.toNat 424 = (s.win (dfld b.desc 419 416)).activeB)) ∧
    (∃ w, Could (.flipPrepare w) (fun s => (s.win w).step = some 1 ∧ s.running = true ∧ s.dma.parked = false)) ∧
    (∃ w g d, Could (.flipCommit w) (fun s => (s.win w).step = some 2 ∧ s.running = true ∧ s.dma.parked = false ∧ (s.win w).flip = some g ∧ (s.win w).dfn = some d)) ∧
    (∃ w d, Could (.flipDrainDone w) (fun s => (s.win w).step = some 3 ∧ s.running = true ∧ s.flipDrained w = true ∧ (s.win w).dfn = some d)) ∧
    (∃ w g n, Could (.flipSweepDone w) (fun s => (s.win w).step = some 4 ∧ s.running = true ∧ s.dma.parked = false ∧ (s.win w).sweep = some n ∧ s.sweepQuiet n = true ∧ (s.win w).flip = some g)) ∧
    (∃ n, Could (.dreqEdge n) (fun s => n < 16 ∧ s.running = true ∧ s.dma.parked = false)) ∧
    (∃ ch b, Could (.dmaWatchdog ch) (fun s => chanOk ch = true ∧ s.running = true ∧ s.dma.parked = false ∧ (s.chan ch).watched = some b ∧ s.nextDone ch ≠ some b)) :=
  ⟨⟨3, wBegFlip, 1, wDef, 0, wFl, by decide⟩,
    ⟨3, wBegFlip, 1, wDef, 0, wFlSame, by decide⟩,
    ⟨2, wFlAt 1, by decide⟩,
    ⟨2, (3, 7, 0, 0, true), wDef, wFlAt 2, by decide⟩,
    ⟨2, wDef, wFlAt 3, by decide⟩,
    ⟨2, (3, 7, 0, 0, true), 5, wFlAt 4, by decide⟩,
    ⟨15, wB, by decide⟩,
    ⟨3, wBegF, { wD with dma := { wD.dma with ch := [(3, { wCh with begun := [wBegF] })] } }, by decide⟩⟩

/-- The hypotheses of WardCommands are met. -/
theorem met_ward_commands :
    (∃ f n x, Met 0xC801 f (.wardRegionSet f n x) (fun _ _ s => n < 4096 ∧ regionFits x = true ∧ s.ward.copying = false)) ∧
    (∃ f n, Met 0xC802 f (.wardRegionGet f n) (fun _ _ _ => n < 4096)) ∧
    (∃ f i cut, Met 0xC803 f (.wardCutSet f true i cut) (fun _ _ _ => i < 16)) ∧
    (∃ f i cut, Met 0xC803 f (.wardCutSet f false i cut) (fun _ _ s => (s.slice i).isSome = true)) ∧
    (∃ f t, Met 0xC804 f (.wardCommit f t) (fun _ _ _ => True)) ∧
    (∃ f, Met 0xC805 f (.wardStatusGet f) (fun _ _ _ => True)) ∧
    (∃ t go, Could (.wardCommitGo t go) (fun s => s.running = true)) :=
  ⟨⟨wFm 0xC801, 4095, { v := true, permIn := 7, limit := 5 }, wS, _, _, _, session_executes rfl rfl rfl, by decide⟩,
    ⟨wFm 0xC802, 4095, wS, _, _, _, session_executes rfl rfl rfl, by decide⟩,
    ⟨wFm 0xC803, 15, 7, wS, _, _, _, session_executes rfl rfl rfl, by decide⟩,
    ⟨wFm 0xC803, 1, 7, wL, _, _, _, session_executes rfl rfl rfl, by decide⟩,
    ⟨wFm 0xC804, 1, wS, _, _, _, session_executes rfl rfl rfl, by decide⟩,
    ⟨wFm 0xC805, wS, _, _, _, session_executes rfl rfl rfl, by decide⟩,
    ⟨1, true, wS, by decide⟩⟩

/-- The hypotheses of WardSteps are met. -/
theorem met_ward_steps :
    (Could (.wardCommitCheck) (fun s => s.running = true ∧ s.ward.accepted ≠ [] ∧ s.ward.checked = false ∧ s.ward.copying = false ∧ s.wardHeld = false ∧ s.ward.bank0 = s.ward.shadow ∧ s.ward.bank1 = s.ward.shadow)) ∧
    (Could (.wardCommitCheck) (fun s => s.running = true ∧ s.ward.accepted ≠ [] ∧ s.ward.checked = false ∧ s.ward.copying = false ∧ s.wardHeld = false ∧ ¬ (s.ward.bank0 = s.ward.shadow ∧ s.ward.bank1 = s.ward.shadow))) ∧
    (Could (.wardSwitch) (fun s => s.running = true ∧ s.ward.checked = true)) ∧
    (Could (.wardCopyDone) (fun s => s.running = true ∧ s.ward.copying = true)) :=
  ⟨⟨{ wS with ward := { accepted := [1] } }, by decide⟩,
    ⟨{ wS with ward := { accepted := [1], bank0 := [(0, { v := true })] } }, by decide⟩,
    ⟨{ wS with ward := { accepted := [1], checked := true } }, by decide⟩,
    ⟨{ wS with ward := { copying := true } }, by decide⟩⟩

/-- The hypotheses of Shaping are met. -/
theorem met_shaping :
    (∃ f agg sl0 b cfg, Met 0xC901 f (.shapeBktSet f agg sl0 b cfg) (fun _ _ s => s.bktExists agg sl0 b = true ∧ s.bktRefused agg sl0 b cfg = false ∧ ¬ (0x47 < bits cfg.toNat 59 53 ∧ bits cfg.toNat 59 53 < 0x7F))) ∧
    (∃ f agg sl0 b, Met 0xC902 f (.shapeBktGet f agg sl0 b) (fun r sl s => s.bktExists agg sl0 b = true ∧ (r = 4 → agg = false ∧ sl = sl0))) ∧
    (∃ f, Met 0xC903 f (.shapeStatus f) (fun _ _ _ => True)) ∧
    (∃ agg sl0 b c, Could (.chargeProceed agg sl0 b) (fun s => s.shape.waiting.find? (fun c => c.bkts.contains (bktKey agg sl0 b)) = some c ∧ s.mayProceed c = true)) ∧
    (∃ port i, Could (.shapingQueueEntry port) (fun s => s.hs.shapeQ.findIdx? (fun x => x.1 == port && ! x.2.1) = some i ∧ (s.hs.shapeQ.filter (fun x => x.1 == port && x.2.1)).length < 256)) :=
  ⟨⟨wFm 0xC901, false, 1, 15, 0x9FE0000200000100, wL, _, _, _, session_executes rfl rfl rfl, by decide⟩,
    ⟨wFm 0xC902, false, 1, 15, wL, _, _, _, session_executes rfl rfl rfl, by decide⟩,
    ⟨wFm 0xC903, wL, _, _, _, session_executes rfl rfl rfl, by decide⟩,
    ⟨false, 1, 0, wCharge, wCharged, by decide⟩,
    ⟨0, 0, { wL with hs := { wL.hs with shapeQ := [(0, false, wReq .rds 0)] } }, by decide⟩⟩

/-- The hypotheses of Gates are met. -/
theorem met_gates :
    (∃ f p ctl base es, Met 0xCA01 f (.gateListSet f p ctl base es) (fun _ _ s => s.gated p = true ∧ es ≠ [] ∧ es.length ≤ 128 ∧ es.length = bits ctl.toNat 61 54 + 1 ∧ es.all (fun e => bits e.toNat 23 0 != 0) = true
      ∧ 125 ≤ ({ ctl := ctl, base := base, list := es } : GateSet).cycle ∧ ({ ctl := ctl, base := base, list := es } : GateSet).cycle ≤ 12500000)) ∧
    (∃ f p, Met 0xCA02 f (.gateCommit f p) (fun _ _ s => s.gated p = true ∧ (s.gate p).pending = none ∧ s.setOk p (s.gate p).shadow = true)) ∧
    (∃ f p, Met 0xCA03 f (.gateGet f p) (fun _ _ s => s.gated p = true)) ∧
    (∃ f loss, Met 0xCA05 f (.gateTsyncSet f loss) (fun _ _ _ => 10 ≤ loss ∧ loss ≤ 65000)) ∧
    (∃ p x, Could (.gateSwap p) (fun s => (s.gate p).pending = some x ∧ x.1.tsync = false ∧ x.2 ≤ s.shape.mtime ∧ s.shape.running = true)) ∧
    (∃ p t, Could (.cycleStart p) (fun s => s.shape.running = true ∧ s.cycleDue p = some t)) ∧
    (∃ p e, Could (.gateEntry p) (fun s => s.shape.running = true ∧ (s.gate p).now.en = true ∧ (s.gate p).entry + 1 < (s.gate p).now.spans.length ∧ (s.gate p).now.spans[(s.gate p).entry]? = some e ∧ (s.gate p).entryAt + 8 * e.2 ≤ s.shape.mtime)) ∧
    (Could (.tsync) (fun s => s.running = true ∧ s.shape.running = true ∧ s.shape.edgeAt.any (fun t => decide (s.now < t + 25)) = true)) ∧
    (Could (.tsync) (fun s => s.running = true ∧ s.shape.running = true ∧ s.shape.edgeAt.any (fun t => decide (s.now < t + 25)) = false)) ∧
    (Could (.tsyncLoss) (fun s => s.running = true ∧ s.shape.running = true)) :=
  ⟨⟨wFm 0xCA01, 4, 0x000000007D000000, 0, [125], wP, _, _, _, session_executes rfl rfl rfl, by decide⟩,
    ⟨wFm 0xCA02, 4, wP, _, _, _, session_executes rfl rfl rfl, by decide⟩,
    ⟨wFm 0xCA03, 4, wP, _, _, _, session_executes rfl rfl rfl, by decide⟩,
    ⟨wFm 0xCA05, 65000, wS, _, _, _, session_executes rfl rfl rfl, by decide⟩,
    ⟨0, ({}, 0), { wP with shape := { running := true, gate := [(0, { pending := some ({}, 0) })] } }, by decide⟩,
    ⟨0x40, 2000000, wGate 2000000, by decide +kernel⟩,
    ⟨0x40, wGateEnt, wGate 900000, ⟨by decide, by decide, by decide, rfl, by decide⟩⟩,
    ⟨{ wS with shape := { running := true, edgeAt := some 0 } }, by decide⟩,
    ⟨{ wS with shape := { running := true } }, by decide⟩,
    ⟨{ wS with shape := { running := true } }, by decide⟩⟩

/-- The hypotheses of HierarchyCommands are met. -/
theorem met_hierarchy_commands :
    (∃ f, Met 0xCB01 f (.hierStatus f) (fun _ _ _ => True)) ∧
    (∃ f key, Met 0xCB02 f (.hierKeySet f key) (fun _ _ _ => True)) ∧
    (∃ f pref auto ms tr, Met 0xCB03 f (.hierSet f pref auto ms tr) (fun _ _ s => ms.all (fun n => decide (100 ≤ n ∧ n ≤ 10000)) = true ∧ tr.all (fun n => decide (2 ≤ n ∧ n ≤ 128)) = true ∧ (s.hierSettings pref auto ms tr).timeoutsOk = true ∧ (s.hierSettings pref auto ms tr).gatesOk = true)) ∧
    (∃ f sn j, Met 0xCB04 f (.hierAdmit f sn) (fun _ _ s => s.hier.join = some j ∧ j.serial = sn ∧ j.admitted = false)) ∧
    (∃ f i m, Met 0xCB05 f (.hierRemove f i) (fun _ _ s => i ≠ s.glob.midx ∧ s.hier.members.find? (fun m => m.idx == i) = some m ∧ s.hier.lost.contains i = false ∧ s.opRunning 11 = false ∧ s.hier.join.any (fun j => j.idx == i) = false ∧ s.pool.homeReqs.any (fun q => q.op == 0xCB05) = false ∧ s.bindsHome i = false)) ∧
    (∃ f i, Met 0xCB06 f (.hierForget f i) (fun _ _ s => s.hier.reserved.any (fun x => x.2.1 == i) = true)) ∧
    (∃ f t, Met 0xCB07 f (.hierTrunkDisable f t) (fun _ _ s => t < 8 ∧ (s.tp t).stopped = false)) ∧
    (∃ f t, Met 0xCB08 f (.hierTrunkEnable f t) (fun _ _ _ => t < 8)) :=
  ⟨⟨wFm 0xCB01, wS, _, _, _, session_executes rfl rfl rfl, by decide⟩,
    ⟨wFm 0xCB02, 9, wS, _, _, _, session_executes rfl rfl rfl, by decide⟩,
    ⟨wFm 0xCB03, some false, some true, some 10000, none, wS, _, _, _, session_executes rfl rfl rfl, by decide⟩,
    ⟨wFm 0xCB04, 5, wJoin, { wS with hier := { join := some wJoin } }, _, _, _, session_executes rfl rfl rfl, by decide⟩,
    ⟨wFm 0xCB05, 1, { idx := 1, serial := 5 }, { wS with hier := { members := [{ idx := 0, serial := 0 }, { idx := 1, serial := 5 }] } }, _, _, _, session_executes rfl rfl rfl, by decide⟩,
    ⟨wFm 0xCB06, 1, { wS with hier := { reserved := [(5, 1, 9)] } }, _, _, _, session_executes rfl rfl rfl, by decide⟩,
    ⟨wFm 0xCB07, 1, wT, _, _, _, session_executes rfl rfl rfl, by decide⟩,
    ⟨wFm 0xCB08, 7, wT, _, _, _, session_executes rfl rfl rfl, by decide⟩⟩

/-- The hypotheses of HierarchyEvents are met. -/
theorem met_hierarchy_events :
    (Could (.managerDeclare) (fun s => s.glob.pstate = .active ∧ s.glob.isMA = true ∧ s.hier.prefMgr = true ∧ s.hier.wasWorker = false ∧ s.glob.hrole = 0 ∧ (∀ t < 8, ¬ ((s.tp t).peerRole = 1 ∧ (s.tp t).state ≠ .off ∧ (s.tp t).state ≠ .train)))) ∧
    (∃ j, Could (.meshComplete) (fun s => s.glob.pstate = .active ∧ s.glob.hrole = 1 ∧ s.hier.join = some j ∧ j.admitted = true ∧ (s.tp j.tp).state = .active)) ∧
    (Could (.meshComplete) (fun s => s.glob.pstate = .active ∧ s.glob.hrole = 2 ∧ s.glob.midx ≠ 15 ∧ s.hier.admitted = true ∧ s.hier.joined = false ∧ s.meshed = true ∧ s.hier.join = none)) ∧
    (∃ j, Could (.meshTimeout) (fun s => s.glob.pstate = .active ∧ s.glob.hrole = 1 ∧ s.hier.join = some j ∧ j.admitted = true)) ∧
    (Could (.joinRetry) (fun s => s.glob.pstate = .active ∧ s.glob.hrole = 2 ∧ s.hier.joinFailed.isSome = true)) ∧
    (∃ i n, Could (.hierRemoveStepDone) (fun s => s.hier.remove = some (i, n) ∧ i ≠ s.glob.midx ∧ n < 3 ∧ (n = 2 → s.leaveQuiet i = true))) ∧
    (∃ n, Could (.hierRemoveStepDone) (fun s => s.hier.remove = some (s.glob.midx, n) ∧ (s.keeper.wbs.filter (fun w => w.1 == .mod s.glob.midx)) = [])) ∧
    (∃ t m, Could (.hierarchyControl t m) (fun s => s.trunkLive t = true ∧ (s.tp t).state = .active ∧ m.idx < 16 ∧ s.glob.hrole = 1 ∧ m.kind = 5)) ∧
    (∃ t m, Could (.hierarchyControl t m) (fun s => s.trunkLive t = true ∧ (s.tp t).state = .active ∧ m.idx < 16 ∧ s.glob.hrole ≠ 1 ∧ (s.tp t).p0 = true)) ∧
    (∃ t i, Could (.leave t i) (fun s => s.trunkLive t = true ∧ (s.tp t).state = .active ∧ (s.tp t).peerIdx = i)) :=
  ⟨⟨{ wS with glob := { wS.glob with hrole := 0, midx := 15 } }, by decide⟩,
    ⟨{ wJoin with admitted := true }, { wT with hier := { join := some { wJoin with admitted := true } } }, by decide⟩,
    ⟨{ wT with glob := { wT.glob with hrole := 2, midx := 1 }, hier := { admitted := true, members := [{ idx := 0, serial := 0 }, { idx := 1, serial := 5 }] } }, by decide⟩,
    ⟨{ wJoin with admitted := true }, { wT with hier := { join := some { wJoin with admitted := true } } }, by decide⟩,
    ⟨{ wT with glob := { wT.glob with hrole := 2 }, hier := { joinFailed := some 1 } }, by decide⟩,
    ⟨1, 0, { wS with hier := { remove := some (1, 0) } }, by decide⟩,
    ⟨0, { wS with glob := { wS.glob with hrole := 2, midx := 1 }, hier := { remove := some (1, 0) } }, by decide⟩,
    ⟨1, { kind := 5, idx := 1, serial := 5, autoAdmit := false, meshTimeout := 0, trCpl := 0, members := [] }, wT, by decide⟩,
    ⟨1, { kind := 6, idx := 1, serial := 5, autoAdmit := false, meshTimeout := 1000, trCpl := 24, members := [] }, { wT with glob := { wT.glob with hrole := 2, midx := 1 }, trunk := [(1, { state := .active, peerIdx := 0, p0 := true })] }, by decide⟩,
    ⟨1, 0, wT, by decide⟩⟩

/-- The hypotheses of FaultCommands are met. -/
theorem met_fault_commands :
    (∃ f q n, Met 0xCC01 f (.faultLogGet f q n) (fun _ _ _ => 0 < n ∧ n ≤ 127)) ∧
    (∃ f, Met 0xCC02 f (.faultStatus f) (fun _ _ _ => True)) ∧
    (∃ f c pat a irq i, Met 0xCC03 f (.faultReactionSet f true c pat a irq i false) (fun _ _ _ => reactOk c (a.getD 0) irq = true)) ∧
    (∃ f c pat a irq i, Met 0xCC03 f (.faultReactionSet f true c pat a irq i true) (fun _ _ _ => c ≤ 4)) ∧
    (∃ f c pat a irq i, Met 0xCC03 f (.faultReactionSet f false c pat a irq i true) (fun _ _ s => (Tbl.find s.faults.overrides i).isSome = true)) ∧
    (∃ f c pat a irq i k, Met 0xCC03 f (.faultReactionSet f false c pat a irq i false) (fun _ _ s => c ≠ 0xFF ∧ codeClass c = some k ∧ s.locExists pat = true ∧ i ≤ 63 ∧ reactOk k (a.getD 0) irq = true)) ∧
    (∃ f c l, Met 0xCC04 f (.reactionDryrun f true c l) (fun _ _ s => c ≤ 5 ∧ s.locExists l = true)) ∧
    (∃ f, Met 0xCC05 f (.faultLogClear f) (fun _ _ _ => True)) ∧
    (∃ f hz, Met 0xCC06 f (.aliveSet f hz) (fun _ _ s => 100 ≤ hz ∧ hz ≤ 10000 ∧ s.faults.alive = true)) ∧
    (∃ f hz, Met 0xCC06 f (.aliveSet f hz) (fun _ _ s => 100 ≤ hz ∧ hz ≤ 10000 ∧ s.faults.alive = false)) ∧
    (∃ c l d p, Could (.faultReport c l d p) (fun s => (codeClass c).isSome = true ∧ s.locExists l = true ∧ s.glob.pstate ≠ .off)) ∧
    (∃ l x, Could (.wire l x) (fun s => s.locExists l = true ∧ s.glob.pstate ≠ .off)) ∧
    (∃ l, Could (.reactionWindowClose l) (fun s => s.faults.windows.any (fun w => w.elem == l) = true)) :=
  ⟨⟨wFm 0xCC01, 0, 127, wS, _, _, _, session_executes rfl rfl rfl, by decide⟩,
    ⟨wFm 0xCC02, wS, _, _, _, session_executes rfl rfl rfl, by decide⟩,
    ⟨wFm 0xCC03, 4, mkLoc 0 0 0 0 0, some 6, true, 0, wS, _, _, _, session_executes rfl rfl rfl, by decide⟩,
    ⟨wFm 0xCC03, 4, mkLoc 0 0 0 0 0, none, false, 0, wS, _, _, _, session_executes rfl rfl rfl, by decide⟩,
    ⟨wFm 0xCC03, 0, mkLoc 0 0 0 0 0, none, false, 5, { wS with faults := { overrides := [(5, { code := 0x101, pat := mkLoc 0 0 0 0 0, action := none, irq := true })] } }, _, _, _, session_executes rfl rfl rfl, by decide⟩,
    ⟨wFm 0xCC03, 0x101, mkLoc 15 15 15 15 255, none, true, 63, 1, wS, _, _, _, session_executes rfl rfl rfl, by decide⟩,
    ⟨wFm 0xCC04, 5, mkLoc 15 15 15 15 255, wS, _, _, _, session_executes rfl rfl rfl, by decide⟩,
    ⟨wFm 0xCC05, wS, _, _, _, session_executes rfl rfl rfl, by decide⟩,
    ⟨wFm 0xCC06, 10000, { wS with faults := { alive := true } }, _, _, _, session_executes rfl rfl rfl, by decide⟩,
    ⟨wFm 0xCC06, 100, { wS with faults := { alive := false } }, _, _, _, session_executes rfl rfl rfl, by decide⟩,
    ⟨0x101, mkLoc 15 15 15 15 255, 0, 255, wS, by decide⟩,
    ⟨mkLoc 15 15 15 15 255, 0, wS, by decide⟩,
    ⟨mkLoc 15 15 15 15 255, { wS with faults := { windows := [wWin] } }, by decide⟩⟩

/-- The hypotheses of PowerCommands are met. -/
theorem met_power_commands :
    (∃ f, Met 0xCD01 f (.powerStatus f) (fun _ _ _ => True)) ∧
    (∃ f c l, Met 0xCD02 f (.powerSet f c l) (fun _ _ _ => ctlOk c.toNat = true ∧ limOk l.toNat = true ∧ rampOk c.toNat l.toNat = true)) ∧
    (∃ f p, Met 0xCD03 f (.powerStateSet f 1 p) (fun _ _ s => s.glob.pstate = .active ∧ s.inUse = false)) ∧
    (∃ f p, Met 0xCD03 f (.powerStateSet f 2 p) (fun _ _ s => s.glob.pstate = .active ∧ s.inUse = false)) ∧
    (∃ f p, Met 0xCD03 f (.powerStateSet f 3 p) (fun _ _ s => s.glob.pstate = .ready)) ∧
    (∃ f p, Met 0xCD03 f (.powerStateSet f 1 p) (fun _ _ s => s.glob.pstate = .ready ∧ s.inUse = false)) ∧
    (∃ f p t, Met 0xCD03 f (.powerStateSet f t p) (fun _ _ s => (t = 2 ∨ t = 3) ∧ s.glob.pstate = .standby ∧ s.sill.state = .on ∧ s.sill.selfTest = true)) ∧
    (∃ f, Met 0xCD04 f (.energyClear f) (fun _ _ _ => True)) ∧
    (∃ f g w c, Met 0xCD05 f (.thermalSet f g w c) (fun _ _ _ => g ≤ 2 ∧ 60 ≤ w ∧ w ≤ 120 ∧ 70 ≤ c ∧ c ≤ 122 ∧ w + 2 ≤ c)) ∧
    (∃ f, Met 0xCD06 f (.thermalStatus f) (fun _ _ _ => True)) :=
  ⟨⟨wFm 0xCD01, wS, _, _, _, session_executes rfl rfl rfl, by decide⟩,
    ⟨wFm 0xCD02, wCtl, wLim, wS, _, _, _, session_executes rfl rfl rfl, by decide⟩,
    ⟨wFm 0xCD03, true, wS, _, _, _, session_executes rfl rfl rfl, by decide⟩,
    ⟨wFm 0xCD03, true, wS, _, _, _, session_executes rfl rfl rfl, by decide⟩,
    ⟨wFm 0xCD03, false, { wS with glob := { wS.glob with pstate := .ready } }, _, _, _, session_executes rfl rfl rfl, by decide⟩,
    ⟨wFm 0xCD03, false, { wS with glob := { wS.glob with pstate := .ready } }, _, _, _, session_executes rfl rfl rfl, by decide⟩,
    ⟨wFm 0xCD03, true, 3, { wS with glob := { wS.glob with pstate := .standby }, sill := { state := .on, selfTest := true } }, _, _, _, session_executes rfl rfl rfl, by decide⟩,
    ⟨wFm 0xCD04, wS, _, _, _, session_executes rfl rfl rfl, by decide⟩,
    ⟨wFm 0xCD05, 2, 120, 122, wS, _, _, _, session_executes rfl rfl rfl, by decide⟩,
    ⟨wFm 0xCD06, wS, _, _, _, session_executes rfl rfl rfl, by decide⟩⟩

/-- The hypotheses of SillEvents are met. -/
theorem met_sill_events :
    (Could (.qualStart) (fun s => s.glob.pstate ≠ .off ∧ s.sill.stuck = false ∧ s.sill.state = .wait)) ∧
    (Could (.qualDone) (fun s => s.glob.pstate ≠ .off ∧ s.sill.stuck = false ∧ s.sill.state = .qual)) ∧
    (Could (.qualLeavesRange) (fun s => s.glob.pstate ≠ .off ∧ s.sill.stuck = false ∧ s.sill.state = .qual)) ∧
    (Could (.powerGood) (fun s => s.glob.pstate ≠ .off ∧ s.sill.stuck = false ∧ s.sill.state = .ramp)) ∧
    (Could (.sillSoa) (fun s => s.glob.pstate ≠ .off ∧ s.sill.stuck = false ∧ (s.sill.state = .ramp ∨ s.sill.state = .on ∧ s.sill.recharge = true))) ∧
    (Could (.sillFastTrip) (fun s => s.glob.pstate ≠ .off ∧ s.sill.stuck = false ∧ s.sill.state = .ramp)) ∧
    (Could (.sillFastTrip) (fun s => s.glob.pstate ≠ .off ∧ s.sill.stuck = false ∧ s.sill.state = .on)) ∧
    (Could (.sillSlowTrip) (fun s => s.glob.pstate ≠ .off ∧ s.sill.stuck = false ∧ s.sill.state = .on ∧ s.sill.recharge = false)) ∧
    (Could (.coolEnd) (fun s => s.glob.pstate ≠ .off ∧ s.sill.stuck = false ∧ s.sill.state = .cool ∧ s.sill.retry ≠ 0)) ∧
    (Could (.coolEnd) (fun s => s.glob.pstate ≠ .off ∧ s.sill.stuck = false ∧ s.sill.state = .cool ∧ s.sill.retry = 0)) ∧
    (Could (.retryReload) (fun s => s.glob.pstate ≠ .off ∧ s.sill.state = .on)) ∧
    (Could (.sillOv) (fun s => s.glob.pstate ≠ .off ∧ s.sill.stuck = false ∧ s.sill.state = .ramp)) ∧
    (Could (.sillOv) (fun s => s.glob.pstate ≠ .off ∧ s.sill.stuck = false ∧ s.sill.state = .on)) ∧
    (Could (.ovRecover) (fun s => s.glob.pstate ≠ .off ∧ s.sill.stuck = false ∧ s.sill.state = .ovOff)) ∧
    (Could (.bulkRecharge) (fun s => s.glob.pstate ≠ .off ∧ s.sill.stuck = false ∧ s.sill.state = .on ∧ s.sill.turnedOff = false)) ∧
    (Could (.bulkRechargeEnd) (fun s => s.glob.pstate ≠ .off ∧ s.sill.stuck = false ∧ s.sill.state = .on ∧ s.sill.recharge = true)) ∧
    (Could (.sillCtlEn true) (fun s => s.glob.pstate ≠ .off ∧ s.glob.pstate ≠ .moduleReset ∧ s.locked 0 = false ∧ bit s.sillCtl 63 = false ∧ s.sill.stuck = false ∧ s.sill.state ≠ .on)) ∧
    (Could (.sillCtlEn false) (fun s => (s.glob.pstate = .ready ∨ s.glob.pstate = .active) ∧ s.locked 0 = false ∧ bit s.sillCtl 63 = true ∧ s.sill.stuck = false)) ∧
    (Could (.sillCtlEn false) (fun s => s.glob.pstate = .standby ∧ s.locked 0 = false ∧ bit s.sillCtl 63 = true ∧ s.sill.stuck = false)) ∧
    (∃ st, Could (.feedChange true st) (fun s => s.glob.pstate ≠ .off ∧ st ≤ 5 ∧ s.sill.feedB ≠ st)) ∧
    (∃ st, Could (.feedChange false st) (fun s => s.glob.pstate ≠ .off ∧ st ≤ 5 ∧ s.sill.feedA ≠ st)) :=
  ⟨⟨wSill .wait, by decide⟩,
    ⟨wSill .qual, by decide⟩,
    ⟨wSill .qual, by decide⟩,
    ⟨wSill .ramp, by decide⟩,
    ⟨wSill .ramp, by decide⟩,
    ⟨wSill .ramp, by decide⟩,
    ⟨wSill .on, by decide⟩,
    ⟨wSill .on, by decide⟩,
    ⟨{ wS with sill := { state := .cool, retry := 1 } }, by decide⟩,
    ⟨{ wS with sill := { state := .cool, retry := 0 } }, by decide⟩,
    ⟨wSill .on, by decide⟩,
    ⟨wSill .ramp, by decide⟩,
    ⟨wSill .on, by decide⟩,
    ⟨wSill .ovOff, by decide⟩,
    ⟨wSill .on, by decide⟩,
    ⟨{ wS with sill := { state := .on, recharge := true } }, by decide⟩,
    ⟨{ wS with sill := { state := .disabled, ctl := Tri.all wCtlOff } }, by decide⟩,
    ⟨{ wS with sill := { ctl := Tri.all wCtl } }, by decide⟩,
    ⟨{ wS with glob := { wS.glob with pstate := .standby }, sill := { ctl := Tri.all wCtl } }, by decide⟩,
    ⟨5, wS, by decide⟩,
    ⟨3, wS, by decide⟩⟩

/-- The hypotheses of PowerEvents are met. -/
theorem met_power_events :
    (Could (.sillBrownout) (fun s => s.glob.pstate ≠ .off ∧ s.sill.pfw = false)) ∧
    (Could (.brownoutSleep) (fun s => s.glob.pstate = .brownout ∧ s.sill.brownStep = 4 ∧ s.sill.resetWaits = some true)) ∧
    (Could (.brownoutSleep) (fun s => s.glob.pstate = .brownout ∧ s.sill.brownStep = 4 ∧ s.sill.resetWaits = none)) ∧
    (Could (.pfwRelease) (fun s => s.sill.pfw = true ∧ s.sill.state = .on ∧ s.sill.turnedOff = false ∧ s.glob.pstate ≠ .brownout)) ∧
    (Could (.polStop) (fun s => s.sill.turnedOff = true ∧ s.sill.pol = true)) ∧
    (∃ va vb vin vk ia ib iin, Could (.meterUpdate va vb vin vk ia ib iin true) (fun s => s.glob.pstate ≠ .off ∧ va ≤ 65535 ∧ vb ≤ 65535 ∧ vin ≤ 65535 ∧ vk ≤ 65535 ∧ ia ≤ 65535 ∧ ib ≤ 65535 ∧ iin ≤ 65535)) ∧
    (∃ p, Could (.gpfRequest p) (fun s => s.isUp p = true ∧ (s.port p).up = true ∧ s.glob.pstate = .brownout)) ∧
    (∃ p, Could (.gpfRequest p) (fun s => s.isUp p = true ∧ (s.port p).up = true ∧ s.glob.pstate = .active)) ∧
    (∃ p, Could (.gpfCompletion p) (fun s => s.sill.gpfExps.contains p = true)) ∧
    (Could (.selfTestDone true) (fun s => s.sill.state = .on ∧ s.glob.pstate = .standby ∧ s.sill.selfTest = false)) ∧
    (Could (.selfTestDone false) (fun s => s.sill.state = .on ∧ s.glob.pstate = .standby ∧ s.sill.selfTest = false)) ∧
    (Could (.startupReady) (fun s => s.glob.pstate = .standby ∧ s.sill.pol = true ∧ s.sill.state = .on ∧ s.svc.rstN = true ∧ s.svc.pll0 = true ∧ s.svc.pll1 = true)) ∧
    (∃ s : State, s.glob.pstate ≠ .off) ∧
    (Could (.coldRelease) (fun s => s.glob.pstate = .off)) :=
  ⟨⟨wS, by decide⟩,
    ⟨wBrown (some true), by decide⟩,
    ⟨wBrown none, by decide⟩,
    ⟨{ wS with sill := { state := .on, pfw := true } }, by decide⟩,
    ⟨{ wS with sill := { turnedOff := true, pol := true } }, by decide⟩,
    ⟨5400, 0, 5400, 5300, 20000, 0, 65535, wS, by decide⟩,
    ⟨0, { wP with glob := { wP.glob with pstate := .brownout } }, by decide⟩,
    ⟨0, wP, by decide⟩,
    ⟨4, { wP with sill := { gpfExps := [4] } }, by decide⟩,
    ⟨{ wS with glob := { wS.glob with pstate := .standby }, sill := { state := .on } }, by decide⟩,
    ⟨{ wS with glob := { wS.glob with pstate := .standby }, sill := { state := .on } }, by decide⟩,
    ⟨{ wS with glob := { wS.glob with pstate := .standby }, sill := { state := .on, pol := true }, svc := { rstN := true, pll0 := true, pll1 := true } }, by decide⟩,
    ⟨wS, by decide⟩,
    ⟨{ wS with glob := { wS.glob with pstate := .off } }, by decide⟩⟩

/-- The hypotheses of ThermalAndTest are met. -/
theorem met_thermal_and_test :
    (∃ rs, Could (.thermalSensorUpdate rs) (fun s => s.glob.pstate ≠ .off ∧ rs.length = 16)) ∧
    (∃ d, Could (.dieThermal d) (fun s => d < 6 ∧ s.running = true)) ∧
    (Could (.dieThermal 6) (fun s => s.glob.pstate ≠ .off)) ∧
    (∃ op, Could (.tapInstruction op) (fun s => s.glob.pstate ≠ .off ∧ s.therm.tapLive = false)) ∧
    (∃ op, Could (.tapInstruction op) (fun s => s.glob.pstate ≠ .off ∧ s.therm.tapLive = true)) ∧
    (Could (.testLogicReset) (fun s => s.glob.pstate ≠ .off ∧ s.therm.tapLive = false)) ∧
    (Could (.testLogicReset) (fun s => s.glob.pstate ≠ .off ∧ s.therm.tapLive = true)) :=
  ⟨⟨List.replicate 16 200, wS, by decide⟩,
    ⟨5, wS, by decide⟩,
    ⟨wS, by decide⟩,
    ⟨5, wS, by decide⟩,
    ⟨0, { wS with therm := { tap := 4, tapLive := true } }, by decide⟩,
    ⟨wS, by decide⟩,
    ⟨{ wS with therm := { tap := 4, tapLive := true } }, by decide⟩⟩

/-- The hypotheses of PerfMonitor are met. -/
theorem met_perf_monitor :
    (∃ f g p i sel, Met 0xCE01 f (.perfCntSet f g p i sel none false) (fun _ _ s => s.perfNamed g p i = none ∧ s.selOk g p sel.toNat = true)) ∧
    (∃ f g p i sel n, Met 0xCE01 f (.perfCntSet f g p i sel (some n) true) (fun _ _ s => s.perfNamed g p i = none ∧ s.selOk g p sel.toNat = true ∧ n < 2 ^ 48)) ∧
    (∃ f p i, Met 0xCE02 f (.perfCntGet f true p i) (fun _ _ _ => i ≤ 15)) ∧
    (∃ f p i, Met 0xCE02 f (.perfCntGet f false p i) (fun _ _ s => i ≤ 3 ∧ p ≤ 63 ∧ s.isPort p = true)) ∧
    (∃ f en v, Met 0xCE04 f (.perfOvfSet f en v) (fun _ _ _ => v ≤ 2047)) ∧
    (∃ f i c, Met 0xCE03 f (.perfSampleSet f i c) (fun _ _ s => i ≤ 3 ∧ c.length = 12 ∧ (smpOf c).ok = true ∧ (Tbl.get ({} : Sampler) s.perf.smp i).en = false ∧ (smpOf c).en = true)) ∧
    (∃ f i c, Met 0xCE03 f (.perfSampleSet f i c) (fun _ _ s => i ≤ 3 ∧ c.length = 12 ∧ (smpOf c).ok = true ∧ (Tbl.get ({} : Sampler) s.perf.smp i).en = true ∧ (smpOf c).setting = (Tbl.get ({} : Sampler) s.perf.smp i).setting)) ∧
    (∃ b, Could (.perfCtlFreeze b) (fun s => s.running = true)) ∧
    (Could (.perfCtlClear) (fun s => s.running = true)) ∧
    (∃ i h, Could (.perfSmpHead i h) (fun s => s.running = true ∧ i < 4 ∧ h < 65536)) ∧
    (∃ i ns t r, Could (.sampleRecord i ns) (fun s => s.running = true ∧ i < 4 ∧ (Tbl.get ({} : Sampler) s.perf.smp i).ended = t :: r ∧ (Tbl.get ({} : Sampler) s.perf.smp i).used < 2 ^ (Tbl.get ({} : Sampler) s.perf.smp i).log2)) ∧
    (∃ i ns t r, Could (.sampleRecord i ns) (fun s => s.running = true ∧ i < 4 ∧ (Tbl.get ({} : Sampler) s.perf.smp i).ended = t :: r ∧ 2 ^ (Tbl.get ({} : Sampler) s.perf.smp i).log2 ≤ (Tbl.get ({} : Sampler) s.perf.smp i).used)) ∧
    (Could (.overflowMessage) (fun s => s.running = true ∧ s.perf.ovfPend = true ∧ s.perf.ovfLast = none ∧ s.perf.event.has 23 = true ∧ s.perf.ovfEn = true)) ∧
    (Could (.overflowMessage) (fun s => s.running = true ∧ s.perf.ovfPend = true ∧ s.perf.ovfLast = none ∧ s.perf.event.has 23 = false)) :=
  ⟨⟨wFm 0xCE01, true, 0, 15, 0x00FF0001, wP, _, _, _, session_executes rfl rfl rfl, by decide⟩,
    ⟨wFm 0xCE01, false, 4, 3, 1, 0xFFFFFFFFFFFF, wP, _, _, _, session_executes rfl rfl rfl, by decide⟩,
    ⟨wFm 0xCE02, 0, 15, wP, _, _, _, session_executes rfl rfl rfl, by decide⟩,
    ⟨wFm 0xCE02, 4, 3, wP, _, _, _, session_executes rfl rfl rfl, by decide⟩,
    ⟨wFm 0xCE04, true, 2047, wS, _, _, _, session_executes rfl rfl rfl, by decide⟩,
    ⟨wFm 0xCE03, 3, [1, 4096, 6, 2047, 16, 0x67, 0x13, 0x1F, 0, 0xFFFFFFFFFFFFF, 0x1FF, 20], wS, _, _, _, session_executes rfl rfl rfl, by decide⟩,
    ⟨wFm 0xCE03, 0, wSmpCfg, wSmpS, _, _, _, session_executes rfl rfl rfl, by decide⟩,
    ⟨true, wS, by decide⟩,
    ⟨wS, by decide⟩,
    ⟨3, 65535, wS, by decide⟩,
    ⟨0, 90, wSel, [], wSmpS, by decide⟩,
    ⟨0, 90, wSel, [], wSmpFull, by decide⟩,
    ⟨wOvf, by decide⟩,
    ⟨{ wS with perf := { ovfPend := true } }, by decide⟩⟩

/-- The hypotheses of Firmware are met. -/
theorem met_firmware :
    (∃ f, Met 0xCF01 f (.fwInfo f) (fun _ _ _ => True)) ∧
    (∃ f data, Met 0xCF02 f (.fwTransfer f 0 data) (fun _ _ s => s.opRunning 15 = false ∧ data ≠ [] ∧ data.length ≤ 4032)) ∧
    (∃ f off data, Met 0xCF02 f (.fwTransfer f off data) (fun _ _ s => s.opRunning 15 = false ∧ data ≠ [] ∧ data.length ≤ 4032 ∧ off + data.length ≤ 0x1800000 ∧ 0 < off ∧ (s.bank s.stagingBank).state = .staging ∧ (s.bank s.stagingBank).size = off)) ∧
    (∃ f, Met 0xCF03 f (.fwVerify f) (fun _ _ s => s.opRunning 15 = false ∧ (s.bank s.stagingBank).state = .staging)) ∧
    (Could (.fwVerifyDone) (fun s => s.opRunning 15 = true)) ∧
    (∃ f, Met 0xCF04 f (.fwActivate f false) (fun _ _ s => s.fw.bank0.state = .staged)) ∧
    (∃ f, Met 0xCF04 f (.fwActivate f false) (fun _ _ s => s.fw.bank0.state ≠ .staged ∧ s.fw.bank1.state = .staged)) ∧
    (∃ f, Met 0xCF04 f (.fwActivate f true) (fun _ _ s => s.fw.bank0.state = .staged)) :=
  ⟨⟨wFm 0xCF01, wS, _, _, _, session_executes rfl rfl rfl, by decide⟩,
    ⟨wFm 0xCF02, [7], wS, _, _, _, session_executes rfl rfl rfl, by decide⟩,
    ⟨wFm 0xCF02, 1, [9], wStag, _, _, _, session_executes rfl rfl rfl, by decide⟩,
    ⟨wFm 0xCF03, wStag, _, _, _, session_executes rfl rfl rfl, by decide⟩,
    ⟨{ wStag with mbx := { wStag.mbx with ops := [(15, wOp)] } }, by decide⟩,
    ⟨wFm 0xCF04, wStaged 0, _, _, _, session_executes rfl rfl rfl, by decide⟩,
    ⟨wFm 0xCF04, wStaged 1, _, _, _, session_executes rfl rfl rfl, by decide⟩,
    ⟨wFm 0xCF04, wStaged 0, _, _, _, session_executes rfl rfl rfl, by decide⟩⟩

/-- The hypotheses of DirectRegisters are met. -/
theorem met_direct_registers :
    (∃ v, Could (.globalLockWrite v) (fun s => s.d6Up = true)) ∧
    (∃ off v, Could (.sequenceClear off v) (fun s => s.running = true ∨ (s.d6Up = true ∧ off < 0x30000))) ∧
    (∃ p off w v, Could (.registerWrite false p off w v) (fun s => s.running = true ∧ s.isUp p = true ∧ (s.port p).up = true ∧ s.primary = some p)) ∧
    (∃ p off w v, Could (.registerWrite true p off w v) (fun s => s.running = true ∧ s.isUp p = true ∧ (s.port p).up = true)) ∧
    (∃ n, Could (.tvRead n) (fun s => s.running = true)) ∧
    (Could (.votePass) (fun s => s.d6Up = true)) ∧
    (∃ q off, Could (.counterLowRead q off) (fun s => s.running = true ∧ isCounter off = true)) :=
  ⟨⟨31, wS, by decide⟩,
    ⟨0x20, 0x05000000, wS, by decide⟩,
    ⟨0, 0x18, 8, 31, wP, by decide⟩,
    ⟨0, 0x1010, 4, 3, wP, by decide⟩,
    ⟨0, wS, by decide⟩,
    ⟨wS, by decide⟩,
    ⟨1, wCntOff, wS, by decide⟩⟩

/-- The hypotheses of CoresAndPlanes are met. -/
theorem met_cores_and_planes :
    (Could (.coreWake) (fun s => s.glob.pstate ≠ .off)) ∧
    (Could (.coreHalt) (fun s => s.svc.coresRun = true ∧ s.svc.wake = false ∧ s.mbx.waiting = [] ∧ s.mbx.ops.any (fun o => o.2.running) = false ∧ s.mbx.fwds = [] ∧ s.mbx.harvests = [] ∧ s.pool.homeReqs = [] ∧ s.faults.acts = [] ∧ s.pending = [])) ∧
    (Could (.coreWdog) (fun s => s.svc.wake = true ∧ s.svc.coresRun = false ∧ s.glob.pstate ≠ .off ∧ s.glob.pstate ≠ .stopped)) ∧
    (Could (.corePllLock 0) (fun s => s.sill.pol = true)) ∧
    (Could (.corePllLock 1) (fun s => s.sill.pol = true)) ∧
    (∃ p, Could (.planeIdleGate p) (fun s => p < 4 ∧ s.running = true ∧ s.xbar.gated.getLsbD p = false ∧ s.xbar.voq = [])) ∧
    (∃ p, Could (.planeUngate p) (fun s => p < 4 ∧ s.running = true ∧ s.xbar.gated.getLsbD p = true)) ∧
    (∃ a b k, Could (.reseqHole a b k) (fun s => a < 128 ∧ b < 128 ∧ k < 6 ∧ s.xbar.held.filter (fun c => c.flow == flowNo a b k) ≠ [])) ∧
    (∃ p, Could (.spillReadBack p) (fun s => s.running = true ∧ s.xbar.spillQ.any (fun e => e.2.2.dst == p && e.2.1 == 0) = true ∧ s.underLow (s.bulkAt p + s.spillOut p) = true)) :=
  ⟨⟨wS, by decide⟩,
    ⟨{ wS with svc := { coresRun := true } }, by decide⟩,
    ⟨{ wS with svc := { coresRun := false, wake := true } }, by decide⟩,
    ⟨{ wS with sill := { pol := true } }, by decide⟩,
    ⟨{ wS with sill := { pol := true } }, by decide⟩,
    ⟨3, { wS with xbar := { gated := 7 } }, by decide⟩,
    ⟨3, { wS with xbar := { gated := 0xF } }, by decide⟩,
    ⟨0, 0x40, 0, wHole, by decide⟩,
    ⟨4, { wP with xbar := { spillQ := [(0, 0, wBlk)], spillCtl := 0x500000 + 0x3200 } }, by decide⟩⟩

/-- The hypotheses of ResetSteps are met. -/
theorem met_reset_steps :
    (∃ t, Could (.moduleResetCoreReset) (fun s => s.svc.mr = .triggered t)) ∧
    (Could (.moduleResetRelease) (fun s => s.svc.mr = .held ∧ s.svc.rstN = true ∧ s.svc.thermHold = [] ∧ s.mrRelease.sill.state = .on ∧ s.mrRelease.sill.goal ≠ .standby)) ∧
    (Could (.moduleResetRelease) (fun s => s.svc.mr = .held ∧ s.svc.rstN = true ∧ s.svc.thermHold = [] ∧ ¬ (s.mrRelease.sill.state = .on ∧ s.mrRelease.sill.goal ≠ .standby))) ∧
    (Could (.moduleResetReady) (fun s => s.svc.mr = .released)) ∧
    (∃ k, Could (.sliceDrainDone k) (fun s => s.svc.resets.any (fun r => r.draining.contains k) = true ∧ s.drained k = true)) ∧
    (∃ l x, Could (.resetDone l) (fun s => s.svc.resets.find? (fun r => r.loc == l) = some x ∧ x.draining = [])) :=
  ⟨⟨9, { wS with svc := { mr := .triggered 9 } }, by decide⟩,
    ⟨{ wS with svc := { mr := .held, rstN := true }, sill := { state := .on, goal := .active } }, by decide⟩,
    ⟨{ wS with svc := { mr := .held, rstN := true }, sill := { state := .wait } }, by decide⟩,
    ⟨{ wS with svc := { mr := .released } }, by decide⟩,
    ⟨31, { wS with svc := { resets := [wRst [31]] } }, by decide⟩,
    ⟨mkLoc 0 0 0 15 255, wRst [], { wS with svc := { resets := [wRst []] } }, by decide⟩⟩

/-- The hypotheses of CoherenceRequests are met. -/
theorem met_coherence_requests :
    (∃ r, Could (.rds r) (fun s => s.reqFrom r.src r.fpa = true)) ∧
    (∃ r, Could (.rdx r) (fun s => s.reqFrom r.src r.fpa = true)) ∧
    (∃ r, Could (.upg r) (fun s => s.reqFrom r.src r.fpa = true)) ∧
    (∃ r, Could (.wrinvfull r) (fun s => s.reqFrom r.src r.fpa = true)) ∧
    (∃ r, Could (.wrinvpart r) (fun s => s.reqFrom r.src r.fpa = true)) ∧
    (∃ r, Could (.evict r) (fun s => s.reqFrom r.src r.fpa = true)) ∧
    (∃ r x y, Could (.atomop r x y) (fun s => s.reqFrom r.src r.fpa = true)) ∧
    (∃ m, Could (.wbdata m) (fun s => s.running = true ∧ s.present m.src = true ∧ (s.homed m.fpa = true ∨ m.src.isMod = false))) :=
  ⟨⟨(wReq .rds 64).r, wP, by decide⟩,
    ⟨(wReq .rds 64).r, wP, by decide⟩,
    ⟨(wReq .rds 64).r, wP, by decide⟩,
    ⟨(wReq .rds 64).r, wP, by decide⟩,
    ⟨(wReq .rds 64).r, wP, by decide⟩,
    ⟨(wReq .rds 64).r, wP, by decide⟩,
    ⟨(wReq .rds 64).r, 0, 0, wP, by decide⟩,
    ⟨wMsg (.host 0) 64, wP, by decide⟩⟩

/-- The hypotheses of CoherenceSnoops are met. -/
theorem met_coherence_snoops :
    (∃ m, Could (.snpinv m) (fun s => s.fromHome m = true)) ∧
    (∃ m, Could (.snpshr m) (fun s => s.fromHome m = true)) ∧
    (∃ m, Could (.snpdata m) (fun s => s.fromHome m = true)) ∧
    (∃ m, Could (.birecall m) (fun s => s.fromHome m = true)) ∧
    (∃ m w, Could (.rspi m) (fun s => s.running = true ∧ s.waitOf m.src (lineOf m.fpa) = some w)) ∧
    (∃ m w, Could (.rsps m) (fun s => s.running = true ∧ s.waitOf m.src (lineOf m.fpa) = some w ∧ (w.kind = .shr ∨ w.kind = .data))) ∧
    (∃ m w, Could (.rspo m) (fun s => s.running = true ∧ s.waitOf m.src (lineOf m.fpa) = some w ∧ w.kind = .data ∧ w.agent.isMod = true)) ∧
    (∃ m w, Could (.rspwbpend m) (fun s => s.running = true ∧ s.waitOf m.src (lineOf m.fpa) = some w)) ∧
    (∃ fpa a w, Could (.snoopTimeout fpa a) (fun s => s.waitOf a (lineOf fpa) = some w)) :=
  ⟨⟨wMsg (.mod 1) wRemFpa, wRem, by decide⟩,
    ⟨wMsg (.mod 1) wRemFpa, wRem, by decide⟩,
    ⟨wMsg (.mod 1) wRemFpa, wRem, by decide⟩,
    ⟨wMsg (.mod 1) wRemFpa, wRem, by decide⟩,
    ⟨wMsg (.host 0) 64, wWait .inv (.host 0), wSnp .inv, by decide⟩,
    ⟨wMsg (.host 0) 64, wWait .shr (.host 0), wSnp .shr, by decide⟩,
    ⟨wMsg (.mod 1) 64, wWait .data (.mod 1), wSnpMod, by decide⟩,
    ⟨wMsg (.host 0) 64, wWait .inv (.host 0), wSnp .inv, by decide⟩,
    ⟨64, .host 0, wWait .inv (.host 0), wSnp .inv, by decide⟩⟩

/-- The hypotheses of CoherenceData are met. -/
theorem met_coherence_data :
    (∃ m t, Could (.cmp m) (fun s => s.running = true ∧ s.homed m.fpa = true ∧ s.txn (lineOf m.fpa) = some t ∧ t.stage = .ack ∧ t.q.r.src = m.src)) ∧
    (∃ m, Could (.cmp m) (fun s => s.homed m.fpa = false ∧ s.fromHome m = true ∧ s.keeper.wbs.contains (.mod s.glob.midx, lineOf m.fpa) = true)) ∧
    (∃ m t, Could (.cmp m) (fun s => s.homed m.fpa = false ∧ s.fromHome m = true ∧ s.keeper.wbs.contains (.mod s.glob.midx, lineOf m.fpa) = false ∧ s.fwdTxn (lineOf m.fpa) = some t)) ∧
    (∃ m t, Could (.cmppoison m) (fun s => s.fromHome m = true ∧ s.fwdTxn (lineOf m.fpa) = some t)) ∧
    (∃ m w, Could (.datas m) (fun s => s.running = true ∧ s.holderData 0x18 m = some w)) ∧
    (∃ m t, Could (.datas m) (fun s => s.fromHome m = true ∧ s.holderData 0x18 m = none ∧ s.fwdTxn (lineOf m.fpa) = some t)) ∧
    (∃ m t, Could (.datae m) (fun s => s.fromHome m = true ∧ s.holderData 0x19 m = none ∧ s.fwdTxn (lineOf m.fpa) = some t)) ∧
    (∃ m w, Could (.datam m) (fun s => s.running = true ∧ s.holderData 0x1A m = some w)) ∧
    (∃ m t, Could (.datam m) (fun s => s.fromHome m = true ∧ s.holderData 0x1A m = none ∧ s.fwdTxn (lineOf m.fpa) = some t)) ∧
    (∃ m w, Could (.datao m) (fun s => s.running = true ∧ s.holderData 0x1B m = some w)) ∧
    (∃ k fpa q, Could (.conflictQueueResume k fpa) (fun s => s.queuedAt k fpa = some q ∧ s.mustQueue q = false)) :=
  ⟨⟨wMsg (.host 0) 64, wTxn .ack, wOpen .ack, by decide⟩,
    ⟨wMsg (.mod 1) wRemFpa, { wRem with keeper := { wbs := [(.mod 0, lineOf wRemFpa)] } }, by decide⟩,
    ⟨wMsg (.mod 1) wRemFpa, wFwdTxn, wRemFwd, by decide⟩,
    ⟨wMsg (.mod 1) wRemFpa, wFwdTxn, wRemFwd, by decide⟩,
    ⟨wMsg (.host 0) 64, wWait .shr (.host 0), wSnp .shr, by decide⟩,
    ⟨wMsg (.mod 1) wRemFpa, wFwdTxn, wRemFwd, by decide⟩,
    ⟨wMsg (.mod 1) wRemFpa, wFwdTxn, wRemFwd, by decide⟩,
    ⟨wMsg (.host 0) 64, wWait .inv (.host 0), wSnp .inv, by decide⟩,
    ⟨wMsg (.mod 1) wRemFpa, wFwdTxn, wRemFwd, by decide⟩,
    ⟨wMsg (.mod 1) 64, wWait .data (.mod 1), wSnpMod, by decide⟩,
    ⟨0, 64, wReq .rds 64, { wP with keeper := { cq := [wReq .rds 64] } }, by decide⟩⟩

/-- The hypotheses of HostRequests are met. -/
theorem met_host_requests :
    (∃ h i off n e fpa k, Could (.m2sReq h) (fun s => s.hostTakes h.port = true ∧ h.hoff < 2 ^ 46 ∧ s.isDb h.port = true ∧ s.hostAt h.port = some i ∧ off = h.hoff / 64 * 64 ∧ s.windowAt i off = none ∧ s.translate i off = some (n, e, fpa) ∧ e.access ≠ 1 ∧ k = hostKind true h ∧ (k.1 = .rds ∨ k.1 = .rdx))) ∧
    (∃ h i off n e fpa, Could (.m2sReq h) (fun s => s.hostTakes h.port = true ∧ h.hoff < 2 ^ 46 ∧ s.isDb h.port = true ∧ s.hostAt h.port = some i ∧ off = h.hoff / 64 * 64 ∧ s.windowAt i off = none ∧ s.translate i off = some (n, e, fpa) ∧ h.evict = true)) ∧
    (∃ h i, Could (.m2sRwd h) (fun s => s.hostTakes h.port = true ∧ h.hoff < 2 ^ 46 ∧ s.hostAt h.port = some i ∧ s.windowAt i h.hoff = none ∧ (s.isDb h.port = false ∨ h.ptl = true ∨ 2 ≤ h.mv))) ∧
    (∃ h i fpa, Could (.m2sRwd h) (fun s => s.hostTakes h.port = true ∧ h.hoff < 2 ^ 46 ∧ s.hostAt h.port = some i ∧ s.windowAt i h.hoff = none ∧ s.isDb h.port = true ∧ h.ptl = false ∧ h.mv ≤ 1 ∧ s.backTrans h.port i (h.hoff / 64 * 64) = some fpa)) ∧
    (∃ h i n, Could (.m2sRwd h) (fun s => s.hostTakes h.port = true ∧ h.hoff < 2 ^ 46 ∧ s.hostAt h.port = some i ∧ s.windowAt i h.hoff = some n)) ∧
    (∃ h i n, Could (.postingWindowWrite h) (fun s => s.hostTakes h.port = true ∧ h.hoff < 2 ^ 46 ∧ s.hostAt h.port = some i ∧ s.windowAt i h.hoff = some n)) ∧
    (∃ p off sh i fpa, Could (.m2sBirsp p off ⟨sh, false⟩) (fun s => s.running = true ∧ (s.port p).up = true ∧ s.isDb p = true ∧ s.hostAt p = some i ∧ s.backTrans p i (off / 64 * 64) = some fpa ∧ s.hs.biOpen.contains (p, lineOf fpa) = true)) ∧
    (∃ p off sh i fpa, Could (.m2sBirsp p off ⟨sh, true⟩) (fun s => s.running = true ∧ (s.port p).up = true ∧ s.isDb p = true ∧ s.hostAt p = some i ∧ s.backTrans p i (off / 64 * 64) = some fpa ∧ s.hs.biOpen.contains (p, lineOf fpa) = true)) ∧
    (∃ p off i fpa, Could (.biconflict p off) (fun s => s.running = true ∧ (s.port p).up = true ∧ s.isDb p = true ∧ s.hostAt p = some i ∧ s.backTrans p i (off / 64 * 64) = some fpa ∧ s.hs.owed.contains (p, lineOf fpa) = false)) ∧
    (∃ p off i fpa, Could (.biconflict p off) (fun s => s.running = true ∧ (s.port p).up = true ∧ s.isDb p = true ∧ s.hostAt p = some i ∧ s.backTrans p i (off / 64 * 64) = some fpa ∧ s.hs.owed.contains (p, lineOf fpa) = true)) ∧
    (∃ d x r p, Could (.d2hReq d x r) (fun s => s.running = true ∧ s.svc.ingressShut = false ∧ x < 9 ∧ r.fpa < 2 ^ 52 ∧ s.devPort d = some p ∧ (s.port p).up = true ∧ (s.port p).fenced = false)) ∧
    (∃ d r p, Could (.d2hReq d 9 r) (fun s => s.running = true ∧ s.svc.ingressShut = false ∧ r.fpa < 2 ^ 52 ∧ s.devPort d = some p ∧ (s.port p).up = true ∧ (s.port p).fenced = false)) ∧
    (∃ p fpa x d a, Could (.s2mDrs p fpa x d) (fun s => s.handedAt p fpa false = some a)) ∧
    (∃ p fpa a, Could (.s2mNdrCmp p fpa) (fun s => s.handedAt p fpa true = some a)) ∧
    (∃ p l a addr len wr d h q, Could (.passthruMemRequest ⟨p, l⟩ a addr len wr d) (fun s => s.passLive p = true ∧ s.bridgeHost p l = some h ∧ s.svc.ingressShut = false ∧ 1 ≤ len ∧ len ≤ 4096 ∧ 2 ^ 46 ≤ addr ∧ s.hostPort h = some q)) ∧
    (∃ p l a addr len wr d h, Could (.passthruMemRequest ⟨p, l⟩ a addr len wr d) (fun s => s.passLive p = true ∧ s.bridgeHost p l = some h ∧ s.svc.ingressShut = false ∧ 1 ≤ len ∧ len ≤ 4096 ∧ addr < 2 ^ 46 ∧ s.sliceKey h a = none)) ∧
    (∃ p l a addr len wr d h n, Could (.passthruMemRequest ⟨p, l⟩ a addr len wr d) (fun s => s.passLive p = true ∧ s.bridgeHost p l = some h ∧ s.svc.ingressShut = false ∧ 1 ≤ len ∧ len ≤ 4096 ∧ addr < 2 ^ 46 ∧ s.sliceKey h a = some n)) ∧
    (∃ p l t h q, Could (.cxlioTlp ⟨p, l⟩ false t) (fun s => s.running = true ∧ s.isUp p = false ∧ s.passLive p = true ∧ s.bridgeHost p l = some h ∧ s.hostPort h = some q)) ∧
    (∃ p l t h q, Could (.cxlioTlp ⟨p, l⟩ true t) (fun s => s.isUp p = false ∧ s.running = true ∧ s.passLive p = true ∧ s.bridgeHost p l = some h ∧ s.hostPort h = some q ∧ (isCfg t = false ∨ (s.port q).enum = false))) ∧
    (∃ p l t h q, Could (.cxlioTlp ⟨p, l⟩ true t) (fun s => s.isUp p = false ∧ s.running = true ∧ s.passLive p = false ∧ s.bridgeHost p l = some h ∧ s.hostPort h = some q ∧ (isCfg t = false ∨ (s.port q).enum = false))) ∧
    (∃ p l t, Could (.cxlioTlp ⟨p, l⟩ true t) (fun s => s.running = true ∧ s.isUp p = true ∧ (s.port p).up = true ∧ (s.port p).enum = true ∧ isCfg t = true)) :=
  ⟨⟨wHop, 0, 64, 0, wEnt, 64, (.rds, true), wL, by decide⟩,
    ⟨{ wHop with evict := true }, 0, 64, 0, wEnt, 64, wL, by decide⟩,
    ⟨{ wHop with mv := 2 }, 0, wL, by decide⟩,
    ⟨wHop, 0, 64, wL, by decide⟩,
    ⟨wHop, 0, 1, wWinS, by decide⟩,
    ⟨wHop, 0, 1, wWinS, by decide⟩,
    ⟨0, 64, true, 0, 64, wBi, by decide⟩,
    ⟨0, 64, false, 0, 64, wBi, by decide⟩,
    ⟨0, 64, 0, 64, wL, by decide⟩,
    ⟨0, 64, 0, 64, { wL with hs := { wL.hs with owed := [(0, 1)] } }, by decide⟩,
    ⟨0, 8, (wReq .rds 64).r, 4, wDev, by decide⟩,
    ⟨0, (wReq .rds 64).r, 4, wDev, by decide⟩,
    ⟨4, 64, false, 0, wAcc false, wHanded false, by decide⟩,
    ⟨4, 64, wAcc true, wHanded true, by decide⟩,
    ⟨5, 0, 0, 2 ^ 46, 4096, true, [], 0, 0, wPass, by decide⟩,
    ⟨5, 0, 99, 0, 1, false, [], 0, wPass, by decide⟩,
    ⟨5, 0, 0, 4, 100, true, [1, 2], 0, 0, { wPass with slices := [(0, wSl0)] }, by decide⟩,
    ⟨5, 0, [1], 0, 0, wPass, by decide⟩,
    ⟨5, 0, [1], 0, 0, wPass, by decide⟩,
    ⟨6, 0, [1], 0, 0, wPass, by decide⟩,
    ⟨0, 0, [4], wArr, by decide⟩⟩

/-- The hypotheses of Arbiters are met. -/
theorem met_arbiters :
    (∃ p q w u, Could (.arbRequest p q w u) (fun s => s.isDown p = true ∧ q < 52 ∧ 1 ≤ u ∧ u ≤ 32 ∧ ((s.arbOf p).pend.filter (fun x => x.req == q)).length < 64 ∧ (s.arbOf p).unsent.any (fun x => x.req == q) = false ∧ (s.arbOf p).fenced = false)) ∧
    (∃ p x, Could (.arbGrant p) (fun s => s.isDown p = true ∧ s.arbIdle p = true ∧ s.arbNext p = some x)) ∧
    (∃ p g x, Could (.arbHandoffDone p) (fun s => (s.arbOf p).grant = some g ∧ (s.port p).lanes ≠ .l1 ∧ g.acc = some x)) ∧
    (∃ p g, Could (.arbHandoffDone p) (fun s => (s.arbOf p).grant = some g ∧ (s.port p).lanes ≠ .l1 ∧ g.acc = none)) ∧
    (∃ p g, Could (.arbHold p) (fun s => (s.arbOf p).grant = some g ∧ bit (s.arbOf p).ctl.toNat 30 = true)) ∧
    (∃ p q, Could (.arbMask p q) (fun s => s.isDown p = true ∧ q < 52 ∧ (s.arbOf p).side.getLsbD q = false)) ∧
    (∃ p q, Could (.arbUnmask p q) (fun s => (s.arbOf p).side.getLsbD q = true ∧ s.xbar.down.getLsbD q = false)) ∧
    (∃ p q x, Could (.arbParkTimeout p q) (fun s => (s.arbOf p).pend.find? (fun x => x.req == q) = some x)) ∧
    (∃ d p, Could (.scrubPatrol d p) (fun s => d < 2 ∧ s.isDown p = true ∧ s.running = true ∧ s.xbar.scrubOff.contains d = false ∧ s.diePoints d = true ∧ (s.arbOf p).fenced = false ∧ ((s.arbOf p).pend.filter (fun x => x.req == 50 + d)).length < 64)) :=
  ⟨⟨4, 51, true, 32, wP, by decide⟩,
    ⟨4, wPend, { wP with arb := [(4, { pend := [wPend] })] }, by decide⟩,
    ⟨4, { wPend with acc := some (wAcc true) }, wAcc true, { wP with arb := [(4, { grant := some { wPend with acc := some (wAcc true) } })] }, by decide⟩,
    ⟨4, wPend, { wP with arb := [(4, { grant := some wPend })] }, by decide⟩,
    ⟨4, wPend, { wP with arb := [(4, { grant := some wPend, ctl := 0x40000000 })] }, by decide⟩,
    ⟨4, 51, wP, by decide⟩,
    ⟨4, 0, { wP with arb := [(4, { side := 1 })] }, by decide⟩,
    ⟨4, 0, wPend, { wP with arb := [(4, { pend := [wPend] })] }, by decide⟩,
    ⟨1, 4, wP, by decide⟩⟩

/-- The hypotheses of GroupsAndClocks are met. -/
theorem met_groups_and_clocks :
    (∃ g, Could (.perstNLow g) (fun s => g < 16 ∧ roleOf (mapEntry s.ports.map g) = 1 ∧ s.perstDown g = false ∧ (s.group g).hostLow = false)) ∧
    (∃ g, Could (.perstNRelease g) (fun s => (s.group g).hostLow = true)) ∧
    (∃ g, Could (.perstReleaseTimer g) (fun s => g < 16 ∧ roleOf (mapEntry s.ports.map g) = 2 ∧ (s.group g).driven = true ∧ (s.group g).bringUp = true ∧ s.grpLive g = true ∧ (s.groupPorts g).all (fun p => (s.port p).lanes != .deep) = true)) ∧
    (∃ k, Could (.refclkStable k) (fun s => k < 8 ∧ s.ports.refOk.contains k = false)) ∧
    (∃ k, Could (.refclkLoss k) (fun s => k < 8 ∧ s.ports.refLost.contains k = false)) ∧
    (∃ k, Could (.refclkReturn k) (fun s => s.ports.refLost.contains k = true)) ∧
    (∃ p x, Could (.receiverDetect p x) (fun s => s.isPort p = true ∧ (s.port p).lanes = .detect)) :=
  ⟨⟨0, wP, by decide⟩,
    ⟨0, { wP with ports := { wP.ports with group := [(0, { hostLow := true })] } }, by decide⟩,
    ⟨1, wGrp, by decide⟩,
    ⟨7, wP, by decide⟩,
    ⟨0, { wP with ports := { wP.ports with refOk := [0] } }, by decide⟩,
    ⟨0, { wP with ports := { wP.ports with refLost := [0] } }, by decide⟩,
    ⟨4, true, wLane .detect, by decide⟩⟩

/-- The hypotheses of LinksAndPartners are met. -/
theorem met_links_and_partners :
    (∃ p w r v i, Could (.linkUp p ⟨w, v⟩ r i) (fun s => s.isPort p = true ∧ (s.port p).lanes = .training ∧ (w = 2 ∨ w = 4 ∨ w = 8 ∨ w = 16) ∧ w ≤ s.maxWidth p ∧ 1 ≤ r ∧ r ≤ s.maxRate p ∧ (i.kind == 0) = s.isUp p ∧ (i.cxl = 2 → r ≤ 5))) ∧
    (∃ p, Could (.ideEstablished p) (fun s => (s.port p).up = true)) ∧
    (∃ p c i, Could (.memoryActive p c) (fun s => (s.port p).up = true ∧ (s.port p).enum = true ∧ (s.port p).pid = some i ∧ (i.kind = 1 ∨ i.kind = 4))) ∧
    (∃ p i, Could (.memoryActiveTimeout p) (fun s => (s.port p).up = true ∧ (s.port p).enum = true ∧ (s.port p).memActive = false ∧ (s.port p).pid = some i ∧ (i.kind = 1 ∨ i.kind = 4))) ∧
    (∃ p i, Could (.arrive p) (fun s => s.canArrive p = true ∧ (s.port p).pid = some i)) ∧
    (∃ p c x i, Could (.spdmSessionComplete p c true) (fun s => (s.port p).up = true ∧ s.isUp p = true ∧ s.partner p = some x ∧ Tbl.find s.pool.newcomer p = some i)) ∧
    (∃ p c x i, Could (.spdmSessionComplete p c false) (fun s => (s.port p).up = true ∧ s.isUp p = true ∧ s.partner p = some x ∧ Tbl.find s.pool.newcomer p = some i ∧ x.matches (s.arriveKind p { i with cert := some c }).1 { i with cert := some c } = true)) ∧
    (∃ p c x i, Could (.spdmSessionComplete p c false) (fun s => (s.port p).up = true ∧ s.isUp p = true ∧ s.partner p = some x ∧ Tbl.find s.pool.newcomer p = some i ∧ x.matches (s.arriveKind p { i with cert := some c }).1 { i with cert := some c } = false)) ∧
    (∃ p c x, Could (.spdmSessionComplete p c false) (fun s => (s.port p).up = true ∧ s.isUp p = true ∧ s.partner p = some x ∧ Tbl.find s.pool.newcomer p = none ∧ x.timerEnd = none)) ∧
    (∃ p c, Could (.spdmSessionComplete p c false) (fun s => (s.port p).up = true ∧ s.isUp p = true ∧ s.partner p = none)) ∧
    (∃ p, Could (.linkL1Entry ⟨p, 0⟩) (fun s => (s.port p).lanes = .l0 ∧ (s.port p).aspm = true)) ∧
    (∃ p w, Could (.linkL1Entry ⟨p, w⟩) (fun s => (s.port p).lanes = .l0 ∧ w ≠ 0 ∧ w < (s.port p).width ∧ (s.port p).l0p = true)) ∧
    (∃ p, Could (.linkL1Exit p) (fun s => ((s.port p).lanes = .l1 ∨ (s.port p).lanes = .l0p) ∧ (s.port p).l1Wait = false)) ∧
    (∃ p g x, Could (.linkL1Exit p) (fun s => (s.port p).lanes = .l1 ∧ (s.port p).l1Wait = true ∧ (s.arbOf p).grant = some g ∧ g.acc = some x)) :=
  ⟨⟨4, 16, 6, true, wPid 1, wLane .training, by decide⟩,
    ⟨0, wP, by decide⟩,
    ⟨4, 8, wPid 1, wEnum, by decide⟩,
    ⟨4, wPid 1, wEnum, by decide⟩,
    ⟨0, wPid 0, wArr, by decide⟩,
    ⟨0, 9, wHost, wPid 0, wNew, by decide⟩,
    ⟨0, 9, { wHost with cert := some 9 }, { wPid 0 with serial := some 7 }, wBack, by decide⟩,
    ⟨0, 9, wHost, wPid 0, wNew, by decide⟩,
    ⟨0, 9, wHost, wP, by decide⟩,
    ⟨0, 9, { wP with pool := {} }, by decide⟩,
    ⟨4, { wP with ports := { wP.ports with port := [(4, { lanes := .l0, aspm := true })] } }, by decide⟩,
    ⟨4, 8, { wP with ports := { wP.ports with port := [(4, { lanes := .l0, width := 16, l0p := true })] } }, by decide⟩,
    ⟨4, wLane .l0p, by decide⟩,
    ⟨4, { wPend with acc := some (wAcc true) }, wAcc true, { wP with ports := { wP.ports with port := [(4, { lanes := .l1, l1Wait := true })] }, arb := [(4, { grant := some { wPend with acc := some (wAcc true) } })] }, by decide⟩⟩

/-- The hypotheses of LinksDown are met. -/
theorem met_links_down :
    (∃ p k, Could (.linkDown p k) (fun s => ((s.port p).up = true ∨ (s.port p).lanes = .training) ∧ (k = 1 ∨ k = 2))) ∧
    (∃ p, Could (.linkLevelReset p) (fun s => (s.port p).up = true)) ∧
    (∃ p, Could (.ideIntegrityFailure p) (fun s => (s.port p).up = true ∧ (s.port p).ide = true)) ∧
    (∃ p x, Could (.departureSweepDone p) (fun s => s.partner p = some x ∧ x.leaving = true)) ∧
    (∃ p x, Could (.departureTimerExpiry p) (fun s => p < 64 ∧ s.partner p = some x ∧ x.timerEnd.isSome = true ∧ x.leaving = false ∧ Tbl.find (s.expire p).pool.newcomer p = none)) ∧
    (∃ p x i, Could (.departureTimerExpiry p) (fun s => p < 64 ∧ s.partner p = some x ∧ x.timerEnd.isSome = true ∧ x.leaving = false ∧ Tbl.find (s.expire p).pool.newcomer p = some i)) ∧
    (∃ p, Could (.departureTimerExpiry p) (fun s => 0x40 ≤ p ∧ p ≤ 0x47 ∧ s.hier.reserved ≠ [])) ∧
    (∃ p fpa x, Could (.dsCplTimeout p fpa) (fun s => s.isDown p = true ∧ (s.port p).up = true ∧ (s.arbOf p).handed.find? (fun x => lineOf x.fpa == lineOf fpa) = some x)) ∧
    (∃ p fpa x, Could (.usCplTimeout p fpa) (fun s => (s.port p).open_.find? (fun x => x.1 == fpa / 64 * 64) = some x ∧ x.2 = 0)) ∧
    (∃ p fpa x, Could (.usCplTimeout p fpa) (fun s => (s.port p).open_.find? (fun x => x.1 == fpa / 64 * 64) = some x ∧ x.2 = 1 ∧ s.homed (fpa / 64 * 64) = true)) ∧
    (∃ fpa a t, Could (.trCplTimeout fpa a) (fun s => s.homed fpa = false ∧ s.txn (lineOf fpa) = some t ∧ t.stage = .fwd ∧ t.psn = true ∧ t.q.r.src = a)) :=
  ⟨⟨0, 2, wP, by decide⟩,
    ⟨0, wP, by decide⟩,
    ⟨0, { wP with ports := { wP.ports with port := [(0, { lanes := .l0, width := 16, rate := 6, ide := true })] } }, by decide⟩,
    ⟨0, { wHost with leaving := true }, { wP with pool := { wP.pool with partner := [(0, { wHost with leaving := true })] } }, by decide⟩,
    ⟨0, { wHost with timerEnd := some 5 }, { wP with pool := { wP.pool with partner := [(0, { wHost with timerEnd := some 5 })] } }, by decide⟩,
    ⟨0, { wHost with timerEnd := some 5 }, wPid 0, wNewT, by decide⟩,
    ⟨0x47, { wP with hier := { reserved := [(5, 1, 9)] } }, by decide⟩,
    ⟨4, 64, wAcc false, wHanded false, by decide⟩,
    ⟨0, 64, (64, 0), { wP with ports := { wP.ports with port := [(0, { open_ := [(64, 0)] })] } }, by decide⟩,
    ⟨0, 64, (64, 1), { wP with ports := { wP.ports with port := [(0, { open_ := [(64, 1)] })] } }, by decide⟩,
    ⟨wRemFpa, .host 0, { wFwdTxn with psn := true }, { wRem with keeper := { txns := [{ wFwdTxn with psn := true }] } }, by decide⟩⟩

/-- The hypotheses of TrunkBringUp are met. -/
theorem met_trunk_bring_up :
    (∃ t b, Could (.trunkTrainDone t b) (fun s => s.trunkLive t = true ∧ ((s.tp t).state = .train ∨ (s.tp t).state = .hold))) ∧
    (∃ t, Could (.trunkTrainTimeout t) (fun s => s.trunkLive t = true ∧ ((s.tp t).state = .train ∨ (s.tp t).state = .hold))) ∧
    (∃ t n, Could (.trunkAlignDone ⟨t, n⟩) (fun s => s.trunkLive t = true ∧ (s.tp t).state = .align ∧ (s.tp t).aligned = true ∧ n ≤ 80)) ∧
    (∃ t n, Could (.trunkAlignDone ⟨t, n⟩) (fun s => s.trunkLive t = true ∧ (s.tp t).state = .hold ∧ (s.tp t).aligned = true ∧ n ≤ 80)) ∧
    (∃ t l x n k, Could (.laneMarker t l true x n k) (fun s => s.trunkLive t = true ∧ l < 4 ∧ k < 16 ∧ x < 4 ∧ n < 65536 ∧ (s.tp t).state ≠ .off ∧ (s.tp t).state ≠ .train ∧ (s.tp t).rx ≠ .tl3)) ∧
    (∃ t l x n k, Could (.laneMarker t l false x n k) (fun s => s.trunkLive t = true ∧ l < 4 ∧ k < 16 ∧ (s.tp t).state ≠ .off ∧ (s.tp t).state ≠ .train ∧ (s.tp t).rx = .tl0)) ∧
    (∃ t sn i r c, Could (.initCredit t sn i r c) (fun s => s.trunkLive t = true ∧ (s.tp t).state = .hold)) ∧
    (∃ t sn i r c, Could (.initCredit t sn i r c) (fun s => s.trunkLive t = true ∧ (s.tp t).state = .init ∧ i < 16 ∧ (s.tp t).stopped = false ∧ (s.modTp t (fun x => { x with peerSer := sn, peerIdx := i, peerRole := r, peerInit := (i, r), lastRet := c.zipIdx.foldl (fun (m : Tbl Nat) p => if p.2 < 12 then Tbl.set 0 m p.2 (p.1 % credMod (p.2 % 2)) else m) [] })).twinOf t sn = true)) ∧
    (∃ t sn i r c, Could (.initCredit t sn i r c) (fun s => s.trunkLive t = true ∧ (s.tp t).state = .init ∧ i < 16 ∧ (s.tp t).stopped = false ∧ (s.modTp t (fun x => { x with peerSer := sn, peerIdx := i, peerRole := r, peerInit := (i, r), lastRet := c.zipIdx.foldl (fun (m : Tbl Nat) p => if p.2 < 12 then Tbl.set 0 m p.2 (p.1 % credMod (p.2 % 2)) else m) [] })).twinOf t sn = false ∧ ¬ (s.glob.hrole = 1 ∧ r = 1))) ∧
    (∃ t n k, Could (.authChal t n) (fun s => s.trunkLive t = true ∧ (s.tp t).state = .auth ∧ s.hier.key = some k)) ∧
    (∃ t n, Could (.authChal t n) (fun s => s.trunkLive t = true ∧ (s.tp t).state = .auth ∧ s.hier.key = none)) ∧
    (∃ t h k n, Could (.authResp t h) (fun s => s.trunkLive t = true ∧ (s.tp t).state = .auth ∧ (s.tp t).noncePeer = some n ∧ s.hier.key = some k ∧ h = authResp k ((s.tp t).nonceOwn.getD 0) n (s.tp t).peerSer s.glob.serial (s.tp t).peerInit.1 (s.tp t).peerInit.2)) ∧
    (∃ t h k n, Could (.authResp t h) (fun s => s.trunkLive t = true ∧ (s.tp t).state = .auth ∧ (s.tp t).noncePeer = some n ∧ s.hier.key = some k ∧ h ≠ authResp k ((s.tp t).nonceOwn.getD 0) n (s.tp t).peerSer s.glob.serial (s.tp t).peerInit.1 (s.tp t).peerInit.2)) ∧
    (∃ t, Could (.authFailRetry t) (fun s => s.trunkLive t = true ∧ (s.tp t).state = .authFail ∧ (s.tp t).authFails < 3)) ∧
    (∃ t, Could (.controlFlitRepeat t) (fun s => s.trunkLive t = true ∧ (s.tp t).state = .init)) ∧
    (∃ t, Could (.controlFlitRepeat t) (fun s => s.trunkLive t = true ∧ (s.tp t).state = .auth ∧ (s.tp t).verified = false)) ∧
    (∃ t, Could (.controlFlitRepeat t) (fun s => s.trunkLive t = true ∧ (s.tp t).state = .hold ∧ (s.tp t).aligned = true)) :=
  ⟨⟨1, true, wTs .train, by decide⟩,
    ⟨1, wTs .train, by decide⟩,
    ⟨1, 80, wTs .align, by decide⟩,
    ⟨1, 80, wTs .hold, by decide⟩,
    ⟨1, 3, 3, 65535, 15, wT, by decide⟩,
    ⟨1, 3, 3, 65535, 15, wT, by decide⟩,
    ⟨1, 5, 1, 2, [], wTs .hold, by decide⟩,
    ⟨1, 5, 1, 2, [], wTwin, by decide⟩,
    ⟨1, 5, 15, 2, [512, 512], wTs .init, by decide⟩,
    ⟨1, 9, 7, wAuth (some 7), by decide⟩,
    ⟨1, 9, wAuth none, by decide⟩,
    ⟨1, authResp 7 0 9 0 0 0 2, 7, 9, wAuth (some 7), ⟨by decide, by decide, by decide, by decide, rfl⟩⟩,
    ⟨1, ~~~authResp 7 0 9 0 0 0 2, 7, 9, wAuth (some 7), ⟨by decide, by decide, by decide, by decide, not_ne _⟩⟩,
    ⟨1, wTs .authFail, by decide⟩,
    ⟨1, wTs .init, by decide⟩,
    ⟨1, wTs .auth, by decide⟩,
    ⟨1, wTs .hold, by decide⟩⟩

/-- The hypotheses of TrunkFlits are met. -/
theorem met_trunk_flits :
    (∃ fl m, Could (.payloadFlit fl m) (fun s => s.trunkLive fl.tp = true ∧ (s.tp fl.tp).state = .active ∧ (s.tp fl.tp).rx = .tl0 ∧ fl.ok = false)) ∧
    (∃ fl m, Could (.payloadFlit fl m) (fun s => s.trunkLive fl.tp = true ∧ (s.tp fl.tp).state = .active ∧ (s.tp fl.tp).rx = .tl0 ∧ fl.ok = true ∧ fl.seq % 4096 ≠ ((s.flitNotes fl).tp fl.tp).exp)) ∧
    (∃ fl m, Could (.payloadFlit fl m) (fun s => s.trunkLive fl.tp = true ∧ (s.tp fl.tp).state = .active ∧ (s.tp fl.tp).rx = .tl0 ∧ fl.ok = true ∧ fl.seq % 4096 = ((s.flitNotes fl).tp fl.tp).exp ∧ m.cls < 6 ∧ ((s.flitNotes fl).tp fl.tp).roomFor m = true)) ∧
    (∃ fl m, Could (.payloadFlit fl m) (fun s => s.trunkLive fl.tp = true ∧ (s.tp fl.tp).state = .active ∧ (s.tp fl.tp).rx = .tl0 ∧ fl.ok = true ∧ fl.seq % 4096 = ((s.flitNotes fl).tp fl.tp).exp ∧ m.cls < 6 ∧ ((s.flitNotes fl).tp fl.tp).roomFor m = false)) ∧
    (∃ fl d, Could (.nullFlit ⟨fl, d⟩) (fun s => s.trunkLive fl.tp = true ∧ (s.tp fl.tp).state = .active ∧ (s.tp fl.tp).rx = .tl0)) ∧
    (∃ t q, Could (.replayReq t q) (fun s => s.trunkLive t = true ∧ (s.tp t).state = .active)) ∧
    (∃ t e r, Could (.replayTimeout t) (fun s => s.trunkLive t = true ∧ (s.tp t).state = .active ∧ (s.tp t).replay = e :: r)) ∧
    (∃ t id q c, Could (.resume t id q c true) (fun s => s.trunkLive t = true ∧ (s.tp t).state = .hold ∧ (s.tp t).aligned = true)) ∧
    (∃ t id q c, Could (.resume t id q c false) (fun s => s.trunkLive t = true ∧ (s.tp t).state = .hold ∧ (s.tp t).aligned = true ∧ (s.tp t).linkId ≠ some id)) ∧
    (∃ t id q c, Could (.resume t id q c false) (fun s => s.trunkLive t = true ∧ (s.tp t).state = .hold ∧ (s.tp t).aligned = true ∧ (s.tp t).linkId = some id)) :=
  ⟨⟨{ wFlit with ok := false }, wTm, wT, by decide⟩,
    ⟨{ wFlit with seq := 5 }, wTm, wT, by decide⟩,
    ⟨wFlit, wTm, wT, by decide⟩,
    ⟨wFlit, wTm, wTnone, by decide⟩,
    ⟨wFlit, false, wT, by decide⟩,
    ⟨1, 0, wT, by decide⟩,
    ⟨1, (0, wTm, 0), [], wTrep, by decide⟩,
    ⟨1, 0, 0, [], wTs .hold, by decide⟩,
    ⟨1, 0, 0, [], wTs .hold, by decide⟩,
    ⟨1, 8, 0, [], wTs .hold, by decide⟩⟩

/-- The hypotheses of TrunkLinkEvents are met. -/
theorem met_trunk_link_events :
    (∃ t k, Could (.linkSleep t k) (fun s => s.trunkLive t = true ∧ (s.tp t).state = .active ∧ k < 256)) ∧
    (∃ t i, Could (.reset t i) (fun s => s.trunkLive t = true ∧ ((s.tp t).state = .active ∨ (s.tp t).state = .hold ∨ (s.tp t).state = .auth ∨ (s.tp t).state = .init) ∧ i < 16)) ∧
    (∃ t, Could (.sleep1Codeword t) (fun s => s.trunkLive t = true ∧ (s.tp t).state = .active ∧ (s.tp t).rx = .tl0)) ∧
    (∃ t, Could (.tl1IdleEntry t) (fun s => s.trunkLive t = true ∧ (s.tp t).state = .active ∧ (s.tp t).tx = .tl0 ∧ bit (s.tp t).ctl.toNat 30 = true ∧ (s.tp t).lastPay + usTicks 10 ≤ s.now)) ∧
    (∃ t, Could (.wakeSequence t) (fun s => s.trunkLive t = true ∧ (s.tp t).state = .active ∧ (s.tp t).rx = .tl1)) ∧
    (∃ t, Could (.wakeLockTimeout t) (fun s => s.trunkLive t = true ∧ (s.tp t).state = .active ∧ (s.tp t).rx = .tl1 ∧ (s.tp t).lock ≠ 0xF)) ∧
    (∃ t, Could (.errorWindowEval t) (fun s => s.trunkLive t = true ∧ (s.tp t).state = .active ∧ (s.tp t).rx = .tl0)) ∧
    (∃ t l, Could (.cdrLoss t l) (fun s => s.trunkLive t = true ∧ l < 4 ∧ (s.tp t).rx = .tl0 ∧ (s.tp t).state ≠ .off)) ∧
    (∃ d, Could (.trefclkLoss d) (fun s => s.glob.pstate = .active ∧ d < 2)) ∧
    (∃ t, Could (.linkHoldExpiry t) (fun s => s.trunkLive t = true ∧ (s.tp t).state = .hold)) :=
  ⟨⟨1, 255, wT, by decide⟩,
    ⟨1, 15, wT, by decide⟩,
    ⟨1, wT, by decide⟩,
    ⟨1, wTidle, by decide⟩,
    ⟨1, wTwake, by decide⟩,
    ⟨1, wTwake, by decide⟩,
    ⟨1, wT, by decide⟩,
    ⟨1, 3, wT, by decide⟩,
    ⟨1, wT, by decide⟩,
    ⟨1, wTs .hold, by decide⟩⟩

/-- The hypotheses of StepWithoutCommand are met. -/
theorem met_step_without_command :
    (∃ (s : State) (x : Instr × State), s.pending = [] ∧ s.nextWaiting = some x) ∧
    (∃ s : State, s.pending = [] ∧ s.nextWaiting = none) ∧
    (∃ s : State, s.pending = [] ∧ s.nextWaiting = none ∧ s.xbar.flying.all (fun x => decide (s.now + 1 < x.2.1)) = true) :=
  ⟨⟨{ wS with mbx := { wS.mbx with waiting := [(.moduleStatus wF, 0xC102, 1, 0xFFFF)] } }, _, rfl, rfl⟩,
    ⟨wS, rfl, rfl⟩,
    ⟨wS, rfl, rfl, rfl⟩⟩

/-- The hypotheses of FramesAdmitted are met. -/
theorem met_frames_admitted :
    (∃ s r sl s1, State.executes s 0xC102 (wFm 0xC102) (.moduleStatus (wFm 0xC102)) = some (r, sl, s1)) ∧
    (∃ (s : State) (x : Slice) (k : SChan), s.glob.pstate = .active ∧ s.slice 1 = some x ∧ x.chan = some k ∧ k.zornes.head? = some (9, 0xC101)) ∧
    (∃ s r sl s1, State.executes s 0xC102 { wF with xport := .trunk, fwd := true, fwdRole := 1 } (.moduleStatus wF) = some (r, sl, s1)) :=
  ⟨⟨wS, _, _, _, session_executes rfl rfl rfl⟩,
    ⟨{ wL with slices := [(1, { wSl with chan := some { wChan with zornes := [(9, 0xC101)] } })] }, _, _, rfl, rfl, rfl, rfl⟩,
    ⟨{ wS with mbx := { wS.mbx with trunkFrame := some { wF with xport := .trunk, fwd := true, fwdRole := 1 } } }, _, _, _, rfl⟩⟩

/-- The hypotheses of FramesRefused are met. -/
theorem met_frames_refused :
    (∃ (s : State) (f : Frame), s.mbx.resumed = none ∧ f.xport = .smbus ∧ s.glob.pstate = .active ∧ f.version ≠ 4) ∧
    (∃ (s : State) (f : Frame), s.mbx.resumed = none ∧ f.xport = .i3c ∧ s.glob.pstate = .active ∧ f.version = 4 ∧ 4096 < f.plen) ∧
    (∃ (s : State) (f : Frame), s.glob.pstate = .active ∧ s.session f.sid = none) ∧
    (∃ (s : State) (x : Session) (f : Frame), s.session f.sid = some x ∧ x.authed = true ∧ f.mac ≠ commandMac f 0xC102 x.sk ∧ x.badMacs < 2) ∧
    (∃ (s : State) (x : Session) (f : Frame), s.session f.sid = some x ∧ x.authed = true ∧ f.mac ≠ commandMac f 0xC102 x.sk ∧ 2 ≤ x.badMacs) ∧
    (∃ (s : State) (x : Session) (f : Frame), s.session f.sid = some x ∧ f.mac = commandMac f 0xC102 x.sk ∧ f.seq ≠ x.seqNext) ∧
    (∃ (s : State) (x : Session), s.session (wFm 0xC104).sid = some x ∧ (wFm 0xC104).mac = commandMac (wFm 0xC104) 0xC104 x.sk ∧ (wFm 0xC104).seq = x.seqNext ∧ roleMay x.role 0xC104 = false) :=
  ⟨⟨wS, { wF with version := 3 }, rfl, rfl, rfl, by decide⟩,
    ⟨wS, { wF with xport := .i3c, plen := 4097 }, rfl, rfl, rfl, rfl, by decide⟩,
    ⟨wS, { wF with sid := 9 }, rfl, rfl⟩,
    ⟨wS, wSes, wFx, rfl, rfl, not_ne (commandMac wF 0xC102 0), by decide⟩,
    ⟨{ wS with mbx := { wS.mbx with sessions := [{ wSes with badMacs := 2 }] } }, { wSes with badMacs := 2 }, wFx, rfl, rfl, not_ne (commandMac wF 0xC102 0), by decide⟩,
    ⟨wS, wSes, { wF with seq := 7, mac := commandMac { wF with seq := 7 } 0xC102 0 }, rfl, rfl, by decide⟩,
    ⟨{ wS with mbx := { wS.mbx with sessions := [{ wSes with role := 3 }] } }, { wSes with role := 3 }, rfl, rfl, rfl, by decide⟩⟩

/-- The hypotheses of LockGroups are met. -/
theorem met_lock_groups :
    (∃ f, Met 0xC104 f (.moduleLock f 31) (fun _ _ _ => True)) ∧
    (∃ s role sl s1, State.admission s 0xCD05 wFree (.thermalSet wFree 0 100 110) = .go role sl s1 ∧ s1.locked 0 = true) :=
  ⟨⟨wFm 0xC104, wS, _, _, _, session_executes rfl rfl rfl, trivial⟩,
    ⟨{ wLocked with mbx := { wLocked.mbx with resumed := some (1, 0xFFFF) } }, _, _, _, rfl, by decide⟩⟩

/-- The hypotheses of SequenceClear are met. -/
theorem met_sequence_clear :
    (∃ l : List (Nat × Reg32 × Reg32), l.length ≤ 255 ∧ l ≠ []) :=
  ⟨[(3, 0, 0)], by decide, by decide⟩

/-- The hypotheses of KeeperSlice are met. -/
theorem met_keeper_slice :
    (∃ fpa i : Nat, fpa < 2 ^ 52 ∧ i < 5) ∧
    (∃ q k : Nat, k < 4 ∧ 256 * q + 64 * k < 2 ^ 52) :=
  ⟨⟨2 ^ 52 - 1, 4, by decide, by decide⟩,
    ⟨2 ^ 44 - 1, 3, by decide, by decide⟩⟩

/-- The hypotheses of TablesStayCanonical are met. -/
theorem met_tables_stay_canonical :
    (∃ t : Tbl Byte, Tbl.wf 0xFF t = true ∧ t ≠ []) :=
  ⟨[(5, 3)], by decide, by decide⟩

/-- The hypotheses of RegistersStayInForm are met. -/
theorem met_registers_stay_in_form :
    (∃ s : State, s.inForm ∧ s.pending ≠ []) :=
  ⟨{ State.reset with pending := [.votePass] }, by unfold State.inForm; decide, by decide⟩

/-- The hypotheses of Ratchets are met. -/
theorem met_ratchets :
    (∃ s : State, s.pending ≠ []) ∧
    (∃ (c : Instr) (s : State), clearsLocks c = false ∧ s.locked 4 = true) :=
  ⟨⟨{ State.reset with pending := [.votePass] }, by decide⟩,
    ⟨.votePass, wLocked, by decide, by decide⟩⟩

end Sys2Proof.Machine
end

section
/-! The obligations of the scope chapter: module reports and the direct registers. -/
namespace Sys2Proof.Machine

/-! ### From a command's or an event's meaning to its completion -/

/-- A command whose guard passes wherever its conditions hold completes with its effect. -/
theorem answers_of_command {op : Nat} {f : Frame} {c : Instr} {guard : State → Option Nat}
    {effect run : State → State × Nat × List Nat} {can : Nat → Nat → State → Prop}
    (hexec : ∀ s, exec c s = command op f c guard effect s)
    (hguard : ∀ role sl s, can role sl s → guard s = none)
    (hrun : ∀ role sl s, can role sl s → effect s = run s) : Answers op f c can run := by
  intro s role sl s1 hex hcan
  rw [hexec, ← hrun role sl s1 hcan]
  exact commandR_executes hex (hguard role sl s1 hcan)

/-- A query whose guard passes wherever its conditions hold answers its data and leaves the state alone. -/
theorem answers_of_query {op : Nat} {f : Frame} {c : Instr} {guard : State → Option Nat}
    {data : State → List Nat} {can : Nat → Nat → State → Prop}
    (hexec : ∀ s, exec c s = query op f c guard data s)
    (hguard : ∀ role sl s, can role sl s → guard s = none) :
    Answers op f c can (fun s => (s, rcOk, data s)) :=
  answers_of_command hexec hguard (fun _ _ _ _ => rfl)

/-- An event whose own test passes wherever its conditions hold completes with its effect. -/
theorem occurs_of_evt {c : Instr} {test : State → Bool} {run effect : State → State} {can : State → Prop}
    (hexec : ∀ s, exec c s = evt (test s) run s)
    (htest : ∀ s, can s → test s = true)
    (hrun : ∀ s, can s → run s = effect s) : Occurs c can effect := by
  intro s hcan
  rw [hexec, evt_happens (htest s hcan), hrun s hcan]

/-! ### Module reports (R7, R486, R487, R491, R492, R494, R497) -/

/-- Event bits gone, no bit is set. -/
theorem Sqc.has_of_ages_nil {q : Sqc} (b : Nat) (h : q.ages = []) : q.has b = false := by
  simp [Sqc.has, h, Tbl.find]

/-- Dropping the groups of OP_ENDED once its bit is clear (Table 10.11) touches no event bit. -/
theorem Sqc.ages_dropValue (q : Sqc) (b : Nat) : (if q.has b then q else { q with val := 0 }).ages = q.ages := by
  split <;> rfl

/-- Settles O3: the reports only read the state; an acknowledged EVENT_GET splits on whether a summary bit is left. -/
theorem moduleReports : Obligations.ModuleReports := by
  unfold Obligations.ModuleReports
  refine ⟨?identify, ?identifyV1, ?status, ?journal, ?opStatus, ?resets, ?event, ?ackSome, ?ackLast⟩
  case identify | identifyV1 | status | resets =>
    exact fun f => answers_of_query (fun _ => rfl) (fun _ _ _ _ => rfl)
  case journal =>
    exact fun f index count => answers_of_query (fun _ => rfl) (fun _ _ _ hcount => if_neg (by omega))
  case opStatus =>
    exact fun f grp => answers_of_query (fun _ => rfl) (fun _ _ _ hgrp => if_neg (by omega))
  case event =>
    exact fun f seq => answers_of_command (fun _ => rfl) (fun _ _ _ _ => rfl) (fun _ _ _ _ => rfl)
  case ackSome =>
    exact fun f seq => answers_of_command (fun _ => rfl) (fun _ _ _ _ => rfl) (fun _ _ s hleft =>
      (if_pos rfl).trans (if_neg fun ⟨hnone, _⟩ => hleft ((Sqc.ages_dropValue _ 1).symm.trans hnone)))
  case ackLast =>
    exact fun f seq => answers_of_command (fun _ => rfl) (fun _ _ _ _ => rfl) (fun _ _ s h => by
      obtain ⟨hnone, halert⟩ := h
      simp [Sqc.has_of_ages_nil, hnone, halert])

/-! ### Direct registers (R15, R424, R507, R511, R515, R519, R528) -/

/-- Settles O34: each event's own test follows from the stated conditions, and its effect is the one named. -/
theorem directRegisters : Obligations.DirectRegisters := by
  unfold Obligations.DirectRegisters
  refine ⟨?lock, ?clear, ?bar0, ?bar2, ?read, ?vote, ?counter⟩
  case lock =>
    exact fun v => occurs_of_evt (fun _ => rfl) (fun _ hup => hup) (fun _ _ => rfl)
  case clear =>
    exact fun off v => occurs_of_evt (fun _ => rfl) (fun s h => by simpa [State.regUp] using h) (fun _ _ => rfl)
  case bar0 =>
    exact fun p off w v => occurs_of_evt (fun _ => rfl) (fun s h => by simpa [and_assoc] using h) (fun _ _ => rfl)
  case bar2 =>
    exact fun p off w v => occurs_of_evt (fun _ => rfl) (fun s h => by simpa [and_assoc] using h) (fun _ _ => rfl)
  case read =>
    exact fun n => occurs_of_evt (fun _ => rfl) (fun s hrun => by simp [hrun]) (fun _ _ => rfl)
  case vote =>
    exact occurs_of_evt (fun _ => rfl) (fun _ hup => hup) (fun _ _ => rfl)
  case counter =>
    exact fun q off => occurs_of_evt (fun _ => rfl)
      (fun s h => by
        obtain ⟨hrun, hcnt⟩ := h
        simp [State.regUp, hrun, hcnt])
      (fun _ _ => rfl)

end Sys2Proof.Machine
end

section
/-! The obligations of the architecture chapter: settings and resets, ports and links, cores and planes, reset values. -/
namespace Sys2Proof.Machine

/-! ### Guards and tests that pass -/

/-- What a search finds is a member, so a test that holds of it holds of one. -/
theorem any_of_find? {α : Type} {p q : α → Bool} {l : List α} {x : α} (hfind : l.find? p = some x)
    (hx : q x = true) : l.any q = true :=
  List.any_eq_true.mpr ⟨x, List.mem_of_find?_eq_some hfind, hx⟩

/-- A search that finds something has something to find. -/
theorem any_of_find?_same {α : Type} {p : α → Bool} {l : List α} {x : α} (hfind : l.find? p = some x) : l.any p = true :=
  any_of_find? hfind (List.find?_some hfind)

/-- The register commands take an offset of the page in a width they can use, where it is held. -/
theorem regCheck_passes {s : State} {off width : Nat} (hoff : off < 2 ^ 20)
    (hwidth : width = 1 ∨ width = 2 ∨ width = 4 ∨ width = 8) (hup : s.regUp off = true) :
    s.regCheck off width = none := by
  simpa [State.regCheck, hwidth, hup] using hoff

/-- The port commands take a configured port. -/
theorem portCheck_passes {s : State} {p : Nat} (hp : p < 64) (hport : s.isPort p = true) : s.portCheck p = none := by
  simp [State.portCheck, Nat.not_lt.mpr (Nat.le_of_lt_succ hp), hport]

/-- A location that exists, and on which the command can act, is taken (R19). -/
theorem locCheck_passes {s : State} {l : Loc} {acts : Bool} (hexists : s.locExists l = true) (hacts : acts = true) :
    s.locCheck l acts = none := by
  simp [State.locCheck, hexists, hacts]

/-- A bound that every value keeps is exceeded by none. -/
theorem any_lt_of_all_le {o : Option Nat} {n : Nat} (h : o.all (fun v => decide (v ≤ n)) = true) :
    o.any (fun v => decide (n < v)) = false := by
  cases o <;> simp_all

/-- A value given only within a range, and only where it belongs, is neither outside the range nor out of place. -/
theorem none_outside_of_all_inside {o : Option Nat} {lo hi : Nat} {place : Bool}
    (h : o.all (fun v => decide (lo ≤ v ∧ v ≤ hi) && place) = true) :
    o.any (fun v => decide (v < lo) || decide (hi < v)) = false ∧ (o.isSome && !place) = false := by
  cases o with
  | none => exact ⟨rfl, rfl⟩
  | some v =>
    obtain ⟨⟨hlo, hhi⟩, hplace⟩ : (lo ≤ v ∧ v ≤ hi) ∧ place = true := by simpa using h
    simp [hlo, hhi, hplace]

/-! ### Module settings, registers and resets by command (R52, R60, R486, R490, R496, R506) -/

/-- Settles O4: each guard passes by the ranges, the running operation or the location that the conditions name. -/
theorem moduleSettings : Obligations.ModuleSettings := by
  unfold Obligations.ModuleSettings
  refine ⟨?set, ?lock, ?abortEvac, ?abortVerify, ?regGet, ?regSet, ?reset, ?target⟩
  case set =>
    exact fun f smbus vec notify alert edge => answers_of_command (fun _ => rfl)
      (fun _ _ _ h => by
        obtain ⟨hsmbus, hvec, hedge⟩ := h
        have hmodes : edge.any (fun e => decide (3 < e.1) || decide (3 < e.2.1) || decide (3 < e.2.2)) = false := by
          cases edge with
          | none => rfl
          | some e => simpa [and_assoc] using hedge
        simp [any_lt_of_all_le hsmbus, any_lt_of_all_le hvec, hmodes])
      (fun _ _ _ _ => rfl)
  case lock | reset =>
    intros
    exact answers_of_command (fun _ => rfl) (fun _ _ _ _ => rfl) (fun _ _ _ _ => rfl)
  case abortEvac | abortVerify =>
    exact fun f => answers_of_command (fun _ => rfl) (fun _ _ s hrun => if_pos ⟨by decide, hrun⟩) (fun _ _ _ _ => rfl)
  case regGet =>
    exact fun f off width => answers_of_command (fun _ => rfl)
      (fun _ _ _ ⟨hoff, hwidth, hup⟩ => regCheck_passes hoff hwidth hup) (fun _ _ _ _ => rfl)
  case regSet =>
    exact fun f off width val => answers_of_command (fun _ => rfl)
      (fun _ _ _ ⟨hoff, hwidth, hup⟩ => regCheck_passes hoff hwidth hup) (fun _ _ _ _ => rfl)
  case target =>
    exact fun f loc => answers_of_command (fun _ => rfl)
      (fun _ _ s h => by
        obtain ⟨hexists, hlevel, hdie, hclu, hidle, hfree, hcool⟩ := h
        have hacts : (decide (2 ≤ loc.level) && loc.die != 6 && !(loc.clu == 7 && loc.level == 4)) = true := by
          simpa [hlevel, hdie, imp_iff_not_or] using hclu
        rw [locCheck_passes hexists hacts]
        simp only [Option.orElse_none, checks_cons, checks_nil, hidle, hfree, hcool]
        rfl)
      (fun _ _ _ _ => rfl)

/-! ### Port commands (R60, R180, R187 to R189, R200) -/

/-- No group that a new map changes has a busy port. -/
theorem noneBusy_of_changed {s : State} {m : Tbl Reg32}
    (h : ∀ g ∈ mapDiff s.ports.map m, ∀ p ∈ (List.range 4).map (4 * g + ·), s.portBusy p = false) :
    (mapDiff s.ports.map m).any (fun g => ((List.range 4).map (4 * g + ·)).any s.portBusy) = false :=
  List.any_eq_false.mpr fun g hg => by
    simpa only [Bool.not_eq_true] using List.any_eq_false.mpr fun p hp => by simp [h g hg p hp]

/-- Settles O6: the commands on one port pass its check and then their own conditions. -/
theorem portCommands : Obligations.PortCommands := by
  unfold Obligations.PortCommands
  refine ⟨?mapGet, ?mapCommit, ?enable, ?disable, ?status, ?set, ?reset⟩
  case mapGet =>
    exact fun f => answers_of_query (fun _ => rfl) (fun _ _ _ _ => rfl)
  case mapCommit =>
    exact fun f map => answers_of_command (fun _ => rfl)
      (fun _ _ s h => by
        obtain ⟨hlength, hlegal, hunlocked, hfree⟩ := h
        simp [hlength, hlegal, hunlocked, -List.any_eq_true, -List.any_map, noneBusy_of_changed hfree])
      (fun _ _ _ _ => rfl)
  case enable =>
    exact fun f port => answers_of_command (fun _ => rfl) (fun _ _ _ ⟨hp, hport⟩ => portCheck_passes hp hport)
      (fun _ _ _ _ => rfl)
  case disable =>
    exact fun f port => answers_of_command (fun _ => rfl)
      (fun _ _ _ ⟨hp, hport, hevac⟩ => by simp [portCheck_passes hp hport, hevac]) (fun _ _ _ _ => rfl)
  case status =>
    exact fun f port => answers_of_query (fun _ => rfl) (fun _ _ _ ⟨hp, hport⟩ => portCheck_passes hp hport)
  case set =>
    exact fun f port ds fl us aspm l0p cont => answers_of_command (fun _ => rfl)
      (fun _ _ s h => by
        obtain ⟨hp, hport, hds, hfl, hus, htimeouts, hgates⟩ := h
        obtain ⟨hdsIn, hdsDown⟩ := none_outside_of_all_inside hds
        obtain ⟨hflIn, hflDown⟩ := none_outside_of_all_inside hfl
        obtain ⟨husIn, husUp⟩ := none_outside_of_all_inside hus
        have hdown : ((ds.isSome || fl.isSome) && !s.isDown port) = false := by
          rw [Bool.and_or_distrib_right, hdsDown, hflDown]; rfl
        simp only [Nat.lt_one_iff, ← beq_eq_decide] at hflIn
        rw [portCheck_passes hp hport]
        simp only [Option.orElse_none, checks_cons, checks_nil, hdsIn, hflIn, husIn, hdown, husUp, htimeouts, hgates]
        rfl)
      (fun _ _ _ _ => rfl)
  case reset =>
    exact fun f port => answers_of_command (fun _ => rfl)
      (fun _ _ s ⟨hp, hport, hidle, hfree⟩ => by
        rw [portCheck_passes hp hport]
        simp only [Option.orElse_none, checks_cons, checks_nil, hidle, hfree]
        rfl) (fun _ _ _ _ => rfl)

/-! ### Cores, PLLs, planes, holes and the spill queue (R39 to R41, R148, R153, R160, R562) -/

/-- Settles O35: each event's own test follows from its stated condition; a hole needs a cell of its flow that is held. -/
theorem coresAndPlanes : Obligations.CoresAndPlanes := by
  unfold Obligations.CoresAndPlanes
  refine ⟨?wake, ?halt, ?wdog, ?pll0, ?pll1, ?gate, ?ungate, ?hole, ?spill⟩
  case wake =>
    exact occurs_of_evt (fun _ => rfl) (fun _ hon => bne_iff_ne.mpr hon) (fun _ _ => rfl)
  case halt =>
    exact occurs_of_evt (fun _ => rfl) (fun s h => by
      obtain ⟨hrun, hwake, hwait, hops, hfwds, hharv, hreqs, hacts, hpend⟩ := h
      simp only [hrun, hwake, hwait, hops, hfwds, hharv, hreqs, hacts, hpend]
      rfl) (fun _ _ => rfl)
  case wdog =>
    exact occurs_of_evt (fun _ => rfl) (fun s h => by simpa [and_assoc] using h) (fun _ _ => rfl)
  case pll0 | pll1 =>
    exact occurs_of_evt (fun _ => rfl) (fun s hpol => by simp [hpol]) (fun s _ => by simp)
  case gate =>
    exact fun p => occurs_of_evt (fun _ => rfl) (fun s h => by simpa [and_assoc] using h) (fun _ _ => rfl)
  case ungate =>
    exact fun p => occurs_of_evt (fun _ => rfl) (fun s h => by simpa [and_assoc] using h) (fun _ _ => rfl)
  case hole =>
    intro a b k s ⟨ha, hb, hk, hheld⟩
    have hhole : (!(s.xbar.held.filter (fun c => c.flow == flowNo a b k)).isEmpty
        && decide (a < 128) && decide (b < 128) && decide (k < 6)) = true := by
      simp only [List.isEmpty_eq_false_iff.mpr hheld, ha, hb, hk]
      rfl
    -- The effect is too large to be found by unification, so the event is unfolded to it first.
    change execReseqHole a b k s = _
    unfold execReseqHole
    exact evt_happens hhole
  case spill =>
    exact fun p => occurs_of_evt (fun _ => rfl)
      (fun s ⟨hrun, hspilled, hlow⟩ => by simp only [hrun, hspilled, hlow, Bool.and_self]) (fun _ _ => rfl)

/-! ### The steps of a reset (R36, R37, R51, R52, R55, R62, R491, R497, R605) -/

/-- Settles O36: release splits on whether the converters may start; a finished reset is the record found. -/
theorem resetSteps : Obligations.ResetSteps := by
  unfold Obligations.ResetSteps
  refine ⟨fun _ => rfl, fun _ => rfl, ?cut, ?restart, ?toStandby, ?ready, ?drained, ?done⟩
  case cut =>
    exact fun t => occurs_of_evt (fun _ => rfl) (fun s htrig => by simp [htrig]) (fun _ _ => rfl)
  case restart =>
    exact occurs_of_evt (fun _ => rfl) (fun s ⟨hheld, hrst, hcool, _⟩ => by simp [hheld, hrst, hcool])
      (fun _ ⟨_, _, _, hgo⟩ => if_pos hgo)
  case toStandby =>
    exact occurs_of_evt (fun _ => rfl) (fun s ⟨hheld, hrst, hcool, _⟩ => by simp [hheld, hrst, hcool])
      (fun _ ⟨_, _, _, hstay⟩ => if_neg hstay)
  case ready =>
    exact occurs_of_evt (fun _ => rfl) (fun _ hrel => beq_iff_eq.mpr hrel) (fun _ _ => rfl)
  case drained =>
    exact fun k => occurs_of_evt (fun _ => rfl) (fun s ⟨hdraining, hdrained⟩ => by rw [hdraining, hdrained]; rfl)
      (fun _ _ => rfl)
  case done =>
    exact fun l x => occurs_of_evt (fun _ => rfl)
      (fun s ⟨hfind, hdrained⟩ => any_of_find? hfind (by
        have hloc : x.loc = l := by simpa using List.find?_some hfind
        simp [hloc, hdrained]))
      (fun s ⟨hfind, _⟩ => by rw [hfind])

/-! ### Links down, departures and timeouts (R51, R199, R202, R203, R219, R248, R252, R302, R303, R310) -/

/-- Settles O44: each event finds the partner, access or transaction its conditions name, and its effect follows from that record. -/
theorem linksDown : Obligations.LinksDown := by
  unfold Obligations.LinksDown
  refine ⟨?down, ?reset, ?ide, ?sweep, ?expire, ?expireNew, ?expireModule, ?ds, ?usRead, ?usWrite, ?tr⟩
  case down =>
    exact fun p k => occurs_of_evt (fun _ => rfl) (fun s h => by simpa using h) (fun _ _ => rfl)
  case reset =>
    exact fun p => occurs_of_evt (fun _ => rfl) (fun _ hup => hup) (fun _ _ => rfl)
  case ide =>
    exact fun p => occurs_of_evt (fun _ => rfl) (fun s ⟨hup, hide⟩ => by rw [hup, hide]; rfl) (fun _ _ => rfl)
  case sweep =>
    exact fun p x => occurs_of_evt (fun _ => rfl) (fun s ⟨hpartner, hleaving⟩ => by simp [hpartner, hleaving])
      (fun _ _ => rfl)
  case expire =>
    exact fun p x => occurs_of_evt (fun _ => rfl)
      (fun s ⟨hp, hpartner, htimer, hstays, _⟩ => by simp [hp, hpartner, htimer, hstays])
      (fun s ⟨hp, _, _, _, hnone⟩ => by simp [hp, hnone])
  case expireNew =>
    exact fun p x i => occurs_of_evt (fun _ => rfl)
      (fun s ⟨hp, hpartner, htimer, hstays, _⟩ => by simp [hp, hpartner, htimer, hstays])
      (fun s ⟨hp, _, _, _, hnew⟩ => by simp [hp, hnew])
  case expireModule =>
    exact fun p => occurs_of_evt (fun _ => rfl)
      (fun s ⟨hlow, hhigh, hreserved⟩ => by
        have htrunk : ¬ p < 64 := by omega
        simp [htrunk, hhigh, hreserved])
      (fun s ⟨hlow, _, _⟩ => if_neg (by omega))
  case ds =>
    exact fun p fpa x => occurs_of_evt (fun _ => rfl)
      (fun s ⟨hdown, hup, hfind⟩ => by
        rw [hdown, hup, any_of_find?_same hfind]; rfl)
      (fun s ⟨_, _, hfind⟩ => by rw [hfind])
  case usRead =>
    exact fun p fpa x => occurs_of_evt (fun _ => rfl)
      (fun s ⟨hfind, _⟩ => any_of_find?_same hfind)
      (fun s ⟨hfind, hkind⟩ => by simp only [hfind, hkind])
  case usWrite =>
    exact fun p fpa x => occurs_of_evt (fun _ => rfl)
      (fun s ⟨hfind, _⟩ => any_of_find?_same hfind)
      (fun s ⟨hfind, hkind, _⟩ => by simp only [hfind, hkind])
  case tr =>
    exact fun fpa a t => occurs_of_evt (fun _ => rfl)
      (fun s ⟨haway, htxn, hstage, hpsn, hsrc⟩ => by simp [haway, htxn, hstage, hpsn, hsrc])
      (fun s ⟨_, htxn, _⟩ => by rw [htxn])

/-! ### What reset leaves (R232, R315, R394, R445, R520, R564) -/

/-- The voted registers of D6 are in form at reset. -/
theorem reset_inForm : State.reset.inForm := by
  unfold State.inForm
  exact ⟨by decide, by decide, by decide, wf_reset⟩

/-- Settles O50: every table is empty at reset, so a read gives the record's reset value. -/
theorem resetValues : Obligations.ResetValues := by
  unfold Obligations.ResetValues
  refine ⟨?queues, ?counters, ?single, ?trunk, ?gates, ?tables, reset_inForm⟩
  case queues => exact ⟨rfl, rfl, by decide, rfl, rfl, rfl, rfl⟩
  case counters => exact fun _ => ⟨rfl, rfl⟩
  case single => exact ⟨rfl, rfl, rfl, rfl⟩
  case trunk => exact fun _ => ⟨rfl, rfl, rfl⟩
  case gates => exact fun _ => ⟨rfl, rfl, rfl⟩
  case tables => exact fun _ => ⟨rfl, rfl⟩

end Sys2Proof.Machine
end

section
/-! The obligations of the keeper and coherence chapter: the slice of an address, and the messages and host requests that reach it. -/
namespace Sys2Proof.Machine

/-! ### Bit ranges of a number -/

/-- A bit is the library's bit test. -/
theorem bit_eq_testBit (n i : Nat) : bit n i = n.testBit i := by
  rw [bit, Nat.testBit_eq_decide_div_mod_eq]; rfl

/-- A bit of a range is the bit of the number that stands there, and clear above the range. -/
theorem testBit_bits (n hi lo i : Nat) : (bits n hi lo).testBit i = (decide (i < hi + 1 - lo) && n.testBit (lo + i)) := by
  rw [bits, Nat.testBit_mod_two_pow, Nat.testBit_div_two_pow, Nat.add_comm i]

/-- A range fits in any width that has room for it. -/
theorem bits_lt_two_pow {n hi lo w : Nat} (hw : hi + 1 - lo ≤ w) : bits n hi lo < 2 ^ w :=
  (Nat.mod_lt _ (Nat.two_pow_pos _)).trans_le (Nat.pow_le_pow_right Nat.two_pos hw)

/-- A range up to the number's highest bit is a quotient. -/
theorem bits_eq_div {n hi lo : Nat} (hlo : lo ≤ hi + 1) (hn : n < 2 ^ (hi + 1)) : bits n hi lo = n / 2 ^ lo := by
  refine Nat.mod_eq_of_lt (Nat.div_lt_of_lt_mul ?_)
  rwa [← pow_add, Nat.add_sub_cancel' hlo]

/-- A range above the low bits depends only on what stands above them. -/
theorem bits_of_div_eq {a b m hi lo : Nat} (hm : m ≤ lo) (h : a / 2 ^ m = b / 2 ^ m) : bits a hi lo = bits b hi lo := by
  have hdiv : ∀ n, n / 2 ^ lo = n / 2 ^ m / 2 ^ (lo - m) := fun n => by
    rw [Nat.div_div_eq_div_mul, ← pow_add, Nat.add_sub_cancel' hm]
  rw [bits, bits, hdiv a, hdiv b, h]

/-! ### Home slice, set and tag (R64) -/

/-- A bit of the slice number folds the address bits five apart; the last range has four bits. -/
theorem bit_sliceHash {i : Nat} (fpa : Nat) (hi : i < 5) : bit (sliceHash fpa) i =
    (bit fpa (8 + i) ^^ bit fpa (13 + i) ^^ bit fpa (18 + i) ^^ bit fpa (23 + i) ^^ bit fpa (28 + i) ^^ bit fpa (33 + i)
      ^^ bit fpa (38 + i) ^^ bit fpa (43 + i) ^^ (decide (i < 4) && bit fpa (48 + i))) := by
  simp [bit_eq_testBit, sliceHash, testBit_bits, hi]

/-- There are 32 slices. -/
theorem sliceHash_lt (fpa : Nat) : sliceHash fpa < 2 ^ 5 := by
  unfold sliceHash
  iterate 8 refine Nat.xor_lt_two_pow ?_ (bits_lt_two_pow (by decide))
  exact bits_lt_two_pow (by decide)

/-- Addresses of one sector share slice, set and tag. -/
theorem slice_set_tag_of_sector_eq {a b : Nat} (h : a / 2 ^ 8 = b / 2 ^ 8) :
    sliceHash a = sliceHash b ∧ Machine.setOf a = Machine.setOf b ∧ tagOf a = tagOf b := by
  have hbits : ∀ {hi lo : Nat}, 8 ≤ lo → bits a hi lo = bits b hi lo := fun hlo => bits_of_div_eq hlo h
  simp [sliceHash, Machine.setOf, tagOf, hbits]

/-- The lines of a sector lie in its 256 bytes. -/
theorem sector_of_line (q k : Nat) (hk : k < 4) : (256 * q + 64 * k) / 2 ^ 8 = 256 * q / 2 ^ 8 := by
  omega

/-- Settles O56: bit by bit for the slice, as quotients for set and tag, and by the common sector for the four lines. -/
theorem keeperSlice : Obligations.KeeperSlice := by
  unfold Obligations.KeeperSlice
  refine ⟨?slice, ?setTag, ?sector⟩
  case slice => exact fun fpa _ _ hi => bit_sliceHash fpa hi
  case setTag =>
    intro fpa hfpa
    have hrange : bits fpa 51 13 = fpa / 2 ^ 13 := bits_eq_div (by decide) hfpa
    refine ⟨sliceHash_lt fpa, ?_, ?_, ?_⟩
    · rw [Machine.setOf, hrange]
    · rw [tagOf, hrange]
    · rw [tagOf, hrange]; omega
  case sector => exact fun q k hk => slice_set_tag_of_sector_eq (sector_of_line q k hk)

/-! ### Requests and write-backs (R85, R90, R91, R98 to R100, R112, R123) -/

/-- Settles O37: a request's own test is the stated one; an agent that is no module is known at any slice. -/
theorem coherenceRequests : Obligations.CoherenceRequests := by
  unfold Obligations.CoherenceRequests
  refine ⟨?rds, ?rdx, ?upg, ?full, ?part, ?evict, ?atom, ?wb⟩
  case rds | rdx | upg | full | part | evict =>
    exact fun r => occurs_of_evt (fun _ => rfl) (fun _ hfrom => hfrom) (fun _ _ => rfl)
  case atom =>
    exact fun r x y => occurs_of_evt (fun _ => rfl) (fun _ hfrom => hfrom) (fun _ _ => rfl)
  case wb =>
    exact fun m => occurs_of_evt (fun _ => rfl)
      (fun s ⟨hrun, hpresent, hknown⟩ => by simp [State.wbTakes, hrun, hpresent, hknown]) (fun _ _ => rfl)

/-! ### Snoops and their answers (R82, R103, R104, R109, R125) -/

/-- A response that fits the snoop open toward its sender is taken. -/
theorem rspTakes_of_fits {s : State} {m : MsgOp} {r : RspKind} {w : Wait} (hrun : s.running = true)
    (hwait : s.waitOf m.src (lineOf m.fpa) = some w) (hfits : rspFits w r = true) : s.rspTakes r m = true := by
  simp only [State.rspTakes, hrun, hwait, hfits, Bool.and_self]

/-- Settles O38: a snoop's own test is the stated one; a response needs the open snoop found, and that it fits. -/
theorem coherenceSnoops : Obligations.CoherenceSnoops := by
  unfold Obligations.CoherenceSnoops
  refine ⟨?inv, ?shr, ?data, ?birecall, ?rspI, ?rspS, ?rspO, ?wbPend, ?timeout⟩
  case inv | shr | data | birecall =>
    exact fun m => occurs_of_evt (fun _ => rfl) (fun _ hhome => hhome) (fun _ _ => rfl)
  case rspI | wbPend =>
    exact fun m w => occurs_of_evt (fun _ => rfl) (fun _ ⟨hrun, hwait⟩ => rspTakes_of_fits hrun hwait rfl) (fun _ _ => rfl)
  case rspS =>
    exact fun m w => occurs_of_evt (fun _ => rfl)
      (fun _ ⟨hrun, hwait, hkind⟩ => rspTakes_of_fits hrun hwait (by simpa [rspFits] using hkind)) (fun _ _ => rfl)
  case rspO =>
    exact fun m w => occurs_of_evt (fun _ => rfl)
      (fun _ ⟨hrun, hwait, hkind, hmod⟩ => rspTakes_of_fits hrun hwait (by simp [rspFits, hkind, hmod])) (fun _ _ => rfl)
  case timeout =>
    exact fun fpa a w => occurs_of_evt (fun _ => rfl) (fun _ hwait => Option.isSome_of_eq_some hwait)
      (fun _ hwait => by simp only [hwait])

/-! ### Completions and data (R81, R82, R91 to R94, R99, R108, R123) -/

/-- A message of a line's home reaches a module that runs. -/
theorem running_of_fromHome {s : State} {m : MsgOp} (h : s.fromHome m = true) : s.running = true := by
  simp only [State.fromHome, Bool.and_eq_true] at h
  exact h.1.1.1

/-- Data of a holder is due where it fits the open snoop. -/
theorem datTakes_of_holder {s : State} {opc : Nat} {g : Grant} {m : MsgOp} {w : Wait} (hrun : s.running = true)
    (hholder : s.holderData opc m = some w) : s.datTakes opc g m = true := by
  simp [State.datTakes, hrun, hholder]

/-- Data of a holder completes its answer. -/
theorem datTaken_of_holder {s : State} {opc : Nat} {g : Grant} {m : MsgOp} {w : Wait}
    (hholder : s.holderData opc m = some w) : s.datTaken opc g m = s.datArrives w m.data m.poison false := by
  simp only [State.datTaken, hholder]

/-- Data of a home is due where a forwarded request waits for it. -/
theorem datTakes_of_home {s : State} {opc : Nat} {g : Grant} {m : MsgOp} {t : Txn} (hhome : s.fromHome m = true)
    (hfwd : s.fwdTxn (lineOf m.fpa) = some t) (hg : g ≠ .none) : s.datTakes opc g m = true := by
  simp [State.datTakes, running_of_fromHome hhome, hhome, hfwd, hg]

/-- Data of a home grants the forwarded request, poisoned where marked. -/
theorem datTaken_of_home {s : State} {opc : Nat} {g : Grant} {m : MsgOp} {t : Txn}
    (hnone : s.holderData opc m = none) (hfwd : s.fwdTxn (lineOf m.fpa) = some t) :
    s.datTaken opc g m = s.proxyGrant t (if m.poison then .poison else g) m.data := by
  simp only [State.datTaken, hnone, hfwd]

/-- A data message of a holder completes the answer to the open snoop it fits. -/
theorem occurs_of_holderData {opc : Nat} {g : Grant} {m : MsgOp} {c : Instr} {w : Wait}
    (hexec : ∀ s, exec c s = execDat opc g m s) :
    Occurs c (fun s => s.running = true ∧ s.holderData opc m = some w)
      (fun s => s.datArrives w m.data m.poison false) :=
  occurs_of_evt hexec (fun _ ⟨hrun, hholder⟩ => datTakes_of_holder hrun hholder)
    (fun _ ⟨_, hholder⟩ => datTaken_of_holder hholder)

/-- A data message of a home grants the request forwarded to it. -/
theorem occurs_of_homeData {opc : Nat} {g : Grant} {m : MsgOp} {c : Instr} {t : Txn}
    (hexec : ∀ s, exec c s = execDat opc g m s) (hg : g ≠ .none) :
    Occurs c (fun s => s.fromHome m = true ∧ s.holderData opc m = none ∧ s.fwdTxn (lineOf m.fpa) = some t)
      (fun s => s.proxyGrant t (if m.poison then .poison else g) m.data) :=
  occurs_of_evt hexec (fun _ ⟨hhome, _, hfwd⟩ => datTakes_of_home hhome hfwd hg)
    (fun _ ⟨_, hnone, hfwd⟩ => datTaken_of_home hnone hfwd)

/-- Settles O39: Cmp splits on the line's home and on a write-back that is open; data on who sends it. -/
theorem coherenceData : Obligations.CoherenceData := by
  unfold Obligations.CoherenceData
  refine ⟨?cmpAck, ?cmpWb, ?cmpFwd, ?cmpPoison, ?sHolder, ?sHome, ?eHome, ?mHolder, ?mHome, ?oHolder, ?resume⟩
  case cmpAck =>
    exact fun m t => occurs_of_evt (fun _ => rfl)
      (fun s ⟨hrun, hhomed, htxn, hstage, hsrc⟩ => by simp [State.cmpTakes, hrun, hhomed, htxn, hstage, hsrc])
      (fun s ⟨_, hhomed, _⟩ => if_pos hhomed)
  case cmpWb =>
    exact fun m => occurs_of_evt (fun _ => rfl)
      (fun s ⟨haway, hhome, hwb⟩ => by
        simp only [State.cmpTakes, running_of_fromHome hhome, haway, hhome, hwb]; rfl)
      (fun s ⟨haway, _, hwb⟩ => by simp only [State.cmpTaken, haway, hwb]; rfl)
  case cmpFwd =>
    exact fun m t => occurs_of_evt (fun _ => rfl)
      (fun s ⟨haway, hhome, hwb, hfwd⟩ => by
        simp only [State.cmpTakes, running_of_fromHome hhome, haway, hhome, hwb, hfwd]; rfl)
      (fun s ⟨haway, _, hwb, hfwd⟩ => by simp only [State.cmpTaken, haway, hwb, hfwd]; rfl)
  case cmpPoison =>
    exact fun m t => occurs_of_evt (fun _ => rfl)
      (fun s ⟨hhome, hfwd⟩ => by simp [State.cmpPoisonTakes, hhome, hfwd])
      (fun s ⟨_, hfwd⟩ => by simp only [State.cmpPoisonTaken, hfwd])
  case sHolder | mHolder | oHolder => exact fun m w => occurs_of_holderData (fun _ => rfl)
  case sHome | eHome | mHome => exact fun m t => occurs_of_homeData (fun _ => rfl) (by decide)
  case resume =>
    exact fun k fpa q => occurs_of_evt (fun _ => rfl) (fun s ⟨hqueued, hfree⟩ => by simp only [hqueued, hfree]; rfl)
      (fun s ⟨hqueued, _⟩ => by simp only [hqueued])

/-! ### Hosts, devices and passed-through partners (R85, R86, R88, R93, R115, R116, R193 to R196, R236, R265, R380) -/

/-- A host's message at an offset below 2^46 passes the test of its port. -/
theorem hostTakes_at {s : State} {p off : Nat} (htakes : s.hostTakes p = true) (hoff : off < 2 ^ 46) :
    (s.hostTakes p && decide (off < 2 ^ 46)) = true := by
  rw [htakes, decide_eq_true hoff]; rfl

/-- A passed-through partner's request of a legal length is taken while ingress is open (R195). -/
theorem passthru_taken {s : State} {p l h len : Nat} (hlive : s.passLive p = true) (hbridge : s.bridgeHost p l = some h)
    (hopen : s.svc.ingressShut = false) (hlen : 1 ≤ len) (hmax : len ≤ 4096) :
    (s.passLive p && (s.bridgeHost p l).isSome && ! s.svc.ingressShut && decide (1 ≤ len) && decide (len ≤ 4096)) = true := by
  simp [hlive, hbridge, hopen, hlen, hmax]

/-- What is no configuration request, or finds its host's enumeration done, gets no Request Retry Status (R218). -/
theorem not_cfg_and_enum {s : State} {p : Nat} {t : List Byte} (h : isCfg t = false ∨ (s.port p).enum = false) :
    ¬ (isCfg t = true ∧ (s.port p).enum = true) := by
  rcases h with h | h <;> simp [h]

/-- A host's Evict is an Evict at the keeper. -/
theorem hostKind_of_evict {db : Bool} {h : HostOp} (hevict : h.evict = true) : hostKind db h = (.evict, false) :=
  if_pos hevict

/-- Settles O40: each event's own test follows from the stated conditions, and its effect from the host, address or
access that they name. -/
theorem hostRequests : Obligations.HostRequests := by
  unfold Obligations.HostRequests
  refine ⟨?read, ?evict, ?write, ?wb, ?window, ?posting, ?bi, ?biBlock, ?conflictAck, ?conflictWaits, ?d2h, ?d2hWb,
    ?drs, ?ndr, ?passAbove, ?passNone, ?passLines, ?tlpToHost, ?tlpToPartner, ?tlpGone, ?tlpConfig⟩
  case read =>
    exact fun h i off n e fpa k => occurs_of_evt (fun _ => rfl)
      (fun s ⟨htakes, hoff, hdb, _⟩ => by rw [hostTakes_at htakes hoff, hdb]; rfl)
      (fun s ⟨_, _, hdb, hhost, hline, hwin, htr, hacc, hk, hkind⟩ => by
        subst hline hk
        rcases hkind with hkind | hkind <;> simp [hdb, hhost, hwin, htr, hacc, hkind])
  case evict =>
    exact fun h i off n e fpa => occurs_of_evt (fun _ => rfl)
      (fun s ⟨htakes, hoff, hdb, _⟩ => by rw [hostTakes_at htakes hoff, hdb]; rfl)
      (fun s ⟨_, _, hdb, hhost, hline, hwin, htr, hevict⟩ => by
        subst hline
        simp [hdb, hhost, hwin, htr, hostKind_of_evict hevict])
  case write =>
    exact fun h i => occurs_of_evt (fun _ => rfl)
      (fun _ ⟨htakes, hoff, _⟩ => hostTakes_at htakes hoff)
      (fun s ⟨_, _, hhost, hwin, hinv⟩ => by
        have hnot : ¬ (s.isDb h.port = true ∧ ¬ h.ptl = true ∧ h.mv ≤ 1) := by
          rintro ⟨hdb, hptl, hmv⟩
          rcases hinv with hinv | hinv | hinv
          · exact absurd (hinv.symm.trans hdb) (by decide)
          · exact hptl hinv
          · omega
        simp only [hhost, Option.getD_some, hwin, if_neg hnot])
  case wb =>
    exact fun h i fpa => occurs_of_evt (fun _ => rfl)
      (fun _ ⟨htakes, hoff, _⟩ => hostTakes_at htakes hoff)
      (fun s ⟨_, _, hhost, hwin, hdb, hptl, hmv, hback⟩ => by
        have hyes : s.isDb h.port = true ∧ ¬ h.ptl = true ∧ h.mv ≤ 1 := ⟨hdb, by simp [hptl], hmv⟩
        simp only [hhost, Option.getD_some, hwin, if_pos hyes, hback])
  case window =>
    exact fun h i n => occurs_of_evt (fun _ => rfl)
      (fun _ ⟨htakes, hoff, _⟩ => hostTakes_at htakes hoff)
      (fun s ⟨_, _, hhost, hwin⟩ => by simp only [hhost, Option.getD_some, hwin])
  case posting =>
    exact fun h i n => occurs_of_evt (fun _ => rfl)
      (fun s ⟨htakes, hoff, hhost, hwin⟩ => by simp only [hostTakes_at htakes hoff, hhost, Option.getD_some, hwin]; rfl)
      (fun s ⟨_, _, hhost, hwin⟩ => by simp only [hhost, Option.getD_some, hwin])
  case bi | biBlock =>
    exact fun p off sh i fpa => occurs_of_evt (fun _ => rfl)
      (fun s ⟨hrun, hup, hdb, hhost, hback, hopen⟩ => by
        simp only [hrun, hup, hdb, hhost, Option.bind_some, hback, Option.map_some, hopen, Bool.and_self])
      (fun s ⟨_, _, _, hhost, hback, _⟩ => by
        simp only [hhost, Option.bind_some, hback, Option.map_some]; rfl)
  case conflictAck | conflictWaits =>
    exact fun p off i fpa => occurs_of_evt (fun _ => rfl)
      (fun s ⟨hrun, hup, hdb, hhost, hback, _⟩ => by simp [hrun, hup, hdb, hhost, hback])
      (fun s ⟨_, _, _, hhost, hback, howed⟩ => by
        simp only [hhost, Option.bind_some, hback, Option.map_some, howed]; rfl)
  case d2h =>
    exact fun d x r p => occurs_of_evt (fun _ => rfl)
      (fun s ⟨hrun, hopen, hx, hfpa, hdev, hup, hfree⟩ => by
        have hx10 : x < 10 := by omega
        simp only [hrun, hopen, hx10, hfpa, hdev, hup, hfree]; rfl)
      (fun s ⟨_, _, hx, _, hdev, _⟩ => by
        have hrequest : x ≠ 9 := by omega
        simp only [hdev]
        exact if_neg hrequest)
  case d2hWb =>
    exact fun d r p => occurs_of_evt (fun _ => rfl)
      (fun s ⟨hrun, hopen, hfpa, hdev, hup, hfree⟩ => by
        simp only [hrun, hopen, hfpa, hdev, hup, hfree]; rfl)
      (fun s ⟨_, _, _, hdev, _⟩ => by simp only [hdev, if_true])
  case drs | ndr =>
    intros
    exact occurs_of_evt (fun _ => rfl) (fun _ hhanded => Option.isSome_of_eq_some hhanded)
      (fun _ hhanded => by simp only [hhanded])
  case passAbove =>
    exact fun p l a addr len wr d h q => occurs_of_evt (fun _ => rfl)
      (fun _ ⟨hlive, hbridge, hopen, hlen, hmax, _⟩ => passthru_taken hlive hbridge hopen hlen hmax)
      (fun s ⟨_, hbridge, _, _, _, hhigh, hport⟩ => by simp only [hbridge, if_pos hhigh, hport])
  case passNone =>
    exact fun p l a addr len wr d h => occurs_of_evt (fun _ => rfl)
      (fun _ ⟨hlive, hbridge, hopen, hlen, hmax, _⟩ => passthru_taken hlive hbridge hopen hlen hmax)
      (fun s ⟨_, hbridge, _, _, _, hlow, hnone⟩ => by simp only [hbridge, if_neg (Nat.not_le.mpr hlow), hnone])
  case passLines =>
    exact fun p l a addr len wr d h n => occurs_of_evt (fun _ => rfl)
      (fun _ ⟨hlive, hbridge, hopen, hlen, hmax, _⟩ => passthru_taken hlive hbridge hopen hlen hmax)
      (fun s ⟨_, hbridge, _, _, _, hlow, hslice⟩ => by simp only [hbridge, if_neg (Nat.not_le.mpr hlow), hslice])
  case tlpToHost =>
    exact fun p l t h q => occurs_of_evt (fun _ => rfl)
      (fun s ⟨hrun, hdown, hlive, hbridge, _⟩ => by simp [hrun, hdown, hlive, hbridge])
      (fun s ⟨_, hdown, _, hbridge, hport⟩ => by simp [hdown, hbridge, hport])
  case tlpToPartner =>
    exact fun p l t h q => occurs_of_evt (fun _ => rfl)
      (fun s ⟨hdown, hrun, hlive, hbridge, _⟩ => by simp [hrun, hdown, hlive, hbridge])
      (fun s ⟨hdown, _, hlive, hbridge, hport, hpass⟩ => by
        simp [hdown, hbridge, hport, not_cfg_and_enum hpass, hlive])
  case tlpGone =>
    exact fun p l t h q => occurs_of_evt (fun _ => rfl)
      (fun s ⟨hdown, hrun, _, hbridge, _⟩ => by simp [hrun, hdown, hbridge])
      (fun s ⟨hdown, _, hgone, hbridge, hport, hpass⟩ => by
        simp [hdown, hbridge, hport, not_cfg_and_enum hpass, hgone])
  case tlpConfig =>
    exact fun p l t => occurs_of_evt (fun _ => rfl)
      (fun s ⟨hrun, hup, hlink, henum, hcfg⟩ => by simp [hrun, hup, hlink, henum, hcfg])
      (fun s ⟨_, hup, _⟩ => if_pos hup)

end Sys2Proof.Machine
end

section
/-! The obligations of the switch core chapter: POOL commands and requests of other modules, port arbiters and patrol reads. -/
namespace Sys2Proof.Machine

/-! ### Checks over the extents a command names -/

/-- A test that no member meets is met by none. -/
theorem any_eq_false_of_forall {α : Type} {l : List α} {p : α → Bool} (h : ∀ x ∈ l, p x = false) : l.any p = false :=
  List.any_eq_false.mpr fun x hx => Bool.not_eq_true _ ▸ h x hx

/-- A run of extents that is not empty and ends within the pool passes the range check. -/
theorem extentRun_passes {ext count : Nat} (hcount : 1 ≤ count) (hend : ext + count ≤ 65536) :
    (decide (count = 0) || decide (65536 < ext + count)) = false := by
  rw [decide_eq_false (by omega), decide_eq_false (by omega), Bool.or_self]

/-- One of two states is neither outside the one nor outside the other. -/
theorem bne_and_bne_of_eq_or {α : Type} [BEq α] [LawfulBEq α] {x a b : α} (h : x = a ∨ x = b) : (x != a && x != b) = false := by
  rcases h with rfl | rfl <;> simp

/-! ### POOL commands and requests of other modules (R156, R159, R246, R255, R265, R647) -/

/-- The carve-out levels of Table 3.6 pass their check. -/
theorem spillLevels_pass {high low : Nat} (hmin : 50 ≤ high) (hmax : high ≤ 95) (hlow : 10 ≤ low) (hgap : low + 10 ≤ high) :
    (decide (high < 50) || decide (95 < high) || decide (low < 10) || decide (high < low + 10)) = false := by
  simp only [Nat.not_lt.mpr, hmin, hmax, hlow, hgap, decide_false, Bool.or_self]

/-- A carve-out has at least four extents, or none and is not enabled. -/
theorem spillSize_passes {size : Nat} {en : Bool} (h : 4 ≤ size ∨ size = 0 ∧ en = false) :
    (en && decide (size < 4)) = false ∧ (size != 0 && decide (size < 4)) = false := by
  rcases h with hsize | ⟨rfl, rfl⟩
  · simp [Nat.not_lt.mpr hsize]
  · exact ⟨rfl, rfl⟩

/-- While spill queues hold cells the carve-out may only stay where it is. -/
theorem carveMove_passes {s : State} {base size n : Nat} (h : s.xbar.spillQ = [] ∨ size ≠ 0 ∧ base = s.carveExt ∧ size = n) :
    (size != 0 && s.xbar.spillQ != [] && (base != s.carveExt || size != n)) = false := by
  rcases h with hempty | ⟨_, hbase, hsize⟩
  · simp [hempty]
  · simp [← hbase, ← hsize]

/-- Settles O12: each guard passes by the range, the state and the owner of the extents named; a carve-out splits on whether
it is given up while spill queues hold cells, a request of another module on its kind. -/
theorem poolCommands : Obligations.PoolCommands := by
  unfold Obligations.PoolCommands
  refine ⟨?add, ?scrubbed, ?status, ?revalidate, ?release, ?allocHere, ?allocThere, ?spill, ?giveUp, ?bind, ?reserve⟩
  case add =>
    exact fun f port => answers_of_command (fun _ => rfl)
      (fun _ _ s ⟨hexpander, hdecodes, hidle, hfree, hroom⟩ => by
        rw [hexpander]
        simp only [Option.orElse_none, checks_cons, checks_nil, hdecodes, hidle, hfree, beq_eq_false_iff_ne.mpr hroom]
        rfl)
      (fun _ _ _ _ => rfl)
  case scrubbed =>
    exact fun ext => occurs_of_evt (fun _ => rfl) (fun _ hscrub => beq_iff_eq.mpr hscrub) (fun _ _ => rfl)
  case status =>
    exact fun f => answers_of_query (fun _ => rfl) (fun _ _ _ _ => rfl)
  case revalidate =>
    exact fun f ext count => answers_of_command (fun _ => rfl)
      (fun _ _ s ⟨hcount, hend, hstays, hsuspect⟩ => by
        have hstate := any_eq_false_of_forall fun e he => bne_eq_false_iff_eq.mpr (hsuspect e he)
        simp only [checks_cons, checks_nil, extentRun_passes hcount hend, any_eq_false_of_forall hstays, hstate]
        rfl)
      (fun _ _ _ _ => rfl)
  case release =>
    exact fun f ext count => answers_of_command (fun _ => rfl)
      (fun _ _ s ⟨hcount, hend, hidle, hout⟩ => by
        have hstate := any_eq_false_of_forall fun e he => bne_and_bne_of_eq_or (hout e he)
        simp only [checks_cons, checks_nil, extentRun_passes hcount hend, hidle, hstate]
        rfl)
      (fun _ _ _ _ => rfl)
  case allocHere =>
    exact fun f m count es => answers_of_command (fun _ => rfl)
      (fun _ _ s ⟨hhere, hcount, hes⟩ => by simp [hhere, hes, Nat.ne_of_gt hcount])
      (fun _ _ s ⟨hhere, _, hes⟩ => by simp only [if_pos hhere, hes, Option.getD_some])
  case allocThere =>
    exact fun f module count => answers_of_command (fun _ => rfl)
      (fun _ _ s ⟨haway, hindex, hcount, hmember, hreached⟩ => by
        rw [if_neg haway]
        simp only [checks_cons, checks_nil, decide_eq_false (Nat.not_lt.mpr hindex),
          beq_eq_false_iff_ne.mpr (Nat.ne_of_gt hcount), hmember, hreached]
        rfl)
      (fun _ _ _ ⟨haway, _⟩ => if_neg haway)
  case spill =>
    exact fun f base size high low en => answers_of_command (fun _ => rfl)
      (fun _ _ s ⟨hend, hsize, hmost, hmin, hmax, hlow, hgap, hextents, hcarve⟩ => by
        obtain ⟨henabled, hfour⟩ := spillSize_passes hsize
        have hstate := any_eq_false_of_forall fun e he => bne_and_bne_of_eq_or (hextents e he).1
        have hport := any_eq_false_of_forall fun e he => bne_eq_false_iff_eq.mpr (hextents e he).2.1
        have hstays := any_eq_false_of_forall fun e he => (hextents e he).2.2
        simp only [checks_cons, checks_nil, decide_eq_false (Nat.not_lt.mpr hend), decide_eq_false (Nat.not_lt.mpr hmost),
          spillLevels_pass hmin hmax hlow hgap, henabled, hfour, hstate, hport, hstays, carveMove_passes hcarve]
        rfl)
      (fun _ _ s ⟨_, _, _, _, _, _, _, _, hcarve⟩ => if_neg fun ⟨hnone, hcells⟩ =>
        hcarve.elim hcells fun ⟨hsome, _⟩ => hsome hnone)
  case giveUp =>
    exact fun f base high low => answers_of_command (fun _ => rfl)
      (fun _ _ s ⟨hend, hmin, hmax, hlow, hgap, _⟩ => by
        simp only [checks_cons, checks_nil, Nat.add_zero, decide_eq_false (Nat.not_lt.mpr hend), spillLevels_pass hmin hmax hlow hgap]
        rfl)
      (fun _ _ _ ⟨_, _, _, _, _, hcells⟩ => if_pos ⟨rfl, hcells⟩)
  case bind =>
    exact fun tp ext count => occurs_of_evt (fun _ => rfl) (fun _ ⟨hactive, _⟩ => beq_iff_eq.mpr hactive)
      (fun s ⟨_, hstays, hbindable⟩ => by simp only [hstays, hbindable]; rfl)
  case reserve =>
    exact fun tp ext count es => occurs_of_evt (fun _ => rfl) (fun _ ⟨hactive, _⟩ => beq_iff_eq.mpr hactive)
      (fun s ⟨_, hstays, hes⟩ => by simp only [hstays, hes]; rfl)

/-! ### Port arbiters and patrol reads (R162, R164, R166 to R169, R171, R177) -/

/-- A request without an access of its own, from a requester with a credit at a port in service, is parked, and granted where
it is the next (R166). -/
theorem arbAsk_of_credit {s : State} {p : Nat} {x : Pend} (hdown : s.isDown p = true) (hopen : (s.arbOf p).fenced = false)
    (hcredit : ((s.arbOf p).pend.filter (fun y => y.req == x.req)).length < 64)
    (hsent : (s.arbOf p).unsent.any (fun y => y.req == x.req) = false) (hacc : x.acc = none) :
    s.arbAsk p x =
      let s1 := s.modArb p (fun a => { a with pend := a.pend ++ [x] })
      if s1.arbIdle p ∧ s1.arbNext p = some x then (s1.arbGive p x).l1Hold p else s1 := by
  have hserved : ¬ ((s.arbOf p).fenced = true ∨ ¬ s.isDown p = true) := by simp [hopen, hdown]
  have hparked : ¬ (64 ≤ ((s.arbOf p).pend.filter (fun y => y.req == x.req)).length
      ∨ (s.arbOf p).unsent.any (fun y => y.req == x.req) = true) := by
    rw [hsent]; simpa using hcredit
  have hwaits : x.acc.isNone = true ∨ (s.port p).lanes = .l1 := .inl (by rw [hacc]; rfl)
  simp only [State.arbAsk, if_neg hserved, if_neg hparked, if_pos hwaits]

/-- Settles O41: a request is parked or granted; a grant, a hand-off and a parked request are the records found. -/
theorem arbiters : Obligations.Arbiters := by
  unfold Obligations.Arbiters
  refine ⟨?request, ?grant, ?handOff, ?handOffNone, ?hold, ?mask, ?unmask, ?park, ?patrol⟩
  case request =>
    exact fun p q w u => occurs_of_evt (fun _ => rfl)
      (fun s ⟨hdown, hq, hone, hunits, hcredit, hsent, hopen⟩ => by
        simp only [hdown, hq, hone, hunits, hcredit, hsent, hopen]; rfl)
      (fun s ⟨hdown, _, _, _, hcredit, hsent, hopen⟩ => arbAsk_of_credit hdown hopen hcredit hsent rfl)
  case grant =>
    exact fun p x => occurs_of_evt (fun _ => rfl)
      (fun s ⟨hdown, hidle, hnext⟩ => by rw [hdown, hidle, hnext]; rfl)
      (fun s ⟨_, _, hnext⟩ => by rw [hnext])
  case handOff | handOffNone =>
    intros
    exact occurs_of_evt (fun _ => rfl)
      (fun s ⟨hgrant, hawake, _⟩ => by simp [hgrant, hawake])
      (fun s ⟨hgrant, _, hacc⟩ => by simp [State.handOff, hgrant, hacc])
  case hold =>
    exact fun p g => occurs_of_evt (fun _ => rfl)
      (fun s ⟨hgrant, henabled⟩ => by rw [hgrant, henabled]; rfl)
      (fun s ⟨hgrant, _⟩ => by rw [hgrant])
  case mask =>
    exact fun p q => occurs_of_evt (fun _ => rfl)
      (fun s ⟨hdown, hq, hclear⟩ => by simp only [hdown, hq, hclear]; rfl) (fun _ _ => rfl)
  case unmask =>
    exact fun p q => occurs_of_evt (fun _ => rfl) (fun s ⟨hset, hup⟩ => by rw [hset, hup]; rfl) (fun _ _ => rfl)
  case park =>
    exact fun p q x => occurs_of_evt (fun _ => rfl) (fun _ hfind => any_of_find?_same hfind)
      (fun s hfind => by rw [hfind])
  case patrol =>
    exact fun d p => occurs_of_evt (fun _ => rfl)
      (fun s ⟨hdie, hdown, hrun, hon, hpoints, hopen, hcredit⟩ => by
        simp only [hdie, hdown, hrun, hon, hpoints, hopen, hcredit]; rfl)
      (fun _ _ => rfl)

end Sys2Proof.Machine
end

section
/-! The obligations of the port and lane chapter: forwarded frames, BIND commands, PERST_N and clocks, links and arrivals. -/
namespace Sys2Proof.Machine

/-! ### Forwarded frames and messages outside the command set (R185, R463, R466, R467, R469) -/

/-- A mailbox frame reaches a running worker over an active link. -/
theorem trunkFrame_arrives {s : State} {tp : Nat} (hlink : (s.tp tp).state = .active) (hup : s.glob.pstate = .active)
    (hworker : s.glob.hrole = 2) :
    ((s.tp tp).state == .active && s.glob.pstate == .active && s.glob.hrole == 2) = true := by
  rw [hlink, hup, hworker]; rfl

/-- A forwarded frame of P0 over the trunk is none of those that are discarded (R466). -/
theorem trunkFrame_not_discarded {s : State} {tp : Nat} {f : Frame} (hpeer : (s.tp tp).peerIdx = 0) (hfwd : f.fwd = true)
    (htrunk : f.xport = .trunk) : ¬ ((s.tp tp).peerIdx ≠ 0 ∨ ¬ f.fwd = true ∨ f.xport ≠ .trunk) := by
  simp [hpeer, hfwd, htrunk]

/-- An MCTP control message reaches a module that has power, on SMBus, or on I3C with SB_VIO (R463, R627). -/
theorem mctp_reaches {s : State} {x : Xport} (hon : s.glob.pstate ≠ .off) (hbus : x = .smbus ∨ x = .i3c ∧ s.svc.sbVio = true) :
    (s.glob.pstate != .off && (x == .smbus || (x == .i3c && s.svc.sbVio))) = true := by
  simpa [hon] using hbus

/-- Settles O5: a frame of P0 splits on whether its reply is stored, a forwarded frame on how often it was sent again; the
rest answer by the record or the code they name. -/
theorem framesForwarded : Obligations.FramesForwarded := by
  unfold Obligations.FramesForwarded
  refine ⟨?new, ?again, ?resend, ?giveUp, ?reply, ?setEid, ?getEid, ?unsupported, ?cxl⟩
  case new =>
    exact fun tp f op => occurs_of_evt (fun _ => rfl)
      (fun s ⟨hlink, hup, hworker, _⟩ => trunkFrame_arrives hlink hup hworker)
      (fun s ⟨_, _, _, hpeer, hfwd, htrunk, hfresh⟩ => by
        rw [if_neg (trunkFrame_not_discarded hpeer hfwd htrunk)]
        cases hlast : Tbl.find s.mbx.lastFwd f.sid with
        | none => rfl
        | some r => exact if_neg (hfresh r hlast))
  case again =>
    exact fun tp f op x => occurs_of_evt (fun _ => rfl)
      (fun s ⟨hlink, hup, hworker, _⟩ => trunkFrame_arrives hlink hup hworker)
      (fun s ⟨_, _, _, hpeer, hfwd, htrunk, hlast, htag, hseq⟩ => by
        rw [if_neg (trunkFrame_not_discarded hpeer hfwd htrunk), hlast]
        exact if_pos ⟨htag, hseq⟩)
  case resend =>
    exact fun tag w => occurs_of_evt (fun _ => rfl)
      (fun s ⟨hfind, _⟩ => by rw [any_of_find?_same hfind, Bool.true_or])
      (fun s ⟨hfind, hfew⟩ => by rw [hfind]; exact if_pos hfew)
  case giveUp =>
    exact fun tag w => occurs_of_evt (fun _ => rfl)
      (fun s ⟨hfind, _⟩ => by rw [any_of_find?_same hfind, Bool.true_or])
      (fun s ⟨hfind, hmany⟩ => by rw [hfind]; exact if_neg (Nat.not_lt.mpr hmany))
  case reply =>
    exact fun tp tag rc data w => occurs_of_evt (fun _ => rfl) (fun _ ⟨hlink, _⟩ => beq_iff_eq.mpr hlink)
      (fun s ⟨_, hfind⟩ => by simp only [hfind])
  case setEid =>
    exact fun x ep arg => occurs_of_evt (fun _ => rfl) (fun _ ⟨hon, hbus, _⟩ => mctp_reaches hon hbus)
      (fun _ ⟨_, _, hmin, hmax⟩ => if_neg (by omega))
  case getEid =>
    exact fun x ep arg => occurs_of_evt (fun _ => rfl) (fun _ ⟨hon, hbus⟩ => mctp_reaches hon hbus) (fun _ _ => rfl)
  case unsupported =>
    exact fun f op => occurs_of_evt (fun _ => rfl) (fun _ hreach => hreach) (fun _ _ => rfl)
  case cxl =>
    exact fun p op => occurs_of_evt (fun _ => rfl) (fun _ ⟨hside, hup⟩ => Bool.and_eq_true_iff.mpr ⟨hside, hup⟩) (fun _ _ => rfl)

/-! ### BIND commands (R194, R239, R241 to R243, R647) -/

/-- What every member meets, none fails. -/
theorem any_not_eq_false_of_forall {α : Type} {l : List α} {p : α → Bool} (h : ∀ x ∈ l, p x = true) :
    l.any (fun x => ! p x) = false :=
  any_eq_false_of_forall fun x hx => by rw [h x hx]; rfl

/-- Extents of this home, or named in a window (HOME 15), are asked for at no other home. -/
theorem homesAway_eq_nil {es : List BindReq} {m : Nat} (h : ∀ b ∈ es, b.home = 15 ∨ b.home = m) :
    es.filter (fun b => b.home != 15 && b.home != m) = [] :=
  List.filter_eq_nil_iff.mpr fun b hb => by rcases h b hb with hhome | hhome <;> simp [hhome]

/-- An extent of another home has a home to ask. -/
theorem homesAway_ne_nil {es : List BindReq} {m : Nat} (h : ∃ b ∈ es, b.home ≠ 15 ∧ b.home ≠ m) :
    es.filter (fun b => b.home != 15 && b.home != m) ≠ [] := by
  obtain ⟨b, hb, haway⟩ := h
  exact List.ne_nil_of_mem (List.mem_filter.mpr ⟨hb, by simpa using haway⟩)

/-- The homes to ask are those of the extents elsewhere. -/
theorem filter_homes (es : List BindReq) (m : Nat) :
    (es.map (fun b => b.home)).filter (fun h => h != 15 && h != m)
      = (es.filter (fun b => b.home != 15 && b.home != m)).map (fun b => b.home) :=
  List.filter_map

/-- Homes that are members and not lost pass the check of PEER_LOST. -/
theorem homesAway_reached {s : State} {es : List BindReq}
    (h : ∀ b ∈ es, b.home = 15 ∨ b.home = s.glob.midx
      ∨ (s.hier.members.any (fun x => x.idx == b.home) = true ∧ s.hier.lost.contains b.home = false)) :
    ((es.map (fun b => b.home)).filter (fun m => m != 15 && m != s.glob.midx)).any
      (fun m => ! s.hier.members.any (fun x => x.idx == m) || s.hier.lost.contains m) = false := by
  refine any_eq_false_of_forall fun m hm => ?_
  obtain ⟨hes, haway⟩ := List.mem_filter.mp hm
  obtain ⟨b, hb, rfl⟩ := List.mem_map.mp hes
  obtain ⟨hwindow, hhere⟩ : b.home ≠ 15 ∧ b.home ≠ s.glob.midx := by simpa using haway
  obtain ⟨hmember, hreached⟩ := ((h b hb).resolve_left hwindow).resolve_left hhere
  rw [hmember, hreached]; rfl

/-- A virtual bridge 1 to 15 of a host in SWITCH mode and a logical device of a passed-through partner fit together (R184, R194). -/
theorem passthru_fits {s : State} {x : Partner} {host ld bridge : Nat} (hkind : x.kind = 5) (hld : ld < x.lds)
    (hswitch : s.isSwitch host = true) (hmin : 1 ≤ bridge) (hmax : bridge ≤ 15) :
    (x.kind != 5 || decide (x.lds ≤ ld) || bridge == 0 || decide (15 < bridge) || ! s.isSwitch host) = false := by
  simp [hkind, hld, hswitch, hmax, Nat.ne_of_gt hmin]

/-- Settles O10: each guard passes by the host, the entry or the bridge that the conditions name; BIND_ADD splits on whether an
extent has another home, BIND_RELEASE on FORCE. -/
theorem bindCommands : Obligations.BindCommands := by
  unfold Obligations.BindCommands
  refine ⟨?addHere, ?addAway, ?release, ?force, ?table, ?passthru⟩
  case addHere =>
    exact fun f host es => answers_of_command (fun _ => rfl)
      (fun _ _ s ⟨hhost, hstays, hdecodes, hentries, hfree, hroom, hhome⟩ => by
        have hshape := any_not_eq_false_of_forall fun b hb => (hentries b hb).1
        have haway := homesAway_eq_nil fun b hb => (hentries b hb).2
        rw [hhost]
        simp only [checks_cons, checks_nil, hdecodes, hshape, hfree, decide_eq_false (Nat.not_lt.mpr hroom), hstays,
          filter_homes, haway, hhome]
        cases s.hier.remove <;> cases s.opRunning 11 <;> rfl)
      (fun _ _ s ⟨_, _, _, hentries, _⟩ => if_pos (homesAway_eq_nil fun b hb => (hentries b hb).2))
  case addAway =>
    exact fun f host es => answers_of_command (fun _ => rfl)
      (fun _ _ s ⟨hhost, hstays, hdecodes, hentries, hfree, hroom, hidle, _, hreached, hhome⟩ => by
        have hshape := any_not_eq_false_of_forall hentries
        rw [hhost]
        simp only [checks_cons, checks_nil, hdecodes, hshape, hfree, decide_eq_false (Nat.not_lt.mpr hroom), hstays, hidle,
          homesAway_reached hreached, hhome]
        rfl)
      (fun _ _ s ⟨_, _, _, _, _, _, _, haway, _⟩ => if_neg (homesAway_ne_nil haway))
  case release =>
    exact fun f host n e => answers_of_command (fun _ => rfl)
      (fun _ _ s ⟨hhost, hn, hentry, hvalid, _⟩ => by
        simp only [hhost, Option.orElse_none, hentry, if_neg (Nat.not_le.mpr hn), hvalid])
      (fun _ _ s ⟨_, _, hentry, hvalid, hdynamic⟩ => by simp [hentry, hvalid, hdynamic])
  case force =>
    exact fun f host n e => answers_of_command (fun _ => rfl)
      (fun _ _ s ⟨hhost, hn, hentry, hstate, _⟩ => by
        rcases hstate with hstate | hstate <;>
          simp only [hhost, Option.orElse_none, hentry, if_neg (Nat.not_le.mpr hn), hstate, if_true])
      (fun _ _ s ⟨_, _, hentry, hstate, hdynamic⟩ => by
        rcases hstate with hstate | hstate <;> simp [hentry, hstate, hdynamic])
  case table =>
    exact fun f host => answers_of_query (fun _ => rfl) (fun _ _ s hport => if_neg (by rw [Option.isNone_eq_false_iff.mpr hport]; decide))
  case passthru =>
    exact fun f port ld host bridge x => answers_of_command (fun _ => rfl)
      (fun _ _ s ⟨hhost, hpartner, htimer, hstays, hdecodes, hkind, hld, hswitch, hmin, hmax, hbridge, hdevice⟩ => by
        simp only [hhost, Option.orElse_none, hpartner, checks_cons, checks_nil, hdecodes, htimer, hstays,
          passthru_fits hkind hld hswitch hmin hmax, hbridge, hdevice]
        rfl)
      (fun _ _ _ _ => rfl)

/-! ### PERST_N, clocks and receiver detection (R211 to R218, R220) -/

/-- Settles O42: each event's own test is the stated one; a receiver that is found splits on whether the port may train. -/
theorem groupsAndClocks : Obligations.GroupsAndClocks := by
  unfold Obligations.GroupsAndClocks
  refine ⟨?perstLow, ?perstHigh, ?perstTimer, ?stable, ?lost, ?returned, ?receiver⟩
  case perstLow =>
    exact fun g => occurs_of_evt (fun _ => rfl)
      (fun s ⟨hg, hupstream, hpin, hhost⟩ => by simp [hg, hupstream, hpin, hhost]) (fun _ _ => rfl)
  case perstHigh =>
    exact fun g => occurs_of_evt (fun _ => rfl) (fun _ hlow => hlow) (fun _ _ => rfl)
  case perstTimer =>
    exact fun g => occurs_of_evt (fun _ => rfl)
      (fun s ⟨hg, hdownstream, hdriven, hbring, hlive, hawake⟩ => by
        simp only [hg, hdownstream, hdriven, hbring, hlive, hawake]; rfl)
      (fun _ _ => rfl)
  case stable | lost =>
    exact fun k => occurs_of_evt (fun _ => rfl) (fun s ⟨hk, hnot⟩ => by simp only [hk, hnot]; rfl) (fun _ _ => rfl)
  case returned =>
    exact fun k => occurs_of_evt (fun _ => rfl) (fun _ hlost => hlost) (fun _ _ => rfl)
  case receiver =>
    exact fun p x => occurs_of_evt (fun _ => rfl)
      (fun s ⟨hport, hdetect⟩ => by rw [hport, hdetect]; rfl)
      (fun s _ => by
        cases x with
        | false => rfl
        | true => cases htrain : s.mayTrain p <;> rfl)

/-! ### Links come up and partners arrive (R182, R191, R197, R199, R205, R207, R209, R217, R224, R252, R253) -/

/-- A link comes up at a width and rate that its port, its lanes and its partner allow (R182, R191). -/
theorem linkUp_allowed {s : State} {p w r : Nat} {i : PartnerId} (hport : s.isPort p = true)
    (htrains : (s.port p).lanes = .training) (hwidth : w = 2 ∨ w = 4 ∨ w = 8 ∨ w = 16) (hmaxW : w ≤ s.maxWidth p)
    (hmin : 1 ≤ r) (hmaxR : r ≤ s.maxRate p) (hside : (i.kind == 0) = s.isUp p) (hcxl : i.cxl = 2 → r ≤ 5) :
    (s.isPort p && (s.port p).lanes == .training && (w == 2 || w == 4 || w == 8 || w == 16) && decide (w ≤ s.maxWidth p)
      && decide (1 ≤ r) && decide (r ≤ s.maxRate p) && (i.kind == 0) == s.isUp p && (i.cxl != 2 || decide (r ≤ 5))) = true := by
  simp [hport, htrains, hmaxW, hmin, hmaxR, hside, or_assoc, hwidth, imp_iff_not_or.mp hcxl]

/-- The identity read at a port is that of a partner with memory, where its kind says so (R217, R224). -/
theorem hasMemory_of_kind {o : Option PartnerId} {i : PartnerId} (hid : o = some i) (hkind : i.kind = 1 ∨ i.kind = 4) :
    o.any (fun i => i.kind == 1 || i.kind == 4) = true := by
  subst hid; simpa using hkind

/-- Settles O43: a link comes up within its port's limits; an SPDM session splits on whether a partner, and a newcomer behind
it, is known; an idle link on whether all lanes or some of them rest. -/
theorem linksAndPartners : Obligations.LinksAndPartners := by
  unfold Obligations.LinksAndPartners
  refine ⟨?up, ?ide, ?memory, ?memoryNot, ?arrive, ?lastTick, ?confirmed, ?changed, ?supplied, ?unknown, ?l1, ?l0p, ?exit, ?exitWaited⟩
  case up =>
    exact fun p w r v i => occurs_of_evt (fun _ => rfl)
      (fun s ⟨hport, htrains, hwidth, hmaxW, hmin, hmaxR, hside, hcxl⟩ =>
        linkUp_allowed hport htrains hwidth hmaxW hmin hmaxR hside hcxl)
      (fun s _ => by simp only [Bool.and_eq_true, bne_iff_ne, decide_eq_true_eq])
  case ide =>
    exact fun p => occurs_of_evt (fun _ => rfl) (fun _ hup => hup) (fun _ _ => rfl)
  case memory =>
    exact fun p c i => occurs_of_evt (fun _ => rfl)
      (fun s ⟨hup, henum, hid, hkind⟩ => by rw [hup, henum, hasMemory_of_kind hid hkind]; rfl) (fun _ _ => rfl)
  case memoryNot =>
    exact fun p i => occurs_of_evt (fun _ => rfl)
      (fun s ⟨hup, henum, hinactive, hid, hkind⟩ => by
        rw [hup, henum, hinactive, hasMemory_of_kind hid hkind]; rfl)
      (fun _ _ => rfl)
  case arrive =>
    exact fun p i => occurs_of_evt (fun _ => rfl) (fun _ ⟨hready, _⟩ => hready) (fun s ⟨_, hid⟩ => by simp only [hid])
  case lastTick =>
    exact fun p c x i => occurs_of_evt (fun _ => rfl) (fun _ ⟨hup, hside, _⟩ => Bool.and_eq_true_iff.mpr ⟨hup, hside⟩)
      (fun s ⟨_, _, hpartner, hnew⟩ => by simp only [hpartner, hnew, if_true])
  case confirmed =>
    exact fun p c x i => occurs_of_evt (fun _ => rfl) (fun _ ⟨hup, hside, _⟩ => Bool.and_eq_true_iff.mpr ⟨hup, hside⟩)
      (fun s ⟨_, _, hpartner, hnew, hsame⟩ => by simp only [hpartner, hnew, hsame]; rfl)
  case changed =>
    exact fun p c x i => occurs_of_evt (fun _ => rfl) (fun _ ⟨hup, hside, _⟩ => Bool.and_eq_true_iff.mpr ⟨hup, hside⟩)
      (fun s ⟨_, _, hpartner, hnew, hother⟩ => by simp only [hpartner, hnew, hother]; rfl)
  case supplied =>
    exact fun p c x => occurs_of_evt (fun _ => rfl) (fun _ ⟨hup, hside, _⟩ => Bool.and_eq_true_iff.mpr ⟨hup, hside⟩)
      (fun s ⟨_, _, hpartner, hnone, htimer⟩ => by simp only [hpartner, hnone, htimer]; rfl)
  case unknown =>
    exact fun p c => occurs_of_evt (fun _ => rfl) (fun _ ⟨hup, hside, _⟩ => Bool.and_eq_true_iff.mpr ⟨hup, hside⟩)
      (fun s ⟨_, _, hnone⟩ => by simp only [hnone])
  case l1 =>
    exact fun p => occurs_of_evt (fun _ => rfl) (fun s ⟨hactive, haspm⟩ => by simp [hactive, haspm]) (fun _ _ => rfl)
  case l0p =>
    exact fun p w => occurs_of_evt (fun _ => rfl)
      (fun s ⟨hactive, hsome, hfewer, henabled⟩ => by simp [hactive, hsome, hfewer, henabled])
      (fun s ⟨_, hsome, _⟩ => by simp only [if_neg hsome])
  case exit =>
    exact fun p => occurs_of_evt (fun _ => rfl) (fun s ⟨hidle, _⟩ => by simpa using hidle)
      (fun s ⟨_, hnone⟩ => if_neg (by simp [hnone]))
  case exitWaited =>
    exact fun p g x => occurs_of_evt (fun _ => rfl) (fun s ⟨hidle, _⟩ => by rw [hidle]; rfl)
      (fun s ⟨_, hwaits, hgrant, hacc⟩ => if_pos (by simp [hwaits, hgrant, hacc]))

end Sys2Proof.Machine
end

section
/-! The obligations of the partner and binding chapter: PARTNER commands, the steps of an evacuation, what hosts answer to capacity events. -/
namespace Sys2Proof.Machine

/-! ### PARTNER commands (R229, R251, R256 to R258, R265) -/

/-- A value given only within a range is not outside it. -/
theorem any_outside_eq_false {o : Option Nat} {lo hi : Nat} (h : o.all (fun v => decide (lo ≤ v ∧ v ≤ hi)) = true) :
    o.any (fun v => decide (v < lo) || decide (hi < v)) = false :=
  (none_outside_of_all_inside (place := true) (by simpa only [Bool.and_true] using h)).1

/-- An operand that is 0 for its default, or within its range, passes its check. -/
theorem defaultOrRange_passes {n lo hi : Nat} (h : n = 0 ∨ lo ≤ n ∧ n ≤ hi) :
    (n != 0 && (decide (n < lo) || decide (hi < n))) = false := by
  rcases h with rfl | ⟨hlo, hhi⟩
  · rfl
  · simp [Nat.not_lt.mpr hlo, Nat.not_lt.mpr hhi]

/-- A CXL port 0 to 63 or a trunk port TP0 to TP7 is one that PARTNER_SET can name (the PORT field of R228). -/
theorem partnerPort_passes {port : Nat} (h : port < 64 ∨ 0x40 ≤ port ∧ port ≤ 0x47) :
    (! (decide (port < 64) || (decide (0x40 ≤ port) && decide (port ≤ 0x47)))) = false := by
  simpa only [Bool.not_eq_false', Bool.or_eq_true, Bool.and_eq_true, decide_eq_true_eq] using h

/-- Settles O8: each guard passes by the partner or the ranges that the conditions name; PARTNER_EVENT_GET splits on whether
records were lost, and then one record fewer is taken from the queue. -/
theorem partnerCommands : Obligations.PartnerCommands := by
  unfold Obligations.PartnerCommands
  refine ⟨?list, ?events, ?eventsLost, ?set, ?release, ?evacuate⟩
  case list =>
    exact fun f => answers_of_query (fun _ => rfl) (fun _ _ _ _ => rfl)
  case events =>
    exact fun f count => answers_of_command (fun _ => rfl) (fun _ _ _ _ => rfl)
      (fun _ _ s hnone => by cases count <;> simp [hnone])
  case eventsLost =>
    exact fun f count n q t => answers_of_command (fun _ => rfl) (fun _ _ _ _ => rfl)
      (fun _ _ s ⟨hlost, hcount⟩ => by
        have hsome : count ≠ 0 := Nat.ne_of_gt hcount
        simp only [hlost, if_neg hsome, List.length_singleton, List.singleton_append])
  case set =>
    exact fun f port timer snoop auto => answers_of_command (fun _ => rfl)
      (fun _ _ s ⟨hport, htimer, hsnoop, htimeouts, hgates⟩ => by
        simp only [checks_cons, checks_nil, partnerPort_passes hport, any_outside_eq_false htimer,
          any_outside_eq_false hsnoop, htimeouts, hgates]
        rfl)
      (fun _ _ _ _ => rfl)
  case release =>
    exact fun f port x => answers_of_command (fun _ => rfl)
      (fun _ _ s ⟨hpartner, hstays, htimer⟩ => by
        simp only [hpartner, checks_cons, checks_nil, hstays, Option.isNone_eq_false_iff.mpr htimer]
        rfl)
      (fun _ _ _ _ => rfl)
  case evacuate =>
    exact fun f port ch share stall passes mask x => answers_of_command (fun _ => rfl)
      (fun _ _ s ⟨hpartner, htimer, hstays, hidle, hkind, hch, hshare, hstall, hpasses, hcarve, hslice, hjob, hroom⟩ => by
        simp only [hpartner, checks_cons, checks_nil, htimer, hstays, hidle, hkind, decide_eq_false (Nat.not_lt.mpr hch),
          decide_eq_false (Nat.not_lt.mpr hshare), defaultOrRange_passes hstall, defaultOrRange_passes hpasses, hcarve,
          hslice, hjob, decide_eq_false (Nat.not_lt.mpr hroom)]
        rfl)
      (fun _ _ _ _ => rfl)

/-! ### The steps of an evacuation (R259 to R262) -/

/-- What holds of the evacuation that runs holds of one that runs. -/
theorem evac_any {s : State} {v : Evac} {p : Evac → Bool} (hevac : s.pool.evac = some v) (hp : p v = true) :
    s.pool.evac.any p = true := by
  rw [hevac]; exact hp

/-- EVAC_PASS_DONE can occur for the extent an evacuation copies. -/
theorem evacPassDone_occurs {s : State} {v : Evac} (hevac : s.pool.evac = some v) (hstep : v.step = 2) :
    s.pool.evac.any (fun w => w.e == v.e && w.step == 2) = true :=
  evac_any hevac (by simp [hstep])

/-- The guard of the write stall can expire from its beginning on. -/
theorem evacStallGuard_occurs {s : State} {v : Evac} (hevac : s.pool.evac = some v) (hstep : 4 ≤ v.step) :
    s.pool.evac.any (fun w => decide (4 ≤ w.step)) = true :=
  evac_any hevac (decide_eq_true hstep)

/-- Settles O9: a copy pass splits on the pages it leaves and then on the passes left, the guard on whether it expired before;
EVAC_EXTENT_DONE counts the copy passes without the final one (log 122). -/
theorem evacuationSteps : Obligations.EvacuationSteps := by
  unfold Obligations.EvacuationSteps
  refine ⟨?stall, ?again, ?given, ?drained, ?final, ?guardOnce, ?guardTwice⟩
  case stall =>
    exact fun v => occurs_of_evt (fun _ => rfl) (fun _ ⟨hevac, hstep, _⟩ => evacPassDone_occurs hevac hstep)
      (fun s ⟨hevac, _, hfew⟩ => by simp only [hevac]; exact if_pos hfew)
  case again =>
    exact fun v => occurs_of_evt (fun _ => rfl) (fun _ ⟨hevac, hstep, _⟩ => evacPassDone_occurs hevac hstep)
      (fun s ⟨hevac, _, hmany, hleft⟩ => by
        simp only [hevac]
        exact (if_neg (Nat.not_le.mpr hmany)).trans (if_neg (Nat.not_le.mpr hleft)))
  case given =>
    exact fun v => occurs_of_evt (fun _ => rfl) (fun _ ⟨hevac, hstep, _⟩ => evacPassDone_occurs hevac hstep)
      (fun s ⟨hevac, _, hmany, hlast⟩ => by
        simp only [hevac]
        exact (if_neg (Nat.not_le.mpr hmany)).trans (if_pos hlast))
  case drained =>
    exact fun v => occurs_of_evt (fun _ => rfl)
      (fun _ ⟨hevac, hstep, hquiet⟩ => evac_any hevac (by simp [hstep, hquiet]))
      (fun s ⟨hevac, _⟩ => by simp only [hevac])
  case final =>
    exact fun v o => occurs_of_evt (fun _ => rfl) (fun _ ⟨hevac, hstep, _⟩ => evac_any hevac (beq_iff_eq.mpr hstep))
      (fun s ⟨hevac, _, hop⟩ => by simp only [hevac, hop])
  case guardOnce =>
    exact fun v => occurs_of_evt (fun _ => rfl) (fun _ ⟨hevac, hstep, _⟩ => evacStallGuard_occurs hevac hstep)
      (fun s ⟨hevac, _, hfirst⟩ => by simp [hevac, hfirst])
  case guardTwice =>
    exact fun v => occurs_of_evt (fun _ => rfl) (fun _ ⟨hevac, hstep, _⟩ => evacStallGuard_occurs hevac hstep)
      (fun s ⟨hevac, _, hsecond⟩ => by simp only [hevac]; exact if_pos hsecond)

/-! ### What hosts answer to capacity events (R239, R241 to R243) -/

/-- An event of a binding entry can occur in the entry's state. -/
theorem entryEvent_occurs {s : State} {host n : Nat} {st : EntState} (hstate : s.entState host n = some st) (hn : n < 512) :
    (s.entState host n == some st && decide (n < 512)) = true := by
  rw [hstate, decide_eq_true hn, beq_self_eq_true]; rfl

/-- Settles O11: each event's own test is the entry's state; the end of a removal splits on whether a BIND_RELEASE with FORCE
waits for it. -/
theorem bindEvents : Obligations.BindEvents := by
  unfold Obligations.BindEvents
  refine ⟨?response, ?addTimeout, ?release, ?releaseTimeout, ?removed, ?removedForced⟩
  case response =>
    exact fun host acc dec => occurs_of_evt (fun _ => rfl) (fun _ hlive => hlive) (fun _ _ => rfl)
  case addTimeout | release | releaseTimeout =>
    exact fun host n => occurs_of_evt (fun _ => rfl) (fun _ ⟨hstate, hn⟩ => entryEvent_occurs hstate hn) (fun _ _ => rfl)
  case removed =>
    exact fun host n => occurs_of_evt (fun _ => rfl)
      (fun _ ⟨hstate, hn, hquiet, _⟩ => Bool.and_eq_true_iff.mpr ⟨entryEvent_occurs hstate hn, hquiet⟩)
      (fun s ⟨_, _, _, hnone⟩ => by simp only [hnone])
  case removedForced =>
    exact fun host n x => occurs_of_evt (fun _ => rfl)
      (fun _ ⟨hstate, hn, hquiet, _⟩ => Bool.and_eq_true_iff.mpr ⟨entryEvent_occurs hstate hn, hquiet⟩)
      (fun s ⟨_, _, _, hforced⟩ => by simp only [hforced])

end Sys2Proof.Machine
end

section
/-! The obligations of the trunk and hierarchy chapter: HIER commands, roles and joins, and the trunk links from training to loss. -/
namespace Sys2Proof.Machine

/-! ### HIER commands (R303, R307, R308, R310, R313, R316) -/

/-- TP0 to TP7 are the trunk ports. -/
theorem trunkPort_passes {t : Nat} (ht : t < 8) : (if 8 ≤ t then some rcNotFound else none) = none :=
  if_neg (Nat.not_le.mpr ht)

/-- Settles O25: each guard passes by the join, member, index or port that the conditions name. That settings and admissions go
out as message kinds 6 and 2 and the question as ask kind 9 is the model's choice (log 19), and so is that P0 refuses over its
own bindings before it asks (log 63). -/
theorem hierarchyCommands : Obligations.HierarchyCommands := by
  unfold Obligations.HierarchyCommands
  refine ⟨?status, ?keySet, ?set, ?admission, ?remove, ?forget, ?disable, ?enable⟩
  case status =>
    exact fun f => answers_of_query (fun _ => rfl) (fun _ _ _ _ => rfl)
  case keySet =>
    exact fun f key => answers_of_command (fun _ => rfl) (fun _ _ _ _ => rfl) (fun _ _ _ _ => rfl)
  case set =>
    exact fun f pref auto ms tr => answers_of_command (fun _ => rfl)
      (fun _ _ s ⟨hms, htr, htimeouts, hgates⟩ => by
        simp only [checks_cons, checks_nil, any_outside_eq_false hms, any_outside_eq_false htr, htimeouts, hgates]
        rfl)
      (fun _ _ _ _ => rfl)
  case admission =>
    exact fun f sn j => answers_of_command (fun _ => rfl)
      (fun _ _ s ⟨hjoin, hserial, hwaits⟩ => if_pos (by simp [hjoin, hserial, hwaits]))
      (fun _ _ s ⟨hjoin, _⟩ => by simp only [hjoin, Option.map_some, Option.getD_some])
  case remove =>
    exact fun f i m => answers_of_command (fun _ => rfl)
      (fun _ _ s ⟨hother, hmember, hreached, hidle, hnoJoin, hnoAsk, hfree⟩ => by
        simp only [checks_cons, checks_nil, beq_eq_false_iff_ne.mpr hother, any_of_find?_same hmember, hreached, hidle,
          hnoJoin, hnoAsk, hfree]
        rfl)
      (fun _ _ _ _ => rfl)
  case forget =>
    exact fun f i => answers_of_command (fun _ => rfl) (fun _ _ _ hreserved => if_pos hreserved) (fun _ _ _ _ => rfl)
  case disable =>
    exact fun f t => answers_of_command (fun _ => rfl) (fun _ _ _ ⟨ht, _⟩ => trunkPort_passes ht)
      (fun _ _ s ⟨_, hgoes⟩ => by simp [hgoes])
  case enable =>
    exact fun f t => answers_of_command (fun _ => rfl) (fun _ _ _ ht => trunkPort_passes ht) (fun _ _ _ _ => rfl)

/-! ### Links in a state -/

/-- An event of a link can occur where its trunk port is live and the link is in the event's state. -/
theorem linkEvent_occurs {s : State} {t : Nat} {st : TState} (hlive : s.trunkLive t = true) (hstate : (s.tp t).state = st) :
    (s.trunkLive t && (s.tp t).state == st) = true :=
  Bool.and_eq_true_iff.mpr ⟨hlive, beq_iff_eq.mpr hstate⟩

/-- An event of a link in either of two states can occur in each. -/
theorem linkEvent_occurs_either {s : State} {t : Nat} {st st' : TState} (hlive : s.trunkLive t = true)
    (hstate : (s.tp t).state = st ∨ (s.tp t).state = st') :
    (s.trunkLive t && ((s.tp t).state == st || (s.tp t).state == st')) = true := by
  simpa [hlive] using hstate

/-- An event of a link whose receiver matters too can occur with the receiver in the event's state. -/
theorem receiverEvent_occurs {s : State} {t : Nat} {st : TState} {rx : TL} (hlive : s.trunkLive t = true)
    (hstate : (s.tp t).state = st) (hrx : (s.tp t).rx = rx) :
    (s.trunkLive t && (s.tp t).state == st && (s.tp t).rx == rx) = true :=
  Bool.and_eq_true_iff.mpr ⟨linkEvent_occurs hlive hstate, beq_iff_eq.mpr hrx⟩

/-! ### Roles, joins and leaves (R306, R308, R309, R312, R313) -/

/-- Settles O26: a join ends on the side that the role names; a removal splits on whose index it carries, a control message on
the role. The message kinds 3, 5 and 7 (log 19), and what a leave, a split and a failed join leave behind (log 63), are the
model's choice. -/
theorem hierarchyEvents : Obligations.HierarchyEvents := by
  unfold Obligations.HierarchyEvents
  refine ⟨?declare, ?meshP0, ?meshWorker, ?timeout, ?retry, ?step, ?own, ?split, ?follow, ?leave⟩
  case declare =>
    exact occurs_of_evt (fun _ => rfl)
      (fun s ⟨hup, hma, hpref, hfresh, hrole, hnone⟩ => by
        have hnoManager : (List.range 8).any (fun t => (s.tp t).peerRole == 1 && (s.tp t).state != .off && (s.tp t).state != .train) = false :=
          any_eq_false_of_forall fun t ht => by simpa using hnone t (List.mem_range.mp ht)
        rw [hup, hma, hpref, hfresh, hrole, hnoManager]; rfl)
      (fun _ _ => rfl)
  case meshP0 =>
    exact fun j => occurs_of_evt (fun _ => rfl)
      (fun s ⟨hup, hrole, hjoin, hadmitted, hlink⟩ => by simp [hup, hrole, hjoin, hadmitted, hlink])
      (fun s ⟨_, _, hjoin, _⟩ => by simp only [hjoin])
  case meshWorker =>
    exact occurs_of_evt (fun _ => rfl)
      (fun s ⟨hup, hrole, hindex, hadmitted, hjoins, hmeshed, _⟩ => by simp [hup, hrole, hindex, hadmitted, hjoins, hmeshed])
      (fun s ⟨_, _, _, _, _, _, hnone⟩ => by simp only [hnone])
  case timeout =>
    exact fun j => occurs_of_evt (fun _ => rfl)
      (fun s ⟨hup, hrole, hjoin, hadmitted⟩ => by simp [hup, hrole, hjoin, hadmitted])
      (fun s ⟨_, _, hjoin, _⟩ => by simp only [hjoin]; rfl)
  case retry =>
    exact occurs_of_evt (fun _ => rfl) (fun s ⟨hup, hrole, hfailed⟩ => by rw [hup, hrole, hfailed]; rfl) (fun _ _ => rfl)
  case step =>
    exact fun i n => occurs_of_evt (fun _ => rfl)
      (fun s ⟨hremove, hother, hn, hquiet⟩ => by
        simpa [hremove, hother, hn, imp_iff_not_or] using hquiet)
      (fun s ⟨hremove, hother, _⟩ => by simp only [hremove, if_neg hother])
  case own =>
    exact fun n => occurs_of_evt (fun _ => rfl)
      (fun s ⟨hremove, hwritten⟩ => by simp only [hremove, if_true, hwritten, List.isEmpty_nil])
      (fun s ⟨hremove, _⟩ => by simp only [hremove, if_true])
  case split =>
    exact fun t m => occurs_of_evt (fun _ => rfl)
      (fun s ⟨hlive, hlink, hidx, _⟩ => by rw [linkEvent_occurs hlive hlink, decide_eq_true hidx]; rfl)
      (fun s ⟨_, _, _, hrole, hkind⟩ => (if_pos hrole).trans (if_pos hkind))
  case follow =>
    exact fun t m => occurs_of_evt (fun _ => rfl)
      (fun s ⟨hlive, hlink, hidx, _⟩ => by rw [linkEvent_occurs hlive hlink, decide_eq_true hidx]; rfl)
      (fun s ⟨_, _, _, hrole, hp0⟩ => (if_neg hrole).trans (if_pos hp0))
  case leave =>
    exact fun t i => occurs_of_evt (fun _ => rfl)
      (fun s ⟨hlive, hlink, hpeer⟩ => Bool.and_eq_true_iff.mpr ⟨linkEvent_occurs hlive hlink, beq_iff_eq.mpr hpeer⟩)
      (fun _ _ => rfl)

/-! ### A link trains, aligns and authenticates (R270, R274, R278, R279, R287 to R291, R300, R301, R306, R307) -/

/-- A trunk port's record that is not OFF is read back as written. -/
theorem modTp_tp_of_state_ne_off {s : State} {t : Nat} {f : Trunk → Trunk} (h : (f (s.tp t)).state ≠ .off) :
    (s.modTp t f).tp t = f (s.tp t) :=
  modTp_tp_self s t f fun hreset => h (by rw [hreset])

/-- A link whose four lanes are aligned in time and that waits for it in ALIGN or HOLD can leave it. -/
theorem trunkAlignDone_occurs {s : State} {t n : Nat} (hlive : s.trunkLive t = true)
    (hstate : (s.tp t).state = .align ∨ (s.tp t).state = .hold) (haligned : (s.tp t).aligned = true) (hn : n ≤ 80) :
    (decide (n ≤ 80) && s.trunkLive t && ((s.tp t).state == .align || (s.tp t).state == .hold) && (s.tp t).aligned) = true := by
  rw [decide_eq_true hn, Bool.true_and, linkEvent_occurs_either hlive hstate, haligned]; rfl

/-- A lane marker arrives on a lane of a trained link whose receiver does not rest in TL3. -/
theorem laneMarker_occurs {s : State} {t l k : Nat} (hlive : s.trunkLive t = true) (hl : l < 4) (hk : k < 16)
    (hon : (s.tp t).state ≠ .off) (htrained : (s.tp t).state ≠ .train) (hrx : (s.tp t).rx ≠ .tl3) :
    (s.trunkLive t && decide (l < 4) && decide (k < 16) && (s.tp t).state != .off && (s.tp t).state != .train
      && (s.tp t).rx != .tl3) = true := by
  simp [hlive, hl, hk, hon, htrained, hrx]

/-- An AUTH_RESP arrives in AUTH once the peer's nonce is known. -/
theorem authResp_occurs {s : State} {t : Nat} {n : BitVec 256} (hlive : s.trunkLive t = true) (hauth : (s.tp t).state = .auth)
    (hnonce : (s.tp t).noncePeer = some n) :
    (s.trunkLive t && (s.tp t).state == .auth && (s.tp t).noncePeer.isSome) = true := by
  rw [linkEvent_occurs hlive hauth, hnonce]; rfl

/-- Settles O45: a link in HOLD goes another way than one in ALIGN or INIT, a marker splits on its CRC, INIT_CREDIT on a twin
link and on who is P0, AUTH on the key and the proof. ACTIVE only once both proofs stand (log 62) and the values of the role byte (log 61) are the
model's choice. -/
theorem trunkBringUp : Obligations.TrunkBringUp := by
  unfold Obligations.TrunkBringUp
  refine ⟨?trained, ?trainTimeout, ?alignInit, ?alignHold, ?markerGood, ?markerBad, ?initHold, ?initTwin, ?initGoes, ?chal,
    ?chalNoKey, ?respRight, ?respWrong, ?retry, ?repeatInit, ?repeatAuth, ?repeatHold⟩
  case trained =>
    exact fun t b => occurs_of_evt (fun _ => rfl) (fun _ ⟨hlive, hstate⟩ => linkEvent_occurs_either hlive hstate)
      (fun _ _ => rfl)
  case trainTimeout =>
    exact fun t => occurs_of_evt (fun _ => rfl) (fun _ ⟨hlive, hstate⟩ => linkEvent_occurs_either hlive hstate)
      (fun _ _ => rfl)
  case alignInit =>
    exact fun t n => occurs_of_evt (fun _ => rfl)
      (fun _ ⟨hlive, hstate, haligned, hn⟩ => trunkAlignDone_occurs hlive (.inl hstate) haligned hn)
      (fun _ ⟨_, hstate, _⟩ => if_neg (by simp [hstate]))
  case alignHold =>
    exact fun t n => occurs_of_evt (fun _ => rfl)
      (fun _ ⟨hlive, hstate, haligned, hn⟩ => trunkAlignDone_occurs hlive (.inr hstate) haligned hn)
      (fun _ ⟨_, hstate, _⟩ => if_pos hstate)
  case markerGood =>
    exact fun t l x n k => occurs_of_evt (fun _ => rfl)
      (fun _ ⟨hlive, hl, hk, _, _, hon, htrained, hrx⟩ => laneMarker_occurs hlive hl hk hon htrained hrx)
      (fun s ⟨_, _, _, hx, hn, _⟩ => by simp only [if_true, Nat.mod_eq_of_lt hx, Nat.mod_eq_of_lt hn])
  case markerBad =>
    exact fun t l x n k => occurs_of_evt (fun _ => rfl)
      (fun _ ⟨hlive, hl, hk, hon, htrained, hrx⟩ => laneMarker_occurs hlive hl hk hon htrained (by simp [hrx]))
      (fun s ⟨_, _, _, _, _, hrx⟩ => by
        have hawake : (s.tp t).rx ≠ .tl1 := by simp [hrx]
        exact (if_neg Bool.false_ne_true).trans (if_neg hawake))
  case initHold =>
    exact fun t sn i r c => occurs_of_evt (fun _ => rfl)
      (fun _ ⟨hlive, hstate⟩ => linkEvent_occurs_either hlive (.inr hstate)) (fun _ ⟨_, hstate⟩ => if_pos hstate)
  case initTwin =>
    exact fun t sn i r c => occurs_of_evt (fun _ => rfl)
      (fun _ ⟨hlive, hstate, _⟩ => linkEvent_occurs_either hlive (.inl hstate))
      (fun s ⟨_, hstate, hi, hgoes, htwin⟩ => by
        have hnoHold : (s.tp t).state ≠ .hold := by simp [hstate]
        simp only [if_neg hnoHold, Nat.mod_eq_of_lt hi, htwin, if_true]
        rw [modTp_tp_of_state_ne_off (by simp [hstate])]
        exact if_neg (by simp [hgoes]))
  case initGoes =>
    exact fun t sn i r c => occurs_of_evt (fun _ => rfl)
      (fun _ ⟨hlive, hstate, _⟩ => linkEvent_occurs_either hlive (.inl hstate))
      (fun s ⟨_, hstate, hi, hgoes, htwin, hroles⟩ => by
        have hnoHold : (s.tp t).state ≠ .hold := by simp [hstate]
        simp only [if_neg hnoHold, Nat.mod_eq_of_lt hi, htwin]
        rw [modTp_tp_of_state_ne_off (by simp [hstate])]
        exact (if_neg (by simp [hgoes])).trans ((if_neg Bool.false_ne_true).trans (if_neg hroles)))
  case chal =>
    exact fun t n k => occurs_of_evt (fun _ => rfl)
      (fun _ ⟨hlive, hstate, _⟩ => linkEvent_occurs_either hlive (.inl hstate))
      (fun s ⟨_, _, hkey⟩ => by simp only [hkey])
  case chalNoKey =>
    exact fun t n => occurs_of_evt (fun _ => rfl)
      (fun _ ⟨hlive, hstate, _⟩ => linkEvent_occurs_either hlive (.inl hstate))
      (fun s ⟨_, hstate, hnone⟩ => by simp only [hnone]; exact if_pos hstate)
  case respRight =>
    exact fun t h k n => occurs_of_evt (fun _ => rfl)
      (fun _ ⟨hlive, hstate, hnonce, _⟩ => authResp_occurs hlive hstate hnonce)
      (fun s ⟨_, _, hnonce, hkey, hproof⟩ => by
        simp only [hkey, hnonce, Option.getD_some]; exact if_pos hproof)
  case respWrong =>
    exact fun t h k n => occurs_of_evt (fun _ => rfl)
      (fun _ ⟨hlive, hstate, hnonce, _⟩ => authResp_occurs hlive hstate hnonce)
      (fun s ⟨_, _, hnonce, hkey, hproof⟩ => by
        simp only [hkey, hnonce, Option.getD_some]; exact if_neg hproof)
  case retry =>
    exact fun t => occurs_of_evt (fun _ => rfl)
      (fun _ ⟨hlive, hstate, hfew⟩ => Bool.and_eq_true_iff.mpr ⟨linkEvent_occurs hlive hstate, decide_eq_true hfew⟩)
      (fun _ _ => rfl)
  case repeatInit =>
    exact fun t => occurs_of_evt (fun _ => rfl) (fun _ ⟨hlive, _⟩ => hlive) (fun s ⟨_, hstate⟩ => by simp only [hstate])
  case repeatAuth =>
    exact fun t => occurs_of_evt (fun _ => rfl) (fun _ ⟨hlive, _⟩ => hlive)
      (fun s ⟨_, hstate, hwaits⟩ => by simp only [hstate, hwaits]; rfl)
  case repeatHold =>
    exact fun t => occurs_of_evt (fun _ => rfl) (fun _ ⟨hlive, _⟩ => hlive)
      (fun s ⟨_, hstate, haligned⟩ => by simp only [hstate, haligned, if_true])

/-! ### Flits, acknowledgements and replays (R292 to R294, R296, R297, R300, R301) -/

/-- A RESUME arrives on a held link whose lanes are aligned. -/
theorem resume_occurs {s : State} {t : Nat} (hlive : s.trunkLive t = true) (hstate : (s.tp t).state = .hold)
    (haligned : (s.tp t).aligned = true) : (s.trunkLive t && (s.tp t).state == .hold && (s.tp t).aligned) = true :=
  Bool.and_eq_true_iff.mpr ⟨linkEvent_occurs hlive hstate, haligned⟩

/-- Settles O46: a payload flit splits on its CRC, its number and the credits left; RESUME on the last tick and the LINK_ID.
Cause 7 for another LINK_ID (log 62), and the operand for a NULL flit that the elastic buffer deletes (log 111), are the
model's choice. -/
theorem trunkFlits : Obligations.TrunkFlits := by
  unfold Obligations.TrunkFlits
  refine ⟨?bad, ?outOfSeq, ?accepted, ?overrun, ?null, ?replayReq, ?replayTimeout, ?resumeLast, ?resumeOther, ?resumed⟩
  case bad =>
    exact fun fl m => occurs_of_evt (fun _ => rfl)
      (fun _ ⟨hlive, hstate, hrx, _⟩ => receiverEvent_occurs hlive hstate hrx)
      (fun s ⟨_, _, _, hbad⟩ => if_pos (by simp [hbad]))
  case outOfSeq =>
    exact fun fl m => occurs_of_evt (fun _ => rfl)
      (fun _ ⟨hlive, hstate, hrx, _⟩ => receiverEvent_occurs hlive hstate hrx)
      (fun s ⟨_, _, _, hok, hseq⟩ => (if_neg (by simp [hok])).trans (if_pos hseq))
  case accepted =>
    exact fun fl m => occurs_of_evt (fun _ => rfl)
      (fun _ ⟨hlive, hstate, hrx, _⟩ => receiverEvent_occurs hlive hstate hrx)
      (fun s ⟨_, _, _, hok, hseq, hcls, hroom⟩ => by
        simp only [hok, hseq, if_neg (Nat.not_le.mpr hcls), hroom, not_true_eq_false, ne_eq, if_false])
  case overrun =>
    exact fun fl m => occurs_of_evt (fun _ => rfl)
      (fun _ ⟨hlive, hstate, hrx, _⟩ => receiverEvent_occurs hlive hstate hrx)
      (fun s ⟨_, _, _, hok, hseq, hcls, hroom⟩ => by
        simp only [hok, hseq, if_neg (Nat.not_le.mpr hcls), hroom, not_true_eq_false, ne_eq, if_false]; rfl)
  case null =>
    exact fun fl d => occurs_of_evt (fun _ => rfl)
      (fun _ ⟨hlive, hstate, hrx⟩ => receiverEvent_occurs hlive hstate hrx) (fun _ _ => rfl)
  case replayReq =>
    exact fun t q => occurs_of_evt (fun _ => rfl) (fun _ ⟨hlive, hstate⟩ => linkEvent_occurs hlive hstate) (fun _ _ => rfl)
  case replayTimeout =>
    exact fun t e r => occurs_of_evt (fun _ => rfl)
      (fun s ⟨hlive, hstate, hreplay⟩ => by rw [linkEvent_occurs hlive hstate, hreplay]; rfl)
      (fun s ⟨_, _, hreplay⟩ => by simp only [hreplay])
  case resumeLast =>
    exact fun t id q c => occurs_of_evt (fun _ => rfl)
      (fun _ ⟨hlive, hstate, haligned⟩ => resume_occurs hlive hstate haligned) (fun _ _ => if_pos rfl)
  case resumeOther =>
    exact fun t id q c => occurs_of_evt (fun _ => rfl)
      (fun _ ⟨hlive, hstate, haligned, _⟩ => resume_occurs hlive hstate haligned)
      (fun _ ⟨_, _, _, hother⟩ => (if_neg Bool.false_ne_true).trans (if_pos hother))
  case resumed =>
    exact fun t id q c => occurs_of_evt (fun _ => rfl)
      (fun _ ⟨hlive, hstate, haligned, _⟩ => resume_occurs hlive hstate haligned)
      (fun _ ⟨_, _, _, hagreed⟩ => (if_neg Bool.false_ne_true).trans (if_neg (not_not.mpr hagreed)))

/-! ### Low power, errors and loss (R269, R273, R274, R298, R299, R301, R304, R305, R317) -/

/-- Settles O47: each event's own test is the stated one, and its effect the one named. -/
theorem trunkLinkEvents : Obligations.TrunkLinkEvents := by
  unfold Obligations.TrunkLinkEvents
  refine ⟨?sleep, ?reset, ?sleep1, ?idle, ?wake, ?wakeTimeout, ?errors, ?cdr, ?clock, ?expiry⟩
  case sleep =>
    exact fun t k => occurs_of_evt (fun _ => rfl)
      (fun _ ⟨hlive, hstate, hk⟩ => Bool.and_eq_true_iff.mpr ⟨linkEvent_occurs hlive hstate, decide_eq_true hk⟩)
      (fun _ _ => rfl)
  case reset =>
    exact fun t i => occurs_of_evt (fun _ => rfl)
      (fun s ⟨hlive, hstate, hi⟩ => by simpa [hlive, hi, or_assoc] using hstate) (fun _ _ => rfl)
  case sleep1 | wake | errors =>
    exact fun t => occurs_of_evt (fun _ => rfl)
      (fun _ ⟨hlive, hstate, hrx⟩ => receiverEvent_occurs hlive hstate hrx) (fun _ _ => rfl)
  case idle =>
    exact fun t => occurs_of_evt (fun _ => rfl)
      (fun s ⟨hlive, hstate, htx, henabled, hidle⟩ => by
        rw [linkEvent_occurs hlive hstate, htx, henabled, decide_eq_true hidle]; rfl)
      (fun _ _ => rfl)
  case wakeTimeout =>
    exact fun t => occurs_of_evt (fun _ => rfl)
      (fun _ ⟨hlive, hstate, hrx, hunlocked⟩ =>
        Bool.and_eq_true_iff.mpr ⟨receiverEvent_occurs hlive hstate hrx, bne_iff_ne.mpr hunlocked⟩)
      (fun _ _ => rfl)
  case cdr =>
    exact fun t l => occurs_of_evt (fun _ => rfl) (fun s ⟨hlive, hl, hrx, hon⟩ => by simp [hlive, hl, hrx, hon])
      (fun _ _ => rfl)
  case clock =>
    exact fun d => occurs_of_evt (fun _ => rfl) (fun s ⟨hup, hd⟩ => by simp [hup, hd]) (fun _ _ => rfl)
  case expiry =>
    exact fun t => occurs_of_evt (fun _ => rfl) (fun _ ⟨hlive, hstate⟩ => linkEvent_occurs hlive hstate) (fun _ _ => rfl)

end Sys2Proof.Machine
end

section
/-! The obligations of the DMA engine chapter: channels, rings and windows by command, doorbells, descriptors, flips. -/
namespace Sys2Proof.Machine

/-! ### DMA commands (R345, R346, R364 to R366, R376, R377) -/

/-- A command whose rule looks at the role completes with its effect wherever its guard passes in the role and slice it runs in. -/
theorem answers_of_commandR {op : Nat} {f : Frame} {c : Instr} {b : Body} {can : Nat → Nat → State → Prop}
    {run : State → State × Nat × List Nat}
    (hexec : ∀ s, exec c s = commandR op f c b s)
    (hguard : ∀ role sl s, can role sl s → b.guard role sl s = none)
    (hrun : ∀ role sl s, can role sl s → b.run role sl s = run s) : Answers op f c can run := by
  intro s role sl s1 hex hcan
  rw [hexec, ← hrun role sl s1 hcan]
  exact commandR_executes hex (hguard role sl s1 hcan)

/-- A tenant may name its own slice, every other role any (R488). -/
theorem tenantElse_of_own {role own sl : Nat} (h : role = 4 → own = sl) : tenantElse role own sl = false := by
  unfold tenantElse
  by_cases hrole : role = 4
  · simp [h hrole]
  · simp [hrole]

/-- A DMA_CH_SET that names an owner names no slice (0x1FF) or one that exists. -/
theorem chanOwner_exists {s : State} {owner : Option Nat} (h : ∀ n, owner = some n → n = 0x1FF ∨ (s.slice n).isSome = true) :
    (owner.bind (fun n => if n = 0x1FF then none else some n)).any (fun n => (s.slice n).isNone) = false := by
  cases owner with
  | none => rfl
  | some n =>
    rcases h n rfl with rfl | hslice
    · rfl
    · by_cases hnone : n = 0x1FF <;> simp [hnone, Option.isNone_eq_false_iff.mpr hslice]

/-- Settles O17: each guard passes by the channel, ring, slice or window that the conditions name; DMA_RING_ASSIGN splits on
whether the completion ring is in use, DMA_ALIAS_SET on whether a set is homed elsewhere. That a completion ring in use keeps
its place and indices (log 48), and that other homes are asked by requests of kind 6, are the model's choice. -/
theorem dmaAdmin : Obligations.DmaAdmin := by
  unfold Obligations.DmaAdmin
  refine ⟨?channel, ?assignFresh, ?assignShared, ?release, ?status, ?remove, ?defineHere, ?defineAway, ?window⟩
  case channel =>
    exact fun f ch owner prio share wdog => answers_of_command (fun _ => rfl)
      (fun _ _ s ⟨hch, howner, hprio, hshare, hwdog, hidle, hactive, hgoal, hrings⟩ => by
        simp only [checks_cons, checks_nil, hch, chanOwner_exists howner, any_lt_of_all_le hprio, any_lt_of_all_le hshare,
          any_lt_of_all_le hwdog, hidle, hactive, hgoal, hrings, List.isEmpty_nil, Bool.not_true, Bool.and_false]
        rfl)
      (fun _ _ _ _ => rfl)
  case assignFresh =>
    exact fun f ring ch slot sb sl cq cb cl vec => answers_of_command (fun _ => rfl) (fun _ _ _ ⟨hfits, _⟩ => hfits)
      (fun _ _ s ⟨_, hunused⟩ => by simp only [hunused, List.isEmpty_nil, if_true])
  case assignShared =>
    exact fun f ring ch slot sb sl cq cb cl vec => answers_of_command (fun _ => rfl) (fun _ _ _ ⟨hfits, _⟩ => hfits)
      (fun _ _ s ⟨_, hused⟩ => by
        simp only [List.isEmpty_eq_false_iff.mpr hused, Bool.false_eq_true, if_false])
  case release =>
    exact fun f ring => answers_of_command (fun _ => rfl)
      (fun _ _ s ⟨hring, hoff, hidle⟩ => by
        simp only [checks_cons, checks_nil, decide_eq_false (Nat.not_lt.mpr hring), hoff, hidle]
        rfl)
      (fun _ _ _ _ => rfl)
  case status =>
    exact fun f sl => answers_of_commandR (fun _ => rfl)
      (fun role own s ⟨hown, hslice⟩ => by
        have hexists : (sl != 0x1FF && (s.slice sl).isNone) = false := by
          rcases hslice with rfl | hsome
          · rfl
          · simp [Option.isNone_eq_false_iff.mpr hsome]
        simp only [checks_cons, checks_nil, tenantElse_of_own hown, hexists]
        rfl)
      (fun _ _ _ _ => rfl)
  case remove =>
    exact fun f win => answers_of_command (fun _ => rfl) (fun _ _ _ hfits => hfits) (fun _ _ _ _ => rfl)
  case defineHere =>
    exact fun f win d => answers_of_command (fun _ => rfl) (fun _ _ _ ⟨hfits, _⟩ => hfits)
      (fun _ _ _ ⟨_, hhere⟩ => if_pos hhere)
  case defineAway =>
    exact fun f win d => answers_of_command (fun _ => rfl) (fun _ _ _ ⟨hfits, _⟩ => hfits)
      (fun _ _ _ ⟨_, haway⟩ => if_neg haway)
  case window =>
    exact fun f win d => answers_of_command (fun _ => rfl)
      (fun _ _ s ⟨hwin, hdefined⟩ => by
        simp only [checks_cons, checks_nil, decide_eq_false (Nat.not_lt.mpr hwin), hdefined]
        rfl)
      (fun _ _ s ⟨_, hdefined⟩ => by simp only [hdefined])

/-! ### Doorbells and control of rings and channels (R348, R351, R358 to R360, R362) -/

/-- A register of a ring can be written while the module runs. -/
theorem ringRegister_written {s : State} {ring : Nat} (hrun : s.running = true) (hring : ring < 256) :
    (s.running && decide (ring < 256)) = true :=
  Bool.and_eq_true_iff.mpr ⟨hrun, decide_eq_true hring⟩

/-- Settles O18: a ring's registers can be written while the module runs; a drain ends once nothing begun is left and what had
not begun has room for its completions. -/
theorem dmaDoorbells : Obligations.DmaDoorbells := by
  unfold Obligations.DmaDoorbells
  refine ⟨?submission, ?completion, ?enable, ?abort, ?stop, ?drained⟩
  case submission | completion | enable | abort =>
    intros
    exact occurs_of_evt (fun _ => rfl) (fun _ ⟨hrun, hring⟩ => ringRegister_written hrun hring) (fun _ _ => rfl)
  case stop =>
    exact fun ch stop => occurs_of_evt (fun _ => rfl) (fun _ ⟨hrun, hch⟩ => Bool.and_eq_true_iff.mpr ⟨hrun, hch⟩)
      (fun _ _ => rfl)
  case drained =>
    exact fun ring => occurs_of_evt (fun _ => rfl)
      (fun s ⟨hring, hdrains, hbegun, hroom⟩ => by simpa [hring, hdrains, hbegun] using hroom) (fun _ _ => rfl)

/-! ### Descriptors (R321, R324, R330, R333, R348, R349, R352, R382) -/

/-- The oldest finished descriptor of a channel completes, where it meets the event's test. -/
theorem occurs_of_completeEvt {c : Instr} {ch : Nat} {b : Begun} {p : Begun → Bool} {can : State → Prop}
    (hexec : ∀ s, exec c s = completeEvt ch p s)
    (hcan : ∀ s, can s → s.running = true ∧ s.nextDone ch = some b ∧ p b = true) :
    Occurs c can (fun s => s.complete ch b) :=
  occurs_of_evt hexec
    (fun s h => by
      obtain ⟨hrun, hdone, hp⟩ := hcan s h
      simp only [hrun, hdone, hp, Bool.and_self])
    (fun s h => by
      obtain ⟨_, hdone, _⟩ := hcan s h
      simp only [hdone])

/-- The descriptor a channel carries out reads ahead its next burst, where it has the event's opcode. -/
theorem occurs_of_formEvt {c : Instr} {op ch n : Nat} {b : Begun} (hexec : ∀ s, exec c s = formEvt op ch s) :
    Occurs c
      (fun s => s.chRuns ch = true ∧ (s.chan ch).cur = some b ∧ dOpcode b.desc = op ∧ b.canForm = true
        ∧ (s.chan ch).slice = some n)
      (fun s => s.formBurst ch n b) :=
  occurs_of_evt hexec
    (fun s ⟨hruns, hcur, hop, hform, hslice⟩ => by simp [hruns, hcur, hop, hform, hslice])
    (fun s ⟨_, hcur, _, _, hslice⟩ => by simp only [hcur, hslice])

/-- Settles O19: each event finds the entry, the descriptor or the burst that its conditions name. That a NOP or a FENCE is
issued when it begins is the model's choice (log 47). -/
theorem dmaDescriptors : Obligations.DmaDescriptors := by
  unfold Obligations.DmaDescriptors
  refine ⟨?fetch, ?begin, ?complete, ?nop, ?fence, ?copy, ?fill, ?check, ?atomic, ?burst⟩
  case fetch =>
    intro ch ring i n a s ⟨hfetch, hruns, hactive, hrun, hch, hring, hroom, hnone, hposted, hslice, hplace⟩
    -- The effect names the ring of the state it starts from, so the event is unfolded to it first.
    change execDescriptorFetch ch ring i s = _
    unfold execDescriptorFetch
    rw [evt_happens (by
      simp only [hfetch, hruns, hactive, hrun, hch, decide_eq_true hring, decide_eq_true hroom, hnone,
        decide_eq_true hposted, beq_self_eq_true]
      rfl)]
    simp only [hslice, Option.bind_some, hplace]
  case begin =>
    exact fun ch n g => occurs_of_evt (fun _ => rfl)
      (fun s ⟨hruns, hactive, hgoes, hfree, hnext, _⟩ => by simp only [hruns, hactive, hgoes, hfree, hnext]; rfl)
      (fun s ⟨_, _, _, _, hnext, hfind⟩ => by simp only [hnext, hfind])
  case complete =>
    exact fun ch b => occurs_of_completeEvt (fun _ => rfl) (fun _ ⟨hrun, hdone⟩ => ⟨hrun, hdone, rfl⟩)
  case nop | fence =>
    exact fun ch b => occurs_of_completeEvt (fun _ => rfl)
      (fun _ ⟨hrun, hdone, hop⟩ => ⟨hrun, hdone, beq_iff_eq.mpr hop⟩)
  case copy | fill | check | atomic =>
    exact fun ch b n => occurs_of_formEvt (fun _ => rfl)
  case burst =>
    exact fun ch b g => occurs_of_evt (fun _ => rfl)
      (fun s ⟨hready, hmover, _⟩ => by simpa [hready] using hmover)
      (fun s ⟨_, _, hcur, hform⟩ => by simp only [hcur, hform])

/-! ### Flips, paced and watched descriptors (R341, R356, R369 to R371, R373, R374) -/

/-- A FLIP at the head of its channel can begin. -/
theorem flip_occurs {s : State} {ch : Nat} {x : Begun × Nat} (hruns : s.chRuns ch = true) (hdue : s.flipDue ch = some x) :
    (s.chRuns ch && (s.flipDue ch).isSome) = true := by
  rw [hruns, hdue]; rfl

/-- A window whose flip is at a step can go on to the next while the module runs and the engine is not parked. -/
theorem flipStep_occurs {s : State} {w k : Nat} (hstep : (s.win w).step = some k) (hrun : s.running = true)
    (hunparked : s.dma.parked = false) : ((s.win w).step == some k && s.running && ! s.dma.parked) = true := by
  rw [hstep, hrun, hunparked, beq_self_eq_true]; rfl

/-- Settles O20: a FLIP splits on whether its set is already the active one, and each later step finds the flip and the window
that the step before it left. That DREQ stays high after an edge (log 49), and that a watchdog before the commit drops the flip
and leaves the window as it was (log 50), are the model's choice. Where an effect's own match stands in the statement too, the
two are equal by rfl. -/
theorem dmaFlips : Obligations.DmaFlips := by
  unfold Obligations.DmaFlips
  refine ⟨?flip, ?same, ?prepare, ?commit, ?drained, ?swept, ?dreq, ?watchdog⟩
  case flip =>
    exact fun ch b n d fpa => occurs_of_evt (fun _ => rfl) (fun _ ⟨hruns, hdue, _⟩ => flip_occurs hruns hdue)
      (fun s ⟨_, hdue, hdefined, howner, hplace, hother⟩ => by
        simp only [hdue, hdefined, howner, ne_eq, not_true_eq_false, if_false, hplace, if_neg hother])
  case same =>
    exact fun ch b n d fpa => occurs_of_evt (fun _ => rfl) (fun _ ⟨hruns, hdue, _⟩ => flip_occurs hruns hdue)
      (fun s ⟨_, hdue, hdefined, howner, hplace, hsame⟩ => by
        simp only [hdue, hdefined, howner, ne_eq, not_true_eq_false, if_false, hplace, if_pos hsame])
  case prepare =>
    exact fun w => occurs_of_evt (fun _ => rfl)
      (fun _ ⟨hstep, hrun, hunparked⟩ => flipStep_occurs hstep hrun hunparked) (fun _ _ => rfl)
  case commit =>
    exact fun w g d => occurs_of_evt (fun _ => rfl)
      (fun _ ⟨hstep, hrun, hunparked, _⟩ => flipStep_occurs hstep hrun hunparked)
      (fun s ⟨_, _, _, hflip, hdefined⟩ => by simp only [hflip, hdefined])
  case drained =>
    exact fun w d => occurs_of_evt (fun _ => rfl)
      (fun s ⟨hstep, hrun, hdrained, _⟩ => by rw [hstep, hrun, hdrained]; rfl)
      (fun s ⟨_, _, _, hdefined⟩ => by simp only [hdefined])
  case swept =>
    exact fun w g n => occurs_of_evt (fun _ => rfl)
      (fun s ⟨hstep, hrun, hunparked, hsweep, hquiet, _⟩ => by
        rw [flipStep_occurs hstep hrun hunparked, hsweep]; exact hquiet)
      (fun s ⟨_, _, _, hsweep, _, hflip⟩ => by simp only [hflip, hsweep] <;> rfl)
  case dreq =>
    exact fun n => occurs_of_evt (fun _ => rfl)
      (fun s ⟨hn, hrun, _⟩ => Bool.and_eq_true_iff.mpr ⟨decide_eq_true hn, hrun⟩)
      (fun s ⟨_, _, hunparked⟩ => if_neg (Bool.not_eq_true _ ▸ hunparked))
  case watchdog =>
    exact fun ch b => occurs_of_evt (fun _ => rfl)
      (fun s ⟨hch, hrun, hunparked, hwatched, hunfinished⟩ => by
        simp [hch, hrun, hunparked, hwatched, hunfinished.symm])
      (fun s ⟨_, _, _, hwatched, _⟩ => by simp only [hwatched] <;> rfl)

end Sys2Proof.Machine
end

section
/-! A step on an empty queue: a waiting mailbox command, or one tick. -/
namespace Sys2Proof.Machine

/-! ### What a step does on an empty queue (R472) -/

/-- On an empty queue the waiting command whose group is free is carried out. -/
theorem step_of_waiting {s : State} {x : Instr × State} (hempty : s.pending = []) (hnext : s.nextWaiting = some x) :
    step s = exec x.1 x.2 := by
  simp only [step, hempty, hnext]

/-- With no command to carry out, a tick passes. -/
theorem step_of_idle {s : State} (hempty : s.pending = []) (hnext : s.nextWaiting = none) : step s = .next s.idle := by
  simp only [step, hempty, hnext]

/-- A tick puts nothing in the queue. -/
theorem idle_pending (s : State) : s.idle.pending = s.pending :=
  congrArg Prod.fst (idle_kept s)

/-! ### What the counters and the transmitters leave as it is over a tick: the tick count, MTIME and the cells in flight -/

/-- The tick count, MTIME and the cells on their planes. -/
def State.timing (s : State) : Nat × Nat × List (Nat × Nat × Cell) := (s.now, s.shape.mtime, s.xbar.flying)

/-- A fold keeps the time where each of its steps does. -/
theorem timing_foldl {α : Type} {f : State → α → State} (h : ∀ s x, (f s x).timing = s.timing) (l : List α) (s : State) :
    (l.foldl f s).timing = s.timing :=
  List.foldlRecOn l f (motive := fun t => t.timing = s.timing) rfl fun t ht x _ => (h t x).trans ht

/-- A choice keeps the time where both of its states do. -/
theorem timing_ite {c : Prop} [Decidable c] {s t u : State} (hs : s.timing = u.timing) (ht : t.timing = u.timing) :
    (if c then s else t).timing = u.timing := by
  split <;> assumption

/-- What is sent waits in a queue; it is on no plane yet. -/
@[simp] theorem emit_timing (s : State) (o : Out) : (s.emit o).timing = s.timing := by
  unfold State.emit
  cases s.trunkMsg o with
  | none => rfl
  | some x => exact timing_ite rfl rfl

/-- Counting for a slice takes no time. -/
@[simp] theorem sliceCnt_timing (s : State) (sl : Option Nat) (i n : Nat) : (s.sliceCnt sl i n).timing = s.timing := by
  cases sl with
  | none => rfl
  | some x =>
    change (s.modSlice x _).timing = s.timing
    unfold State.modSlice
    cases s.slice x <;> rfl

/-- The overflow message is sent, with at most one draw. -/
@[simp] theorem ovfSend_timing (s : State) (key : Nat) : (s.ovfSend key).timing = s.timing := by
  have hdrawn : ∀ t : State, (if s.snaps key then t.drawn else t).timing = t.timing := fun t => timing_ite rfl rfl
  unfold State.ovfSend
  extract_lets snap _ s1 s2
  have hs2 : s2.timing = s.timing := hdrawn s1
  cases s2.primary with
  | none => exact hs2
  | some p => exact (emit_timing _ _).trans hs2

/-- A wrap notes its counter and sends at most a message. -/
@[simp] theorem ovfRaise_timing (s : State) (key : Nat) : (s.ovfRaise key).timing = s.timing := by
  unfold State.ovfRaise
  exact timing_ite rfl (ovfSend_timing _ key)

/-- A counter that advances takes no time. -/
@[simp] theorem bump_timing (s : State) (key n : Nat) : (s.bump key n).timing = s.timing := by
  unfold State.bump
  exact timing_ite (ovfRaise_timing _ key) rfl

/-- An event counts at every counter that selects it. -/
@[simp] theorem count_timing (s : State) (ev unit cls n : Nat) : (s.count ev unit cls n).timing = s.timing := by
  unfold State.count
  exact timing_ite rfl (timing_foldl (fun t (e : Nat × Reg32) => timing_ite (bump_timing t e.1 n) rfl) _ s)

/-! ### The parts of a tick -/

/-- Slice counter 6 counts, and the waits of the next microsecond begin. -/
theorem countWaits_timing (s : State) (a b : Nat) : (s.countWaits a b).timing = s.timing := by
  unfold State.countWaits
  exact timing_ite rfl (timing_foldl (fun t n => sliceCnt_timing t (some n) 6 1) _ s)

/-- The slots of a link are counted by what passed in them. -/
theorem slotTick_timing (s : State) (p : Nat) : (s.slotTick p).timing = s.timing := by
  unfold State.slotTick
  extract_lets x acc n w r back pf s1
  have hs1 : s1.timing = s.timing := rfl
  exact timing_ite rfl (timing_ite hs1 (by simp only [bump_timing, hs1]))

/-- The counters by the clock count in five rounds. -/
theorem clockCounts_timing (s : State) : s.clockCounts.timing = s.timing := by
  unfold State.clockCounts
  extract_lets s1 s2 s3 s4
  calc (s4.count 0x7F 0 0 64).timing
      = s4.timing := count_timing s4 _ _ _ _
    _ = s3.timing := timing_foldl (fun t (e : Nat × Trunk) => timing_ite (count_timing t _ _ _ _) rfl) _ s3
    _ = s2.timing := timing_foldl (fun t p => count_timing t _ _ _ _) _ s2
    _ = s1.timing := timing_foldl (fun t e => by simp only [count_timing]) _ s1
    _ = s.timing := timing_foldl (fun t p => count_timing t _ _ _ _) _ s

/-- The counters of a tick leave the time. -/
theorem counterTick_timing (s : State) : s.counterTick.timing = s.timing := by
  have hslots : (s.ports.port.foldl (fun s e => s.slotTick e.1) s).timing = s.timing :=
    timing_foldl (fun t (e : Nat × Port) => slotTick_timing t e.1) _ s
  unfold State.counterTick
  exact timing_ite rfl (timing_ite hslots ((clockCounts_timing _).trans hslots))

/-- A transmitter sends codewords and lane marker blocks. -/
theorem txTick_timing (s : State) (t : Nat) : (s.txTick t).timing = s.timing := by
  unfold State.txTick
  extract_lets x n s1 s2
  have hs2 : s2.timing = s.timing := timing_ite (emit_timing s1 _) rfl
  exact timing_ite rfl (timing_ite ((emit_timing _ _).trans hs2) hs2)

/-- So does every transmitter. -/
theorem txTicks_timing (s : State) : s.txTicks.timing = s.timing := by
  unfold State.txTicks
  exact timing_ite rfl (timing_foldl (fun t (e : Nat × Trunk) => txTick_timing t e.1) _ s)

/-! ### The tick (R149, R401, log 9) -/

/-- One tick before cells arrive: time, MTIME, buckets, then what counts and sends by the clock. -/
def State.ticked (s : State) : State :=
  let sh := s.shape
  let mt := if sh.running then sh.mtime + 40 else sh.mtime
  let s0 : State := { s with
    glob := { s.glob with ticks := s.glob.ticks + 1 }
    shape := { sh with mtime := mt, bkt := Tbl.mapv {} (fun _ b => b.tick) sh.bkt, agg := Tbl.mapv {} (fun _ b => b.tick) sh.agg } }
  (s0.countWaits sh.mtime mt).counterTick.txTicks

/-- A tick on an empty queue: what arrives with it takes effect. -/
theorem idle_eq_ticked (s : State) :
    s.idle = if s.ticked.xbar.flying.any (fun x => decide (x.2.1 ≤ s.ticked.now)) then s.ticked.settle else s.ticked := rfl

/-- A tick advances the tick count by one, and MTIME by 40 where it runs (R401); cells stay in flight. -/
theorem ticked_timing (s : State) :
    s.ticked.timing = (s.now + 1, if s.shape.running then s.shape.mtime + 40 else s.shape.mtime, s.xbar.flying) := by
  unfold State.ticked
  extract_lets sh mt _ s0
  calc (s0.countWaits sh.mtime mt).counterTick.txTicks.timing
      = (s0.countWaits sh.mtime mt).counterTick.timing := txTicks_timing _
    _ = (s0.countWaits sh.mtime mt).timing := counterTick_timing _
    _ = s0.timing := countWaits_timing s0 _ _

/-- The tick count after a tick. -/
theorem ticked_now (s : State) : s.ticked.now = s.now + 1 := congrArg Prod.fst (ticked_timing s)

/-- MTIME after a tick. -/
theorem ticked_mtime (s : State) :
    s.ticked.shape.mtime = if s.shape.running then s.shape.mtime + 40 else s.shape.mtime :=
  congrArg (fun x => x.2.1) (ticked_timing s)

/-- The cells in flight after a tick, before any of them arrives. -/
theorem ticked_flying (s : State) : s.ticked.xbar.flying = s.xbar.flying := congrArg (fun x => x.2.2) (ticked_timing s)

/-- Where no cell in flight arrives with the tick, nothing more happens. -/
theorem idle_eq_of_noneArrives {s : State} (hair : s.xbar.flying.all (fun x => decide (s.now + 1 < x.2.1)) = true) :
    s.idle = s.ticked := by
  rw [idle_eq_ticked, ticked_now, ticked_flying]
  refine if_neg fun harrives => ?_
  obtain ⟨x, hx, hdue⟩ := List.any_eq_true.mp harrives
  have hlater := List.all_eq_true.mp hair x hx
  rw [decide_eq_true_eq] at hdue hlater
  omega

/-- Settles O49: the waiting command by what a step does, the tick by what its parts leave as it is. That a step on an empty
queue runs a waiting command or lets one tick pass (log 9) is the model's choice. -/
theorem stepWithoutCommand : Obligations.StepWithoutCommand := by
  unfold Obligations.StepWithoutCommand
  refine ⟨?waiting, ?tick, ?time⟩
  case waiting => exact fun _ _ hempty hnext => step_of_waiting hempty hnext
  case tick =>
    exact fun s hempty hnext => ⟨s.idle, step_of_idle hempty hnext, (idle_pending s).trans hempty⟩
  case time =>
    intro s hempty hnext hair
    have hidle : s.idle = s.ticked := idle_eq_of_noneArrives hair
    refine ⟨s.idle, step_of_idle hempty hnext, ?_, (idle_pending s).trans hempty, ?_⟩
    · rw [hidle, ticked_now]
    · rw [hidle, ticked_mtime]

end Sys2Proof.Machine
end

section
/-! The obligations of the shaping and gates chapter: buckets and waiting charges, gate sets, cycles and TSYNC. -/
namespace Sys2Proof.Machine

/-! ### Buckets and waiting charges (R382, R384, R385, R387, R409, R488) -/

/-- A bucket in another slice or an aggregate bucket is refused to a TENANT alone. -/
theorem bucketRole_passes {role own slice : Nat} {agg : Bool} (h : role = 4 → agg = false ∧ own = slice) :
    (role == 4 && (agg || own != slice)) = false := by
  by_cases hrole : role = 4
  · obtain ⟨hagg, hown⟩ := h hrole
    simp [hagg, hown]
  · simp [hrole]

/-- Settles O23: each guard passes by the bucket and the configuration that the conditions name, each event finds the charge
or the request they name. -/
theorem shaping : Obligations.Shaping := by
  unfold Obligations.Shaping
  refine ⟨?set, ?get, ?status, ?proceed, ?enter⟩
  case set =>
    exact fun f agg sl b cfg => answers_of_command (fun _ => rfl)
      (fun _ _ s ⟨hexists, hlegal, hpoint⟩ => by
        simp only [checks_cons, checks_nil, hexists, hlegal, decide_eq_false hpoint]
        rfl)
      (fun _ _ _ _ => rfl)
  case get =>
    exact fun f agg sl b => answers_of_commandR (fun _ => rfl)
      (fun role own s ⟨hexists, hown⟩ => by
        simp only [checks_cons, checks_nil, hexists, bucketRole_passes hown]
        rfl)
      (fun _ _ _ _ => rfl)
  case status =>
    exact fun f => answers_of_query (fun _ => rfl) (fun _ _ _ _ => rfl)
  case proceed =>
    exact fun agg sl b c => occurs_of_evt (fun _ => rfl)
      (fun s ⟨hfind, hmay⟩ => by simp only [hfind, hmay]) (fun s ⟨hfind, _⟩ => by simp only [hfind])
  case enter =>
    exact fun port i => occurs_of_evt (fun _ => rfl)
      (fun s ⟨hfind, hroom⟩ => by
        rw [← List.findIdx?_isSome, hfind, decide_eq_true hroom]; rfl)
      (fun s ⟨hfind, _⟩ => by simp only [hfind])

/-! ### Gate lists and commits (R393, R394, R396, R402, R404, R406) -/

/-- A list of 1 to 128 entries, as many as LEN says, passes its check. -/
theorem gateList_passes {es : List Reg32} {n : Nat} (hsome : es ≠ []) (hmax : es.length ≤ 128) (hlen : es.length = n) :
    (es.isEmpty || decide (128 < es.length) || es.length != n) = false := by
  subst hlen
  simp [hsome, hmax]

/-- A value within its range is not outside it. -/
theorem outside_eq_false {n lo hi : Nat} (hlo : lo ≤ n) (hhi : n ≤ hi) : (decide (n < lo) || decide (hi < n)) = false := by
  simp [Nat.not_lt.mpr hlo, Nat.not_lt.mpr hhi]

/-- Entries none of which is zero pass the check of the intervals. -/
theorem intervals_pass {es : List Reg32} (h : es.all (fun e => bits e.toNat 23 0 != 0) = true) :
    es.any (fun e => bits e.toNat 23 0 == 0) = false :=
  any_eq_false_of_forall fun e he => by simpa using List.all_eq_true.mp h e he

/-- A change of a gate enters only by what it makes of the gate as it is. -/
theorem modGate_congr {s : State} {p : Nat} {f g : Gate → Gate} (h : f (s.gate p) = g (s.gate p)) :
    s.modGate p f = s.modGate p g := by
  simp only [State.modGate, h]

/-- Settles O24: each guard passes by the point, the list or the range that the conditions name, each event finds the set,
the cycle or the entry they name; TSYNC splits on the last accepted edge. That TSYNC_EARLY and TSYNC_LOSS keep POINT as it
was (log 51) is the model's choice. -/
theorem gates : Obligations.Gates := by
  unfold Obligations.Gates
  refine ⟨?list, ?commit, ?get, ?loss, ?swap, ?cycle, ?entry, ?early, ?edge, ?lost⟩
  case list =>
    exact fun f p ctl base es => answers_of_command (fun _ => rfl)
      (fun _ _ s ⟨hgated, hsome, hmax, hlen, hintervals, hmin, hcycle⟩ => by
        simp only [checks_cons, checks_nil, hgated, gateList_passes hsome hmax hlen, intervals_pass hintervals,
          outside_eq_false hmin hcycle]
        rfl)
      (fun _ _ _ _ => rfl)
  case commit =>
    exact fun f p => answers_of_command (fun _ => rfl)
      (fun _ _ s ⟨hgated, hnone, hok⟩ => by
        simp only [checks_cons, checks_nil, hgated, hnone, hok]
        rfl)
      (fun _ _ _ _ => rfl)
  case get =>
    exact fun f p => answers_of_query (fun _ => rfl) (fun _ _ s hgated => by
      simp only [checks_cons, checks_nil, hgated]
      rfl)
  case loss =>
    exact fun f loss => answers_of_command (fun _ => rfl)
      (fun _ _ _ ⟨hmin, hmax⟩ => by
        simp only [checks_cons, checks_nil, outside_eq_false hmin hmax]
        rfl)
      (fun _ _ _ _ => rfl)
  case swap =>
    exact fun p x => occurs_of_evt (fun _ => rfl)
      (fun s ⟨hpending, hfree, hdue, hruns⟩ => by
        simp only [hpending, hfree, decide_eq_true hdue, hruns]
        rfl)
      (fun s ⟨hpending, _⟩ => by simp only [hpending])
  case cycle =>
    exact fun p t => occurs_of_evt (fun _ => rfl)
      (fun s ⟨hruns, hdue⟩ => by rw [hruns, hdue]; rfl) (fun s ⟨_, hdue⟩ => by simp only [hdue])
  case entry =>
    exact fun p e => occurs_of_evt (fun _ => rfl)
      (fun s ⟨hruns, henabled, hnext, hentry, hdue⟩ => by
        simp only [hruns, henabled, decide_eq_true hnext, hentry, decide_eq_true hdue]
        rfl)
      (fun s ⟨_, _, _, hentry, _⟩ => congrArg (s.overrunCheck · p) (modGate_congr (by simp only [hentry])))
  case early =>
    exact occurs_of_evt (fun _ => rfl) (fun s ⟨hup, hruns, _⟩ => Bool.and_eq_true_iff.mpr ⟨hup, hruns⟩)
      (fun s ⟨_, _, hsoon⟩ => if_pos hsoon)
  case edge =>
    exact occurs_of_evt (fun _ => rfl) (fun s ⟨hup, hruns, _⟩ => Bool.and_eq_true_iff.mpr ⟨hup, hruns⟩)
      (fun s ⟨_, _, hlate⟩ => if_neg (Bool.not_eq_true _ ▸ hlate))
  case lost =>
    exact occurs_of_evt (fun _ => rfl) (fun s ⟨hup, hruns⟩ => Bool.and_eq_true_iff.mpr ⟨hup, hruns⟩) (fun _ _ => rfl)

end Sys2Proof.Machine
end

section
/-! The obligations of the slices and wards chapter: slices, their images, dirty logs and channels, ward tables and commits. -/
namespace Sys2Proof.Machine

/-! ### Slices (R413, R414, R417 to R419, R460, R488, R537) -/

/-- A PASID of R413 is neither zero nor wider than 20 bits. -/
theorem pasid_passes {pasid : Nat} (hpos : pasid ≠ 0) (hlt : pasid < 2 ^ 20) :
    (pasid == 0 || decide (2 ^ 20 ≤ pasid)) = false := by
  rw [beq_false_of_ne hpos, decide_eq_false (Nat.not_le.mpr hlt)]; rfl

/-- What every setting given meets, none given fails. -/
theorem any_not_eq_false_of_all {α : Type} {o : Option α} {p : α → Bool} (h : o.all p = true) :
    o.any (fun v => ! p v) = false := by
  cases o with
  | none => rfl
  | some v => exact congrArg (! ·) h

/-- A BINDMASK given is legal, and given while no log is on (R414). -/
theorem mask_passes {mask : Option (List Nat)} {bad : List Nat → Bool} {log : Option DLog}
    (h : mask.all (fun m => ! bad m && log.isNone) = true) :
    mask.any bad = false ∧ (mask.isSome && log.isSome) = false := by
  cases mask with
  | none => exact ⟨rfl, rfl⟩
  | some m =>
    obtain ⟨hlegal, hoff⟩ : bad m = false ∧ log = none := by simpa using h
    exact ⟨hlegal, by rw [hoff]; rfl⟩

/-- A completion area given is on a page and in the slice's memory (R418). -/
theorem area_passes {s : State} {sl : Nat} {area : Option Nat}
    (h : area.all (fun a => decide (a % 4096 = 0) && s.sliceRange sl a 4096) = true) :
    area.any (fun a => decide (a % 4096 ≠ 0) || ! s.sliceRange sl a 4096) = false := by
  simpa only [Bool.not_and, decide_not] using any_not_eq_false_of_all h

/-- The counters are cleared for every role but a TENANT of a slice whose USER_COUNTERS is 0. -/
theorem userCounters_pass {role : Nat} {x : Slice} (h : role = 4 → x.userCnt = true) :
    (role == 4 && (some x).any (fun y => ! y.userCnt)) = false := by
  by_cases hrole : role = 4
  · simp [h hrole]
  · simp [hrole]

/-- Settles O13: each guard passes by the host, the slice or the settings that the conditions name. That the counters read zero
for every role while USER_COUNTERS is 0 (R537, log 53), and that SLICE_DESTROY spares PASID 0 (log 59), are the model's choice. -/
theorem sliceLife : Obligations.SliceLife := by
  unfold Obligations.SliceLife
  refine ⟨?create, ?set, ?destroy, ?status, ?clear, ?window⟩
  case create =>
    exact fun f host pasid n => answers_of_command (fun _ => rfl)
      (fun _ _ s ⟨hhost, hpos, hlt, hkey, hroom, _⟩ => by
        simp only [hhost, Option.orElse_none, checks_cons, checks_nil, pasid_passes hpos hlt, hkey, hroom]
        rfl)
      (fun _ _ s ⟨_, _, _, _, _, hfree⟩ => by simp only [hfree, Option.toList_some])
  case set =>
    exact fun f sl mask uc x => answers_of_command (fun _ => rfl)
      (fun _ _ s ⟨hslice, hhost, hmask⟩ => by
        obtain ⟨hlegal, hoff⟩ := mask_passes hmask
        simp only [hslice, hhost, Option.orElse_none, checks_cons, checks_nil, hlegal, hoff]
        rfl)
      (fun _ _ _ _ => rfl)
  case destroy =>
    exact fun f sl x => answers_of_command (fun _ => rfl)
      (fun _ _ s ⟨hslice, hpos, hidle⟩ => by
        simp only [hslice, checks_cons, checks_nil, beq_false_of_ne hpos, hidle]
        rfl)
      (fun _ _ _ _ => rfl)
  case status =>
    exact fun f sl x => answers_of_commandR (fun _ => rfl)
      (fun role own s ⟨hslice, hown⟩ => by
        simp only [checks_cons, checks_nil, tenantElse_of_own hown, hslice]
        rfl)
      (fun _ _ s ⟨hslice, _⟩ => by simp only [hslice])
  case clear =>
    exact fun f sl x => answers_of_commandR (fun _ => rfl)
      (fun role own s ⟨hslice, htenant⟩ => by
        simp only [checks_cons, checks_nil, tenantElse_of_own fun h => (htenant h).1, hslice,
          userCounters_pass fun h => (htenant h).2]
        rfl)
      (fun _ _ _ _ => rfl)
  case window =>
    exact fun f sl win area x => answers_of_command (fun _ => rfl)
      (fun _ _ s ⟨hslice, hwin, harea⟩ => by
        simp only [hslice, checks_cons, checks_nil, any_not_eq_false_of_all hwin, area_passes harea]
        rfl)
      (fun _ _ _ _ => rfl)

/-! ### Freezing, thawing, images (R420 to R423, R456 to R459, R487) -/

/-- A slice that exists is not NOT_FOUND. -/
theorem noSlice_passes {s : State} {sl : Nat} (h : (s.slice sl).isSome = true) : s.noSlice sl = none :=
  if_neg (by rw [Option.isNone_eq_false_iff.mpr h]; decide)

/-- A freeze of a FROZEN slice has been done. -/
theorem freezeCmd_of_frozen {s : State} {f : Frame} {op sl : Nat} {x : Slice} (hslice : s.slice sl = some x)
    (hfrozen : x.state = .frozen) : s.freezeCmd f op sl = (s, rcOk, []) :=
  if_pos (by rw [hslice, Option.any_some, hfrozen]; rfl)

/-- A freeze of another slice makes it FREEZING and answers later. -/
theorem freezeCmd_of_notFrozen {s : State} {f : Frame} {op sl : Nat} {x : Slice} (hslice : s.slice sl = some x)
    (hopen : x.state ≠ .frozen) :
    s.freezeCmd f op sl
      = ((s.modSlice sl (fun y => { y with state := .freezing, freezers := y.freezers ++ [(f, op)] })).freezeCheck sl, rcLater, []) :=
  if_neg (by simp [hslice, hopen])

/-- A slice that is not FREEZING can be thawed (R459). -/
theorem thawCheck_passes {s : State} {sl : Nat} {x : Slice} (hslice : s.slice sl = some x) (hdone : x.state ≠ .freezing) :
    s.thawCheck sl = none := by
  simp only [State.thawCheck, hslice, if_neg hdone]

/-- Settles O14: a freeze splits on whether the slice is FROZEN already; a save passes the owner's check and a restore takes
the number that is free. The layout of an image's blocks (log 54) and the owner of SLICE_SAVE_V1 (log 55) are the model's choice. -/
theorem sliceFreezeAndSave : Obligations.SliceFreezeAndSave := by
  unfold Obligations.SliceFreezeAndSave
  refine ⟨?frozen, ?freeze, ?freezeV1, ?thaw, ?thawV1, ?save, ?saveV1, ?restore, ?restoreV1⟩
  case frozen =>
    exact fun f sl x => answers_of_command (fun _ => rfl)
      (fun _ _ _ ⟨hslice, _⟩ => noSlice_passes (Option.isSome_of_mem hslice))
      (fun _ _ _ ⟨hslice, hfrozen⟩ => freezeCmd_of_frozen hslice hfrozen)
  case freeze | freezeV1 =>
    exact fun f sl x => answers_of_command (fun _ => rfl)
      (fun _ _ _ ⟨hslice, _⟩ => noSlice_passes (Option.isSome_of_mem hslice))
      (fun _ _ _ ⟨hslice, hopen⟩ => freezeCmd_of_notFrozen hslice hopen)
  case thaw | thawV1 =>
    exact fun f sl x => answers_of_command (fun _ => rfl)
      (fun _ _ _ ⟨hslice, hdone⟩ => thawCheck_passes hslice hdone) (fun _ _ _ _ => rfl)
  case save =>
    exact fun f sl own addr => answers_of_command (fun _ => rfl) (fun _ _ _ hcheck => hcheck) (fun _ _ _ _ => rfl)
  case saveV1 =>
    exact fun f sl own addr => answers_of_command (fun _ => rfl)
      (fun _ _ _ ⟨hcaller, hcheck⟩ => by rw [hcaller]; exact hcheck)
      (fun _ _ _ ⟨hcaller, _⟩ => by rw [hcaller, Option.getD_some])
  case restore =>
    exact fun f host pasid addr chmap img n => answers_of_command (fun _ => rfl) (fun _ _ _ ⟨hcheck, _⟩ => hcheck)
      (fun _ _ _ ⟨_, hfree⟩ => by simp only [hfree, Option.toList_some])
  case restoreV1 =>
    exact fun f host pasid addr img n => answers_of_command (fun _ => rfl) (fun _ _ _ ⟨hcheck, _⟩ => hcheck)
      (fun _ _ _ ⟨_, hfree⟩ => by simp only [hfree, Option.toList_some])

/-! ### Dirty logs (R451 to R455) -/

/-- A slice whose log is on is found by LOG_HARVEST and LOG_STOP. -/
theorem logOn_of_log {s : State} {sl : Nat} {g : DLog} (h : (s.slice sl).bind (fun x => x.log) = some g) :
    (s.slice sl).any (fun x => x.log.isSome) = true := by
  obtain ⟨x, hslice, hlog⟩ := Option.bind_eq_some_iff.mp h
  rw [hslice, Option.any_some, hlog]; rfl

/-- Settles O15: LOG_START passes by both slices and both buffers; LOG_HARVEST and LOG_STOP find the log that is on. That
LOG_START answers without waiting for the other homes (log 56), and the requests of kind 3, 7 and 8 (log 19, log 57), are the
model's choice. -/
theorem dirtyLogs : Obligations.DirtyLogs := by
  unfold Obligations.DirtyLogs
  refine ⟨?start, ?harvest, ?stop⟩
  case start =>
    exact fun f sl own b0 b1 x y => answers_of_command (fun _ => rfl)
      (fun _ _ s ⟨hslice, howner, hoff, halign0, halign1, hrange0, hrange1⟩ => by
        simp only [hslice, howner, checks_cons, checks_nil, hoff, halign0, halign1, hrange0, hrange1]
        rfl)
      (fun _ _ _ _ => rfl)
  case harvest =>
    exact fun f sl zero rcl g => answers_of_command (fun _ => rfl) (fun _ _ _ hlog => if_pos (logOn_of_log hlog))
      (fun _ _ s hlog => by simp only [hlog])
  case stop =>
    exact fun f sl x g => answers_of_command (fun _ => rfl)
      (fun _ _ s ⟨hslice, hlog⟩ => if_pos (by rw [hslice, Option.any_some, hlog]; rfl)) (fun _ _ _ _ => rfl)

/-! ### The slice channel (R447 to R450) -/

/-- A reply's payload of at most 240 bytes, as many as LEN says, passes its check. -/
theorem replyLength_passes {pay : List Byte} {len : Nat} (hmax : len ≤ 240) (hlen : pay.length = len) :
    (decide (240 < len) || pay.length != len) = false := by
  simp [Nat.not_lt.mpr hmax, hlen]

/-- The request at the head of an ACTIVE slice's channel is consumed where no earlier ZORNE command waits and a reply entry
is free (R449, R450). -/
theorem channelRequest_occurs {s : State} {sl : Nat} {x : Slice} {c : SChan} (hup : s.glob.pstate = .active)
    (hslice : s.slice sl = some x) (hactive : x.state = .active) (hchan : s.schan sl = some c) (hserved : c.zornes = [])
    (hwaits : c.reqHead ≠ c.reqTail) (hroom : c.repUsed < 2 ^ c.repLog) :
    (s.glob.pstate == .active && (s.slice sl).any (fun x => x.state == .active)
      && (s.schan sl).any (fun c => c.zornes.isEmpty && c.reqHead != c.reqTail && decide (c.repUsed < 2 ^ c.repLog))) = true := by
  simp [hup, hslice, hactive, hchan, hserved, hwaits, hroom]

/-- Settles O16: each guard passes by the channel and the ranges that the conditions name; a request splits on whether it is
malformed. That SLICE_CHAN_GET leaves the requests in place, that one ZORNE request is served at a time, and the bound on the
reply doorbell (log 58) are the model's choice. -/
theorem sliceChannels : Obligations.SliceChannels := by
  unfold Obligations.SliceChannels
  refine ⟨?set, ?get, ?put, ?reqDb, ?repDb, ?taken, ?malformed⟩
  case set =>
    exact fun f sl qb ql pb pl vec x => answers_of_command (fun _ => rfl)
      (fun _ _ s ⟨hslice, hnone, hreq, hrep, hvec⟩ => by
        simp only [hslice, checks_cons, checks_nil, hnone, hreq, hrep, decide_eq_false (Nat.not_lt.mpr hvec)]
        rfl)
      (fun _ _ _ _ => rfl)
  case get =>
    exact fun f sl c => answers_of_command (fun _ => rfl) (fun _ _ s hchan => if_neg (by simp [hchan]))
      (fun _ _ s hchan => by simp only [hchan])
  case put =>
    exact fun f sl tag st len pay c p => answers_of_command (fun _ => rfl)
      (fun _ _ s ⟨hchan, hfind, hmax, hlen⟩ => by
        simp only [hchan, checks_cons, checks_nil, any_of_find?_same hfind, replyLength_passes hmax hlen]
        rfl)
      (fun _ _ s ⟨hchan, hfind, _⟩ => by simp only [hchan, Option.bind_some, hfind])
  case reqDb =>
    exact fun sl tail c => occurs_of_evt (fun _ => rfl)
      (fun s ⟨hrun, hchan, htail⟩ => by rw [hrun, hchan, Option.any_some, decide_eq_true htail]; rfl) (fun _ _ => rfl)
  case repDb =>
    exact fun sl head c => occurs_of_evt (fun _ => rfl)
      (fun s ⟨hrun, hchan, hhead, hfreed⟩ => by
        rw [hrun, hchan, Option.any_some, decide_eq_true hhead, decide_eq_true hfreed]; rfl)
      (fun _ _ => rfl)
  case taken =>
    exact fun sl ph cls op tag len pay x c => occurs_of_evt (fun _ => rfl)
      (fun s ⟨hup, hslice, hactive, hchan, hserved, hwaits, hroom, _⟩ =>
        channelRequest_occurs hup hslice hactive hchan hserved hwaits hroom)
      (fun s ⟨_, _, _, hchan, _, _, _, hphase, hlen⟩ => if_neg (by simp [hchan, hphase, hlen]))
  case malformed =>
    exact fun sl ph cls op tag len pay x c => occurs_of_evt (fun _ => rfl)
      (fun s ⟨hup, hslice, hactive, hchan, hserved, hwaits, hroom, _⟩ =>
        channelRequest_occurs hup hslice hactive hchan hserved hwaits hroom)
      (fun s ⟨_, _, _, hchan, _, _, _, hbad⟩ => if_pos (by simpa [hchan] using hbad))

/-! ### WARD commands (R416, R427, R438, R439, R444, R460) -/

/-- Settles O21: each guard passes by the region, the index or the slice that the conditions name. That WARD_STATUS_GET corrects
the voted fields before it reads them (log 70), and that a refused GO leaves TARGET (log 60), are the model's choice. -/
theorem wardCommands : Obligations.WardCommands := by
  unfold Obligations.WardCommands
  refine ⟨?regionSet, ?regionGet, ?deviceCut, ?sliceCut, ?commit, ?status, ?write⟩
  case regionSet =>
    exact fun f n r => answers_of_command (fun _ => rfl)
      (fun _ _ s ⟨hn, hfits, hsettled⟩ => by
        simp only [checks_cons, checks_nil, decide_eq_false (Nat.not_le.mpr hn), hfits, hsettled]
        rfl)
      (fun _ _ _ _ => rfl)
  case regionGet =>
    exact fun f n => answers_of_query (fun _ => rfl) (fun _ _ _ hn => if_neg (Nat.not_le.mpr hn))
  case deviceCut =>
    exact fun f i cut => answers_of_command (fun _ => rfl) (fun _ _ _ hi => if_neg (Nat.not_le.mpr hi)) (fun _ _ _ _ => rfl)
  case sliceCut =>
    exact fun f i cut => answers_of_command (fun _ => rfl) (fun _ _ _ hslice => noSlice_passes hslice) (fun _ _ _ _ => rfl)
  case commit =>
    exact fun f t => answers_of_command (fun _ => rfl) (fun _ _ _ _ => rfl) (fun _ _ _ _ => rfl)
  case status =>
    exact fun f => answers_of_command (fun _ => rfl) (fun _ _ _ _ => rfl) (fun _ _ _ _ => rfl)
  case write =>
    exact fun t go => occurs_of_evt (fun _ => rfl) (fun _ hrun => hrun) (fun _ _ => rfl)

/-! ### The steps of a commit (R434, R440, R442) -/

/-- The oldest accepted commit reaches step 2 once it is not held and no copying runs (R440). -/
theorem commitCheck_occurs {s : State} (hrun : s.running = true) (haccepted : s.ward.accepted ≠ []) (hfresh : s.ward.checked = false)
    (hsettled : s.ward.copying = false) (hfree : s.wardHeld = false) :
    (s.running && ! s.ward.accepted.isEmpty && ! s.ward.checked && ! s.ward.copying && ! s.wardHeld) = true := by
  rw [hrun, List.isEmpty_eq_false_iff.mpr haccepted, hfresh, hsettled, hfree]; rfl

/-- Settles O22: step 2 splits on whether both inactive banks equal the shadow; the switch and the end of copying are the
effects named. That WARD_EVENT.AUDIT is raised at the switch, and that the audit looks at staged cuts (log 60), are the model's
choice. -/
theorem wardSteps : Obligations.WardSteps := by
  unfold Obligations.WardSteps
  refine ⟨?passes, ?refused, ?switch, ?copied⟩
  case passes =>
    exact occurs_of_evt (fun _ => rfl)
      (fun _ ⟨hrun, haccepted, hfresh, hsettled, hfree, _⟩ => commitCheck_occurs hrun haccepted hfresh hsettled hfree)
      (fun _ ⟨_, _, _, _, _, hbank0, hbank1⟩ => if_pos ⟨hbank0, hbank1⟩)
  case refused =>
    exact occurs_of_evt (fun _ => rfl)
      (fun _ ⟨hrun, haccepted, hfresh, hsettled, hfree, _⟩ => commitCheck_occurs hrun haccepted hfresh hsettled hfree)
      (fun _ ⟨_, _, _, _, _, hdiffer⟩ => if_neg hdiffer)
  case switch =>
    exact occurs_of_evt (fun _ => rfl) (fun _ ⟨hrun, hchecked⟩ => Bool.and_eq_true_iff.mpr ⟨hrun, hchecked⟩) (fun _ _ => rfl)
  case copied =>
    exact occurs_of_evt (fun _ => rfl) (fun _ ⟨hrun, hcopying⟩ => Bool.and_eq_true_iff.mpr ⟨hrun, hcopying⟩) (fun _ _ => rfl)

end Sys2Proof.Machine
end

section
/-! The form of the registers and of the flash, the minimum SVN and the locks, over every step; and the canonical tables. -/
namespace Sys2Proof.Machine

/-! ### What every command leaves as it is -/

/-- Every command and event but the three in which a reset clears GLOBAL_LOCK is firm; most keep the queue, the locks, the
firmware banks and the Sill registers as they are, and each arm names the lemma of its meaning. -/
theorem exec_firm (c : Instr) (s : State) (hc : clearsLocks c = false) : FirmRes s (exec c s) := by
  cases c with
  | openSession f role slice ksrc nc => exact firmRes_of_keeps (execOpenSession_keeps f role slice ksrc nc s)
  | sessionAuth f sid proof => exact firmRes_of_keeps (execSessionAuth_keeps f sid proof s)
  | closeSession f sid => exact firmRes_of_keeps (execCloseSession_keeps f sid s)
  | sessionList f => exact firmRes_of_keeps (execSessionList_keeps f s)
  | keySet f role key => exact firmRes_of_keeps (execKeySet_keeps f role key s)
  | passwordSet f role key => exact firmRes_of_keeps (execPasswordSet_keeps f role key s)
  | sessionSet f role secs => exact firmRes_of_keeps (execSessionSet_keeps f role secs s)
  | sessionIdleTimeout sid => exact firmRes_of_keeps (execSessionIdleTimeout_keeps sid s)
  | sessionAuthExpiry sid => exact firmRes_of_keeps (execSessionAuthExpiry_keeps sid s)
  | lockoutExpiry role => exact firmRes_of_keeps (execLockoutExpiry_keeps role s)
  | moduleIdentify f => exact firmRes_of_keeps (execModuleIdentify_keeps f s)
  | moduleStatus f => exact firmRes_of_keeps (execModuleStatus_keeps f s)
  | moduleSet f smbus vec notify alert edge => exact firmRes_of_keeps (execModuleSet_keeps f smbus vec notify alert edge s)
  | moduleLock f mask => exact execModuleLock_firm f mask s
  | eventGet f ack seq => exact firmRes_of_keeps (execEventGet_keeps f ack seq s)
  | opJournalGet f index count => exact firmRes_of_keeps (execOpJournalGet_keeps f index count s)
  | opStatus f grp => exact firmRes_of_keeps (execOpStatus_keeps f grp s)
  | opAbort f grp => exact firmRes_of_keeps (execOpAbort_keeps f grp s)
  | moduleReset f => exact firmRes_of_keeps (execModuleReset_keeps f s)
  | resetTarget f loc => exact firmRes_of_keeps (execResetTarget_keeps f loc s)
  | resetStatus f => exact firmRes_of_keeps (execResetStatus_keeps f s)
  | regGet f off width => exact execRegGet_firm f off width s
  | regSet f off width val => exact execRegSet_firm f off width val s
  | identifyV1 f => exact firmRes_of_keeps (execIdentifyV1_keeps f s)
  | sliceFreezeV1 f slice => exact firmRes_of_keeps (execSliceFreezeV1_keeps f slice s)
  | sliceSaveV1 f slice addr => exact firmRes_of_keeps (execSliceSaveV1_keeps f slice addr s)
  | sliceRestoreV1 f host pasid addr img => exact firmRes_of_keeps (execSliceRestoreV1_keeps f host pasid addr img s)
  | sliceThawV1 f slice => exact firmRes_of_keeps (execSliceThawV1_keeps f slice s)
  | mctpControl xport ep cmd arg => exact firmRes_of_keeps (execMctpControl_keeps xport ep cmd arg s)
  | trunkMailboxFrame tp f opcode => exact firmRes_of_keeps (execTrunkMailboxFrame_keeps tp f opcode s)
  | forwardResend tag => exact firmRes_of_keeps (execForwardResend_keeps tag s)
  | portMapGet f => exact firmRes_of_keeps (execPortMapGet_keeps f s)
  | portMapCommit f map => exact firmRes_of_keeps (execPortMapCommit_keeps f map s)
  | portEnable f port => exact firmRes_of_keeps (execPortEnable_keeps f port s)
  | portDisable f port => exact firmRes_of_keeps (execPortDisable_keeps f port s)
  | portStatus f port => exact firmRes_of_keeps (execPortStatus_keeps f port s)
  | portSet f port dsCpl dsFail usCpl aspm l0p contain => exact firmRes_of_keeps (execPortSet_keeps f port dsCpl dsFail usCpl aspm l0p contain s)
  | portEqSet f loc wholePort val => exact firmRes_of_keeps (execPortEqSet_keeps f loc wholePort val s)
  | portEqStatus f loc => exact firmRes_of_keeps (execPortEqStatus_keeps f loc s)
  | portReset f port => exact firmRes_of_keeps (execPortReset_keeps f port s)
  | portBlockRead f loc reg => exact firmRes_of_keeps (execPortBlockRead_keeps f loc reg s)
  | portBlockWrite f loc reg val => exact firmRes_of_keeps (execPortBlockWrite_keeps f loc reg val s)
  | partnerList f => exact firmRes_of_keeps (execPartnerList_keeps f s)
  | partnerEventGet f count => exact firmRes_of_keeps (execPartnerEventGet_keeps f count s)
  | partnerSet f port timer snoop autoAdd => exact firmRes_of_keeps (execPartnerSet_keeps f port timer snoop autoAdd s)
  | partnerRelease f port => exact firmRes_of_keeps (execPartnerRelease_keeps f port s)
  | evacuatePartner f port ch share stallPages maxPasses mask => exact firmRes_of_keeps (execEvacuatePartner_keeps f port ch share stallPages maxPasses mask s)
  | evacPassDone e => exact firmRes_of_keeps (execEvacPassDone_keeps e s)
  | evacStallDrained e => exact firmRes_of_keeps (execEvacStallDrained_keeps e s)
  | evacFinalPassDone => exact firmRes_of_keeps (execEvacFinalPassDone_keeps s)
  | evacStallGuard => exact firmRes_of_keeps (execEvacStallGuard_keeps s)
  | bindAdd f host entries => exact firmRes_of_keeps (execBindAdd_keeps f host entries s)
  | bindRelease f host entry force => exact firmRes_of_keeps (execBindRelease_keeps f host entry force s)
  | bindTableGet f host => exact firmRes_of_keeps (execBindTableGet_keeps f host s)
  | bindPassthru f d host bridge => exact firmRes_of_keeps (execBindPassthru_keeps f d host bridge s)
  | addDynamicCapacityResponse host accepted declined => exact firmRes_of_keeps (execAddDynamicCapacityResponse_keeps host accepted declined s)
  | dcAddTimeout host entry => exact firmRes_of_keeps (execDcAddTimeout_keeps host entry s)
  | releaseDynamicCapacity host entry => exact firmRes_of_keeps (execReleaseDynamicCapacity_keeps host entry s)
  | dcReleaseTimeout host entry => exact firmRes_of_keeps (execDcReleaseTimeout_keeps host entry s)
  | bindingRemovalDone host entry => exact firmRes_of_keeps (execBindingRemovalDone_keeps host entry s)
  | poolAddPartner f port => exact firmRes_of_keeps (execPoolAddPartner_keeps f port s)
  | scrubDone ext => exact firmRes_of_keeps (execScrubDone_keeps ext s)
  | poolStatus f => exact firmRes_of_keeps (execPoolStatus_keeps f s)
  | poolExtentRevalidate f ext count => exact firmRes_of_keeps (execPoolExtentRevalidate_keeps f ext count s)
  | poolExtentRelease f ext count => exact firmRes_of_keeps (execPoolExtentRelease_keeps f ext count s)
  | poolAlloc f module count => exact firmRes_of_keeps (execPoolAlloc_keeps f module count s)
  | poolSpillSet f base size high low en => exact firmRes_of_keeps (execPoolSpillSet_keeps f base size high low en s)
  | sliceCreate f host pasid => exact firmRes_of_keeps (execSliceCreate_keeps f host pasid s)
  | sliceSet f slice mask userCounters => exact firmRes_of_keeps (execSliceSet_keeps f slice mask userCounters s)
  | sliceDestroy f slice => exact firmRes_of_keeps (execSliceDestroy_keeps f slice s)
  | sliceStatus f slice => exact firmRes_of_keeps (execSliceStatus_keeps f slice s)
  | sliceFreeze f slice => exact firmRes_of_keeps (execSliceFreeze_keeps f slice s)
  | sliceThaw f slice => exact firmRes_of_keeps (execSliceThaw_keeps f slice s)
  | sliceSave f slice owner addr => exact firmRes_of_keeps (execSliceSave_keeps f slice owner addr s)
  | sliceRestore f host pasid addr chmap img => exact firmRes_of_keeps (execSliceRestore_keeps f host pasid addr chmap img s)
  | sliceWindowSet f slice window area => exact firmRes_of_keeps (execSliceWindowSet_keeps f slice window area s)
  | sliceChanSet f slice reqBase reqLog repBase repLog vec => exact firmRes_of_keeps (execSliceChanSet_keeps f slice reqBase reqLog repBase repLog vec s)
  | sliceChanGet f slice => exact firmRes_of_keeps (execSliceChanGet_keeps f slice s)
  | sliceChanPut f slice tag status len payload => exact firmRes_of_keeps (execSliceChanPut_keeps f slice tag status len payload s)
  | logStart f slice owner buf0 buf1 => exact firmRes_of_keeps (execLogStart_keeps f slice owner buf0 buf1 s)
  | logHarvest f slice zero rcl => exact firmRes_of_keeps (execLogHarvest_keeps f slice zero rcl s)
  | logStop f slice => exact firmRes_of_keeps (execLogStop_keeps f slice s)
  | sliceCounterClear f slice => exact firmRes_of_keeps (execSliceCounterClear_keeps f slice s)
  | dmaChSet f ch slice prio share wdog => exact firmRes_of_keeps (execDmaChSet_keeps f ch slice prio share wdog s)
  | dmaRingAssign f ring ch slot sqBase sqLog cq cqBase cqLog vec => exact firmRes_of_keeps (execDmaRingAssign_keeps f ring ch slot sqBase sqLog cq cqBase cqLog vec s)
  | dmaRingRelease f ring => exact firmRes_of_keeps (execDmaRingRelease_keeps f ring s)
  | dmaStatus f slice => exact firmRes_of_keeps (execDmaStatus_keeps f slice s)
  | dmaAliasSet f win dfn => exact firmRes_of_keeps (execDmaAliasSet_keeps f win dfn s)
  | dmaAliasStatus f win => exact firmRes_of_keeps (execDmaAliasStatus_keeps f win s)
  | wardRegionSet f n r => exact firmRes_of_keeps (execWardRegionSet_keeps f n r s)
  | wardRegionGet f n => exact firmRes_of_keeps (execWardRegionGet_keeps f n s)
  | wardCutSet f device idx cut => exact firmRes_of_keeps (execWardCutSet_keeps f device idx cut s)
  | wardCommit f target => exact firmRes_of_keeps (execWardCommit_keeps f target s)
  | wardStatusGet f => exact execWardStatusGet_firm f s
  | shapeBktSet f agg slice bkt cfg => exact firmRes_of_keeps (execShapeBktSet_keeps f agg slice bkt cfg s)
  | shapeBktGet f agg slice bkt => exact firmRes_of_keeps (execShapeBktGet_keeps f agg slice bkt s)
  | shapeStatus f => exact firmRes_of_keeps (execShapeStatus_keeps f s)
  | gateListSet f point ctl base entries => exact firmRes_of_keeps (execGateListSet_keeps f point ctl base entries s)
  | gateCommit f point => exact firmRes_of_keeps (execGateCommit_keeps f point s)
  | gateGet f point => exact firmRes_of_keeps (execGateGet_keeps f point s)
  | gateTsyncSet f loss => exact firmRes_of_keeps (execGateTsyncSet_keeps f loss s)
  | hierStatus f => exact firmRes_of_keeps (execHierStatus_keeps f s)
  | hierKeySet f key => exact firmRes_of_keeps (execHierKeySet_keeps f key s)
  | hierSet f rolePref autoAdmit meshTimeout trCpl => exact firmRes_of_keeps (execHierSet_keeps f rolePref autoAdmit meshTimeout trCpl s)
  | hierAdmit f serial => exact firmRes_of_keeps (execHierAdmit_keeps f serial s)
  | hierRemove f idx => exact firmRes_of_keeps (execHierRemove_keeps f idx s)
  | hierRemoveStepDone => exact firmRes_of_keeps (execHierRemoveStepDone_keeps s)
  | hierForget f idx => exact firmRes_of_keeps (execHierForget_keeps f idx s)
  | hierTrunkDisable f tp => exact firmRes_of_keeps (execHierTrunkDisable_keeps f tp s)
  | hierTrunkEnable f tp => exact firmRes_of_keeps (execHierTrunkEnable_keeps f tp s)
  | faultLogGet f fromSeq count => exact firmRes_of_keeps (execFaultLogGet_keeps f fromSeq count s)
  | faultStatus f => exact firmRes_of_keeps (execFaultStatus_keeps f s)
  | faultReactionSet f byClass code pat action irq idx del => exact firmRes_of_keeps (execFaultReactionSet_keeps f byClass code pat action irq idx del s)
  | reactionDryrun f byClass code loc => exact firmRes_of_keeps (execReactionDryrun_keeps f byClass code loc s)
  | faultLogClear f => exact firmRes_of_keeps (execFaultLogClear_keeps f s)
  | aliveSet f hz => exact firmRes_of_keeps (execAliveSet_keeps f hz s)
  | powerStatus f => exact execPowerStatus_firm f s
  | powerSet f ctl limits => exact execPowerSet_firm f ctl limits s
  | powerStateSet f target persist => exact firmRes_of_keeps (execPowerStateSet_keeps f target persist s)
  | energyClear f => exact firmRes_of_keeps (execEnergyClear_keeps f s)
  | thermalSet f grp warn crit => exact firmRes_of_keeps (execThermalSet_keeps f grp warn crit s)
  | thermalStatus f => exact firmRes_of_keeps (execThermalStatus_keeps f s)
  | perfCntSet f glb port idx sel preload clrOvf => exact firmRes_of_keeps (execPerfCntSet_keeps f glb port idx sel preload clrOvf s)
  | perfCntGet f glb port idx => exact firmRes_of_keeps (execPerfCntGet_keeps f glb port idx s)
  | perfSampleSet f idx cfg => exact firmRes_of_keeps (execPerfSampleSet_keeps f idx cfg s)
  | perfOvfSet f en vec => exact firmRes_of_keeps (execPerfOvfSet_keeps f en vec s)
  | fwInfo f => exact firmRes_of_keeps (execFwInfo_keeps f s)
  | fwTransfer f off data => exact execFwTransfer_firm f off data s
  | fwVerify f => exact firmRes_of_keeps (execFwVerify_keeps f s)
  | fwVerifyDone => exact execFwVerifyDone_firm s
  | fwActivate f resetNow => exact execFwActivate_firm f resetNow s
  | dmaSqDb ring tail => exact firmRes_of_keeps (execDmaSqDb_keeps ring tail s)
  | dmaCqDb ring head => exact firmRes_of_keeps (execDmaCqDb_keeps ring head s)
  | dmaRingCtlEn ring en => exact firmRes_of_keeps (execDmaRingCtlEn_keeps ring en s)
  | dmaRingCtlAbort ring => exact firmRes_of_keeps (execDmaRingCtlAbort_keeps ring s)
  | chStop ch stop => exact firmRes_of_keeps (execChStop_keeps ch stop s)
  | schReqDb slice tail => exact firmRes_of_keeps (execSchReqDb_keeps slice tail s)
  | schRepDb slice head => exact firmRes_of_keeps (execSchRepDb_keeps slice head s)
  | wardCommitGo target go => exact firmRes_of_keeps (execWardCommitGo_keeps target go s)
  | globalLockWrite val => exact execGlobalLockWrite_firm val s
  | perfCtlFreeze freeze => exact firmRes_of_keeps (execPerfCtlFreeze_keeps freeze s)
  | perfCtlClear => exact firmRes_of_keeps (execPerfCtlClear_keeps s)
  | perfSmpHead idx head => exact firmRes_of_keeps (execPerfSmpHead_keeps idx head s)
  | sequenceClear off val => exact firmRes_of_keeps (execSequenceClear_keeps off val s)
  | sillCtlEn en => exact execSillCtlEn_firm en s
  | registerWrite bar2 port off width val => exact execRegisterWrite_firm bar2 port off width val s
  | tvRead field => exact execTvRead_firm field s
  | votePass => exact execVotePass_firm s
  | counterLowRead requester off => exact execCounterLowRead_firm requester off s
  | coreWake => exact firmRes_of_keeps (execCoreWake_keeps s)
  | coreHalt => exact firmRes_of_keeps (execCoreHalt_keeps s)
  | coreWdog => exact firmRes_of_keeps (execCoreWdog_keeps s)
  | corePllLock die => exact firmRes_of_keeps (execCorePllLock_keeps die s)
  | planeIdleGate plane => exact firmRes_of_keeps (execPlaneIdleGate_keeps plane s)
  | planeUngate plane => exact firmRes_of_keeps (execPlaneUngate_keeps plane s)
  | rstNLow => exact firmRes_of_keeps (execRstNLow_keeps s)
  | rstNRelease => exact firmRes_of_keeps (execRstNRelease_keeps s)
  | moduleResetCoreReset => cases hc
  | moduleResetRelease => exact execModuleResetRelease_firm s
  | moduleResetReady => exact firmRes_of_keeps (execModuleResetReady_keeps s)
  | sliceDrainDone ks => exact firmRes_of_keeps (execSliceDrainDone_keeps ks s)
  | resetDone loc => exact firmRes_of_keeps (execResetDone_keeps loc s)
  | rds r => exact firmRes_of_keeps (execRds_keeps r s)
  | rdx r => exact firmRes_of_keeps (execRdx_keeps r s)
  | upg r => exact firmRes_of_keeps (execUpg_keeps r s)
  | wrinvfull r => exact firmRes_of_keeps (execWrinvfull_keeps r s)
  | wrinvpart r => exact firmRes_of_keeps (execWrinvpart_keeps r s)
  | atomop r record nextRec => exact firmRes_of_keeps (execAtomop_keeps r record nextRec s)
  | evict r => exact firmRes_of_keeps (execEvict_keeps r s)
  | wbdata m => exact firmRes_of_keeps (execWbdata_keeps m s)
  | snpinv m => exact firmRes_of_keeps (execSnpinv_keeps m s)
  | snpshr m => exact firmRes_of_keeps (execSnpshr_keeps m s)
  | snpdata m => exact firmRes_of_keeps (execSnpdata_keeps m s)
  | birecall m => exact firmRes_of_keeps (execBirecall_keeps m s)
  | rspi m => exact firmRes_of_keeps (execRspi_keeps m s)
  | rsps m => exact firmRes_of_keeps (execRsps_keeps m s)
  | rspo m => exact firmRes_of_keeps (execRspo_keeps m s)
  | rspwbpend m => exact firmRes_of_keeps (execRspwbpend_keeps m s)
  | cmp m => exact firmRes_of_keeps (execCmp_keeps m s)
  | cmppoison m => exact firmRes_of_keeps (execCmppoison_keeps m s)
  | datas m => exact firmRes_of_keeps (execDatas_keeps m s)
  | datae m => exact firmRes_of_keeps (execDatae_keeps m s)
  | datam m => exact firmRes_of_keeps (execDatam_keeps m s)
  | datao m => exact firmRes_of_keeps (execDatao_keeps m s)
  | conflictQueueResume ks fpa => exact firmRes_of_keeps (execConflictQueueResume_keeps ks fpa s)
  | snoopTimeout fpa holder => exact firmRes_of_keeps (execSnoopTimeout_keeps fpa holder s)
  | postingWindowWrite h => exact firmRes_of_keeps (execPostingWindowWrite_keeps h s)
  | m2sReq h => exact firmRes_of_keeps (execM2sReq_keeps h s)
  | m2sRwd h => exact firmRes_of_keeps (execM2sRwd_keeps h s)
  | m2sBirsp port hoff b => exact firmRes_of_keeps (execM2sBirsp_keeps port hoff b s)
  | biconflict port hoff => exact firmRes_of_keeps (execBiconflict_keeps port hoff s)
  | d2hReq dev op r => exact firmRes_of_keeps (execD2hReq_keeps dev op r s)
  | s2mDrs port fpa poison data => exact firmRes_of_keeps (execS2mDrs_keeps port fpa poison data s)
  | s2mNdrCmp port fpa => exact firmRes_of_keeps (execS2mNdrCmp_keeps port fpa s)
  | passthruMemRequest d pasid addr len write data => exact firmRes_of_keeps (execPassthruMemRequest_keeps d pasid addr len write data s)
  | cxlioTlp d fromHost tlp => exact firmRes_of_keeps (execCxlioTlp_keeps d fromHost tlp s)
  | reseqHole src dst cls => exact firmRes_of_keeps (execReseqHole_keeps src dst cls s)
  | spillReadBack point => exact firmRes_of_keeps (execSpillReadBack_keeps point s)
  | arbRequest port req write units => exact firmRes_of_keeps (execArbRequest_keeps port req write units s)
  | arbGrant port => exact firmRes_of_keeps (execArbGrant_keeps port s)
  | arbHandoffDone port => exact firmRes_of_keeps (execArbHandoffDone_keeps port s)
  | arbHold port => exact firmRes_of_keeps (execArbHold_keeps port s)
  | arbMask port req => exact firmRes_of_keeps (execArbMask_keeps port req s)
  | arbUnmask port req => exact firmRes_of_keeps (execArbUnmask_keeps port req s)
  | arbParkTimeout port req => exact firmRes_of_keeps (execArbParkTimeout_keeps port req s)
  | perstNLow grp => exact firmRes_of_keeps (execPerstNLow_keeps grp s)
  | perstNRelease grp => exact firmRes_of_keeps (execPerstNRelease_keeps grp s)
  | perstReleaseTimer grp => exact firmRes_of_keeps (execPerstReleaseTimer_keeps grp s)
  | refclkStable k => exact firmRes_of_keeps (execRefclkStable_keeps k s)
  | receiverDetect port found => exact firmRes_of_keeps (execReceiverDetect_keeps port found s)
  | linkUp port lanes rate pid => exact firmRes_of_keeps (execLinkUp_keeps port lanes rate pid s)
  | ideEstablished port => exact firmRes_of_keeps (execIdeEstablished_keeps port s)
  | memoryActive port capacity => exact firmRes_of_keeps (execMemoryActive_keeps port capacity s)
  | arrive port => exact firmRes_of_keeps (execArrive_keeps port s)
  | spdmSessionComplete port cert lastTick => exact firmRes_of_keeps (execSpdmSessionComplete_keeps port cert lastTick s)
  | linkDown port cause => exact firmRes_of_keeps (execLinkDown_keeps port cause s)
  | linkLevelReset port => exact firmRes_of_keeps (execLinkLevelReset_keeps port s)
  | ideIntegrityFailure port => exact firmRes_of_keeps (execIdeIntegrityFailure_keeps port s)
  | departureSweepDone port => exact firmRes_of_keeps (execDepartureSweepDone_keeps port s)
  | departureTimerExpiry port => exact firmRes_of_keeps (execDepartureTimerExpiry_keeps port s)
  | dsCplTimeout port fpa => exact firmRes_of_keeps (execDsCplTimeout_keeps port fpa s)
  | usCplTimeout port fpa => exact firmRes_of_keeps (execUsCplTimeout_keeps port fpa s)
  | trCplTimeout fpa src => exact firmRes_of_keeps (execTrCplTimeout_keeps fpa src s)
  | refclkLoss k => exact firmRes_of_keeps (execRefclkLoss_keeps k s)
  | refclkReturn k => exact firmRes_of_keeps (execRefclkReturn_keeps k s)
  | trunkTrainDone tp precode => exact firmRes_of_keeps (execTrunkTrainDone_keeps tp precode s)
  | trunkTrainTimeout tp => exact firmRes_of_keeps (execTrunkTrainTimeout_keeps tp s)
  | trunkAlignDone a => exact firmRes_of_keeps (execTrunkAlignDone_keeps a s)
  | laneMarker tp lane mcrcOk logical mcount midx => exact firmRes_of_keeps (execLaneMarker_keeps tp lane mcrcOk logical mcount midx s)
  | initCredit tp serial idx role counts => exact firmRes_of_keeps (execInitCredit_keeps tp serial idx role counts s)
  | authChal tp nonce => exact firmRes_of_keeps (execAuthChal_keeps tp nonce s)
  | authResp tp hmac => exact firmRes_of_keeps (execAuthResp_keeps tp hmac s)
  | authFailRetry tp => exact firmRes_of_keeps (execAuthFailRetry_keeps tp s)
  | payloadFlit fl msg => exact firmRes_of_keeps (execPayloadFlit_keeps fl msg s)
  | nullFlit x => exact firmRes_of_keeps (execNullFlit_keeps x s)
  | replayReq tp seq => exact firmRes_of_keeps (execReplayReq_keeps tp seq s)
  | replayTimeout tp => exact firmRes_of_keeps (execReplayTimeout_keeps tp s)
  | resume tp linkId seq counts lastTick => exact firmRes_of_keeps (execResume_keeps tp linkId seq counts lastTick s)
  | linkSleep tp cause => exact firmRes_of_keeps (execLinkSleep_keeps tp cause s)
  | leave tp idx => exact firmRes_of_keeps (execLeave_keeps tp idx s)
  | reset tp idx => exact firmRes_of_keeps (execReset_keeps tp idx s)
  | sleep1Codeword tp => exact firmRes_of_keeps (execSleep1Codeword_keeps tp s)
  | tl1IdleEntry tp => exact firmRes_of_keeps (execTl1IdleEntry_keeps tp s)
  | wakeSequence tp => exact firmRes_of_keeps (execWakeSequence_keeps tp s)
  | wakeLockTimeout tp => exact firmRes_of_keeps (execWakeLockTimeout_keeps tp s)
  | errorWindowEval tp => exact firmRes_of_keeps (execErrorWindowEval_keeps tp s)
  | cdrLoss tp lane => exact firmRes_of_keeps (execCdrLoss_keeps tp lane s)
  | trefclkLoss die => exact firmRes_of_keeps (execTrefclkLoss_keeps die s)
  | linkHoldExpiry tp => exact firmRes_of_keeps (execLinkHoldExpiry_keeps tp s)
  | managerDeclare => exact firmRes_of_keeps (execManagerDeclare_keeps s)
  | hierarchyControl tp m => exact firmRes_of_keeps (execHierarchyControl_keeps tp m s)
  | meshComplete => exact firmRes_of_keeps (execMeshComplete_keeps s)
  | meshTimeout => exact firmRes_of_keeps (execMeshTimeout_keeps s)
  | joinRetry => exact firmRes_of_keeps (execJoinRetry_keeps s)
  | descriptorFetch ch ring fetch => exact firmRes_of_keeps (execDescriptorFetch_keeps ch ring fetch s)
  | descriptorBegin ch => exact firmRes_of_keeps (execDescriptorBegin_keeps ch s)
  | nop ch => exact firmRes_of_keeps (execNop_keeps ch s)
  | copy ch => exact firmRes_of_keeps (execCopy_keeps ch s)
  | fill ch => exact firmRes_of_keeps (execFill_keeps ch s)
  | check ch => exact firmRes_of_keeps (execCheck_keeps ch s)
  | atomic ch => exact firmRes_of_keeps (execAtomic_keeps ch s)
  | flip ch => exact firmRes_of_keeps (execFlip_keeps ch s)
  | fence ch => exact firmRes_of_keeps (execFence_keeps ch s)
  | burstBegin ch => exact firmRes_of_keeps (execBurstBegin_keeps ch s)
  | descriptorComplete ch => exact firmRes_of_keeps (execDescriptorComplete_keeps ch s)
  | drainDone ring => exact firmRes_of_keeps (execDrainDone_keeps ring s)
  | dreqEdge n => exact firmRes_of_keeps (execDreqEdge_keeps n s)
  | dmaWatchdog ch => exact firmRes_of_keeps (execDmaWatchdog_keeps ch s)
  | flipPrepare win => exact firmRes_of_keeps (execFlipPrepare_keeps win s)
  | flipCommit win => exact firmRes_of_keeps (execFlipCommit_keeps win s)
  | flipDrainDone win => exact firmRes_of_keeps (execFlipDrainDone_keeps win s)
  | flipSweepDone win => exact firmRes_of_keeps (execFlipSweepDone_keeps win s)
  | chargeProceed agg slice bkt => exact firmRes_of_keeps (execChargeProceed_keeps agg slice bkt s)
  | shapingQueueEntry port => exact firmRes_of_keeps (execShapingQueueEntry_keeps port s)
  | tsync => exact firmRes_of_keeps (execTsync_keeps s)
  | tsyncLoss => exact firmRes_of_keeps (execTsyncLoss_keeps s)
  | cycleStart point => exact firmRes_of_keeps (execCycleStart_keeps point s)
  | gateEntry point => exact firmRes_of_keeps (execGateEntry_keeps point s)
  | gateSwap point => exact firmRes_of_keeps (execGateSwap_keeps point s)
  | sliceChannelRequest slice phase cls opcode tag len payload => exact firmRes_of_keeps (execSliceChannelRequest_keeps slice phase cls opcode tag len payload s)
  | wardCommitCheck => exact firmRes_of_keeps (execWardCommitCheck_keeps s)
  | wardSwitch => exact firmRes_of_keeps (execWardSwitch_keeps s)
  | wardCopyDone => exact firmRes_of_keeps (execWardCopyDone_keeps s)
  | faultReport code loc detail port => exact firmRes_of_keeps (execFaultReport_keeps code loc detail port s)
  | wire loc source => exact firmRes_of_keeps (execWire_keeps loc source s)
  | reactionWindowClose loc => exact firmRes_of_keeps (execReactionWindowClose_keeps loc s)
  | overflowMessage => exact firmRes_of_keeps (execOverflowMessage_keeps s)
  | sampleRecord idx ns => exact firmRes_of_keeps (execSampleRecord_keeps idx ns s)
  | thermalSensorUpdate readings => exact firmRes_of_keeps (execThermalSensorUpdate_keeps readings s)
  | dieThermal die => exact firmRes_of_keeps (execDieThermal_keeps die s)
  | feedChange feedB st => exact firmRes_of_keeps (execFeedChange_keeps feedB st s)
  | qualStart => exact firmRes_of_keeps (execQualStart_keeps s)
  | qualDone => exact firmRes_of_keeps (execQualDone_keeps s)
  | powerGood => exact firmRes_of_keeps (execPowerGood_keeps s)
  | sillSoa => exact firmRes_of_keeps (execSillSoa_keeps s)
  | sillFastTrip => exact firmRes_of_keeps (execSillFastTrip_keeps s)
  | sillSlowTrip => exact firmRes_of_keeps (execSillSlowTrip_keeps s)
  | coolEnd => exact firmRes_of_keeps (execCoolEnd_keeps s)
  | retryReload => exact firmRes_of_keeps (execRetryReload_keeps s)
  | sillOv => exact firmRes_of_keeps (execSillOv_keeps s)
  | ovRecover => exact firmRes_of_keeps (execOvRecover_keeps s)
  | bulkRecharge => exact firmRes_of_keeps (execBulkRecharge_keeps s)
  | coldReset => cases hc
  | coldRelease => exact firmRes_of_keeps (execColdRelease_keeps s)
  | sillBrownout => exact firmRes_of_keeps (execSillBrownout_keeps s)
  | brownoutSleep => exact firmRes_of_keeps (execBrownoutSleep_keeps s)
  | pfwRelease => exact firmRes_of_keeps (execPfwRelease_keeps s)
  | polStop => cases hc
  | meterUpdate va vb vin vbulk ia ib iin ok => exact firmRes_of_keeps (execMeterUpdate_keeps va vb vin vbulk ia ib iin ok s)
  | gpfRequest port => exact firmRes_of_keeps (execGpfRequest_keeps port s)
  | selfTestDone pass => exact execSelfTestDone_firm pass s
  | startupReady => exact firmRes_of_keeps (execStartupReady_keeps s)
  | tapInstruction op => exact firmRes_of_keeps (execTapInstruction_keeps op s)
  | testLogicReset => exact firmRes_of_keeps (execTestLogicReset_keeps s)
  | qualLeavesRange => exact firmRes_of_keeps (execQualLeavesRange_keeps s)
  | bulkRechargeEnd => exact firmRes_of_keeps (execBulkRechargeEnd_keeps s)
  | controlFlitRepeat tp => exact firmRes_of_keeps (execControlFlitRepeat_keeps tp s)
  | forwardedReply tp tag rc data => exact firmRes_of_keeps (execForwardedReply_keeps tp tag rc data s)
  | homeModuleRequest tp kind ext count => exact firmRes_of_keeps (execHomeModuleRequest_keeps tp kind ext count s)
  | gpfCompletion port => exact firmRes_of_keeps (execGpfCompletion_keeps port s)
  | memoryActiveTimeout port => exact firmRes_of_keeps (execMemoryActiveTimeout_keeps port s)
  | linkL1Entry x => exact firmRes_of_keeps (execLinkL1Entry_keeps x s)
  | linkL1Exit port => exact firmRes_of_keeps (execLinkL1Exit_keeps port s)
  | cxlMemoryDeviceCommand port opcode => exact firmRes_of_keeps (execCxlMemoryDeviceCommand_keeps port opcode s)
  | unsupportedOpcode f opcode => exact firmRes_of_keeps (execUnsupportedOpcode_keeps f opcode s)
  | scrubPatrol die port => exact firmRes_of_keeps (execScrubPatrol_keeps die port s)

/-- Every command and event moves: the three that clear GLOBAL_LOCK keep the form as well. -/
theorem exec_moves {c : Instr} {s t : State} (h : exec c s = .next t) : Moves s t := by
  cases hc : clearsLocks c with
  | false => exact (exec_firm c s hc t h).1
  | true =>
    unfold clearsLocks at hc
    split at hc
    · exact execModuleResetCoreReset_moves s t h
    · exact execPolStop_moves s t h
    · exact execColdReset_moves s t h
    · cases hc

/-! ### One step (R472) -/

/-- The waiting command that is due runs in a state of which only the mailbox's part is changed. -/
theorem nextWaiting_changes_mbx {s : State} {x : Instr × State} (h : s.nextWaiting = some x) :
    ∃ m : Mbx, x.2 = { s with mbx := m } := by
  unfold State.nextWaiting at h
  split at h
  · cases h
  · cases h
    exact ⟨_, rfl⟩

/-- No step lowers the minimum SVN or breaks the form: a command moves, and on an empty queue a waiting command or a tick. -/
theorem step_keeps_form {s t : State} (h : step s = .next t) : s.fw.minSvn ≤ t.fw.minSvn ∧ (s.inForm → t.inForm) := by
  cases hq : s.pending with
  | cons c rest =>
    simp only [step, hq] at h
    exact (exec_moves h).2
  | nil =>
    cases hw : s.nextWaiting with
    | some x =>
      obtain ⟨m, hm⟩ := nextWaiting_changes_mbx hw
      rw [step_of_waiting hq hw, hm] at h
      exact (exec_moves h).2
    | none =>
      rw [step_of_idle hq hw] at h
      cases h
      exact (firm_of_kept (idle_kept s)).1.2

/-- Settles O59: whatever runs, the command in front, a waiting one or a tick, keeps the form. -/
theorem registersStayInForm : Obligations.RegistersStayInForm :=
  fun _ _ hform hstep => (step_keeps_form hstep).2 hform

/-- Settles O60: the minimum SVN by the step, the lock bits by every command that is firm. -/
theorem ratchets : Obligations.Ratchets :=
  ⟨fun _ _ hstep => (step_keeps_form hstep).1, fun c s t g hc hexec => (exec_firm c s hc t hexec).2 g⟩

/-! ### Canonical tables -/

/-- A value set in a canonical table reads back, the default among them. -/
theorem get_set_same {α : Type} [DecidableEq α] {d : α} {t : Tbl α} {k : Nat} {v : α} (hw : Tbl.wf d t = true) :
    Tbl.get d (Tbl.set d t k v) k = v := by
  by_cases hv : v = d
  · rw [Tbl.get, Tbl.set, if_pos hv, find_del d t 0 k k hw, if_pos rfl, Option.getD_none, hv]
  · exact get_set_self hv

/-- A key below a table's lower bound reads as the default. -/
theorem get_below {α : Type} [DecidableEq α] {d : α} {t : Tbl α} {lo j : Nat} (h : Tbl.okFrom d lo t = true) (hj : j < lo) :
    Tbl.get d t j = d := by
  rw [Tbl.get, find_below d t lo j h hj, Option.getD_none]

/-- The first entry's key reads as its value, and every other key as in the rest. -/
theorem get_cons {α : Type} (d : α) (i j : Nat) (a : α) (r : Tbl α) :
    Tbl.get d ((i, a) :: r) j = if i = j then a else Tbl.get d r j := by
  simp only [Tbl.get, Tbl.find]
  split <;> rfl

/-- A first entry below every key of a canonical table tells the two apart. -/
theorem get_ne_of_first_below {α : Type} [DecidableEq α] {d : α} {t : Tbl α} {i lo : Nat} {a : α} (r : Tbl α) (ha : a ≠ d)
    (h : Tbl.okFrom d lo t = true) (hi : i < lo) : Tbl.get d ((i, a) :: r) i ≠ Tbl.get d t i := by
  rw [get_cons, if_pos rfl, get_below h hi]
  exact ha

/-- A canonical table begins with a key from the bound on and a value that is not the default, and rises from there. -/
theorem okFrom_cons {α : Type} [DecidableEq α] {d a : α} {lo i : Nat} {r : Tbl α} :
    Tbl.okFrom d lo ((i, a) :: r) = true ↔ lo ≤ i ∧ a ≠ d ∧ Tbl.okFrom d (i + 1) r = true := by
  simp only [Tbl.okFrom, Bool.and_eq_true, decide_eq_true_eq, and_assoc]

/-- Canonical tables with equal contents are equal. -/
theorem eq_of_get_eq {α : Type} [DecidableEq α] {d : α} {t u : Tbl α} {lo : Nat} (ht : Tbl.okFrom d lo t = true)
    (hu : Tbl.okFrom d lo u = true) (h : ∀ j, Tbl.get d t j = Tbl.get d u j) : t = u := by
  induction t generalizing u lo with
  | nil =>
    cases u with
    | nil => rfl
    | cons e q =>
      obtain ⟨-, hb, -⟩ := okFrom_cons.mp hu
      exact absurd (h e.1).symm (get_ne_of_first_below q hb (t := []) rfl (Nat.lt_succ_self e.1))
  | cons e r ih =>
    obtain ⟨i, a⟩ := e
    obtain ⟨-, ha, hr⟩ := okFrom_cons.mp ht
    cases u with
    | nil => exact absurd (h i) (get_ne_of_first_below r ha (t := []) rfl (Nat.lt_succ_self i))
    | cons e q =>
      obtain ⟨j, b⟩ := e
      obtain ⟨-, hb, hq⟩ := okFrom_cons.mp hu
      rcases Nat.lt_trichotomy i j with hij | rfl | hij
      · exact absurd (h i) (get_ne_of_first_below r ha (okFrom_cons.mpr ⟨Nat.le_refl j, hb, hq⟩) hij)
      · have hab : a = b := by simpa only [get_cons, if_pos] using h i
        have hrest : ∀ x, Tbl.get d r x = Tbl.get d q x := by
          intro x
          by_cases hx : i = x
          · rw [get_below hr (by omega), get_below hq (by omega)]
          · simpa only [get_cons, if_neg hx] using h x
        rw [hab, ih hr hq hrest]
      · exact absurd (h j).symm (get_ne_of_first_below q hb (okFrom_cons.mpr ⟨Nat.le_refl i, ha, hr⟩) hij)

/-- Settles O58: `flashPut` sets a key of a table whose default is the erased byte; extensionality goes by the first entries. The
canonical form (log 3) is the model's own representation. -/
theorem tablesStayCanonical : Obligations.TablesStayCanonical :=
  ⟨fun _ a v hw => ⟨wf_flashPut a v hw, get_set_same hw, fun _ hj => get_set_other hw hj⟩,
    fun _ _ ht hu => eq_of_get_eq ht hu⟩

end Sys2Proof.Machine
end

section
/-! The obligations of the mailbox chapter on frames: which are executed, and which are refused. -/
namespace Sys2Proof.Machine

/-! ### What admission makes of a frame (R466, R470 to R472, R476, R477, R481, R482) -/

/-- A frame that passes the checks made before its session's: of transport, port, VERSION, length and variant. -/
structure Heard (s : State) (op : Nat) (f : Frame) : Prop where
  fresh : s.mbx.resumed = none
  reached : s.reachable f op = true
  offCxl : f.xport ≠ .cxl
  version : f.xport = .sliceChan ∨ f.version = 4
  length : f.lenOk = true
  short : f.plen ≤ 4096
  anyModule : managerOnly op = false

/-- Over SMBus, or over I3C while SB_VIO is there, a frame reaches an ACTIVE module. -/
theorem bus_reachable {s : State} {f : Frame} {op : Nat} (hbus : f.xport = .smbus ∨ f.xport = .i3c ∧ s.svc.sbVio = true)
    (hup : s.glob.pstate = .active) : s.reachable f op = true := by
  rcases hbus with hx | ⟨hx, hvio⟩
  · simp [State.reachable, hx, hup]
  · simp [State.reachable, hx, hup, hvio]

/-- A frame over one of the two buses, whatever I3C needs to respond. -/
theorem smbus_or_i3c_of_bus {s : State} {f : Frame} (hbus : f.xport = .smbus ∨ f.xport = .i3c ∧ s.svc.sbVio = true) :
    f.xport = .smbus ∨ f.xport = .i3c := hbus.imp_right And.left

/-- A bus is no CXL mailbox. -/
theorem bus_ne_cxl {f : Frame} (hbus : f.xport = .smbus ∨ f.xport = .i3c) : f.xport ≠ .cxl := by
  rcases hbus with hx | hx <;> simp [hx]

/-- A VERSION 4 frame over a bus, of the right length and no manager's command, is heard. -/
theorem heard_of_bus {s : State} {f : Frame} {op : Nat} (hfresh : s.mbx.resumed = none)
    (hbus : f.xport = .smbus ∨ f.xport = .i3c ∧ s.svc.sbVio = true) (hup : s.glob.pstate = .active) (hversion : f.version = 4)
    (hlength : f.lenOk = true) (hshort : f.plen ≤ 4096) (hany : managerOnly op = false) : Heard s op f :=
  ⟨hfresh, bus_reachable hbus hup, bus_ne_cxl (smbus_or_i3c_of_bus hbus), .inr hversion, hlength, hshort, hany⟩

/-- A frame heard has a VERSION that is answered (R470). -/
theorem Heard.version_taken {s : State} {op : Nat} {f : Frame} (h : Heard s op f) :
    ¬ (f.xport ≠ .sliceChan ∧ op ≠ 0xC101 ∧ f.version ≠ 4 ∧ ¬ (0xD000 ≤ op ∧ f.version = 2)) :=
  fun ⟨hx, _, hne, _⟩ => h.version.elim hx hne

section
variable {s t : State} {op rc role sl : Nat} {f : Frame} {c : Instr}

/-- A frame heard is answered as its session's checks say. -/
theorem admission_of_answer (h : Heard s op f) (ha : s.authorise op f (s.macHolds op f) = .answer rc t) :
    s.admission op f c = .answer rc t := by
  simp only [State.admission, State.admitMac, h.fresh, h.reached, h.offCxl, h.version_taken, h.length, Nat.not_lt.mpr h.short,
    h.anyModule, ha]
  rfl

/-- A frame heard whose session's role may not issue its opcode is answered ROLE_DENIED (R477). -/
theorem admission_of_roleDenied (h : Heard s op f) (ha : s.authorise op f (s.macHolds op f) = .go role sl t)
    (hrole : roleMay role op = false) : s.admission op f c = .answer rcRole t := by
  simp only [State.admission, State.admitMac, h.fresh, h.reached, h.offCxl, h.version_taken, h.length, Nat.not_lt.mpr h.short,
    h.anyModule, ha, hrole]
  rfl

/-- A frame heard that its session's checks pass, for this module, whose group nothing holds, is admitted. -/
theorem admission_of_go (h : Heard s op f) (ha : s.authorise op f (s.macHolds op f) = .go role sl t)
    (hrole : roleMay role op = true) (hdest : t.destElse f = false) (hup : t.glob.pstate = .active)
    (hgroup : t.groupHeld (groupOf op) = false) (hwaiting : t.mbx.waiting = []) : s.admission op f c = .go role sl t := by
  have hrun : t.running = true := by simp [State.running, hup]
  simp only [State.admission, State.admitMac, h.fresh, h.reached, h.offCxl, h.version_taken, h.length, Nat.not_lt.mpr h.short,
    h.anyModule, ha, hrole, hdest, hrun, hgroup, hwaiting]
  rfl

/-- An admitted frame whose lock group is not locked executes (R490). -/
theorem executes_of_admitted (ha : s.admission op f c = .go role sl t) (hfree : (lockBit op).any t.locked = false) :
    s.executes op f c = some (role, sl, t) := by
  simp [State.executes, ha, hfree]

/-- A frame that admission answers is answered, whatever its command's own rule. -/
theorem commandR_of_answer {b : Body} (ha : s.admission op f c = .answer rc t) :
    commandR op f c b s = .next (t.reply f op rc []).settle := by
  simp [commandR, ha]

end

/-- The mark of a good MAC, for a session that is open. -/
theorem macHolds_of_session {s : State} {op : Nat} {f : Frame} {x : Session} (hx : s.session f.sid = some x) :
    s.macHolds op f = decide (f.mac = commandMac f op x.sk) := by
  simp [State.macHolds, hx]

section
variable {s : State} {op : Nat} {f : Frame} {ok : Bool} {x : Session}
variable (hbus : f.xport = .smbus ∨ f.xport = .i3c) (hsession : freeOps.contains op = false)
include hbus hsession

/-- Over a bus an opcode that needs a session goes by the session of the frame's SID; none is answered NO_SESSION (R476). -/
theorem authorise_noSession (hx : s.session f.sid = none) : s.authorise op f ok = .answer rcNoSession s := by
  have hneeds : op ∉ freeOps := by simpa using hsession
  rcases hbus with hp | hp <;> simp [State.authorise, hp, hneeds, hx]

section
variable (hx : s.session f.sid = some x) (hauth : x.authed = true) (hport : x.xport = f.xport) (hep : x.ep = f.ep)
include hx hauth hport hep

/-- A wrong MAC is answered BAD_MAC; the third closes the session (R482). -/
theorem authorise_badMac (hmac : ok = false) : s.authorise op f ok = .answer rcMac
    (if 2 ≤ x.badMacs then s.dropSession f.sid else s.modSession f.sid (fun y => { y with badMacs := y.badMacs + 1 })) := by
  have hneeds : op ∉ freeOps := by simpa using hsession
  rcases hbus with hp | hp <;> simp [State.authorise, hp, hneeds, hx, hauth, hport, hep, endpointOf, hmac]

/-- A SEQ that is not the next one is answered SEQ_ERROR (R481). -/
theorem authorise_badSeq (hmac : ok = true) (hseq : f.seq ≠ x.seqNext) : s.authorise op f ok = .answer rcSeq s := by
  have hneeds : op ∉ freeOps := by simpa using hsession
  rcases hbus with hp | hp <;> simp [State.authorise, hp, hneeds, hx, hauth, hport, hep, endpointOf, hmac, hseq]

/-- The next SEQ with a good MAC goes on in the session's role and slice, the expected SEQ moved on (R481). -/
theorem authorise_nextSeq (hmac : ok = true) (hseq : f.seq = x.seqNext) : s.authorise op f ok = .go x.role x.slice
    (s.modSession f.sid (fun y => { y with seqNext := y.seqNext + 1, lastAt := s.now })) := by
  have hneeds : op ∉ freeOps := by simpa using hsession
  rcases hbus with hp | hp <;> simp [State.authorise, hp, hneeds, hx, hauth, hport, hep, endpointOf, hmac, hseq]

end
end

/-- The opcodes of the tenant set are no CLOSE_SESSION, open to a TENANT, and neither the manager's nor of a lock group. -/
theorem tenantOp_plain {op : Nat} (h : tenantOps.contains op = true) :
    op ≠ 0xC003 ∧ roleMay 4 op = true ∧ managerOnly op = false ∧ lockBit op = none := by
  have hall : ∀ o ∈ tenantOps, o ≠ 0xC003 ∧ roleMay 4 o = true ∧ managerOnly o = false ∧ lockBit o = none := by decide
  exact hall op (by simpa using h)

/-- Settles O51: over a bus the session's checks pass one after another; a tenant's command and a forwarded frame pass the
check of the channel or of P0's frame instead. -/
theorem framesAdmitted : Obligations.FramesAdmitted := by
  unfold Obligations.FramesAdmitted
  refine ⟨?bus, ?tenant, ?forwarded⟩
  case bus =>
    intro op f c s x hfresh hbus hup hversion hlength hshort hany hsession hx hauth hport hep hmac hseq hrole hdest hgroup
      hwaiting hfree
    have hheard : Heard s op f := heard_of_bus hfresh hbus hup hversion hlength hshort hany
    have hgood : s.macHolds op f = true := (macHolds_of_session hx).trans (decide_eq_true hmac)
    have hgo := authorise_nextSeq (smbus_or_i3c_of_bus hbus) hsession hx hauth hport hep hgood hseq
    have hhere : s.destElse f = false := by simp [State.destElse, hdest]
    exact executes_of_admitted (admission_of_go hheard hgo hrole hhere hup hgroup hwaiting) hfree
  case tenant =>
    intro op f c s x k hfresh hchannel hup hslice hchan hhead hlength hshort htenant hgroup hwaiting
    obtain ⟨hclose, hrole, hany, hlock⟩ := tenantOp_plain htenant
    have hheard : Heard s op f :=
      ⟨hfresh, by simp [State.reachable, hchannel, hup, hslice, hchan, hhead], by simp [hchannel], .inl hchannel, hlength,
        hshort, hany⟩
    have hgo : s.authorise op f (s.macHolds op f) = .go 4 f.slice s := by simp [State.authorise, hchannel, hclose]
    have hhere : s.destElse f = false := by simp [State.destElse, hchannel]
    exact executes_of_admitted (admission_of_go hheard hgo hrole hhere hup hgroup hwaiting) (by simp [hlock])
  case forwarded =>
    intro op f c s hfresh htrunk hup hframe hversion hlength hshort hany hrole hgroup hwaiting hfree
    have hheard : Heard s op f :=
      ⟨hfresh, by simp [State.reachable, htrunk, hup, hframe], by simp [htrunk], .inr hversion, hlength, hshort, hany⟩
    have hgo : s.authorise op f (s.macHolds op f) = .go f.fwdRole f.slice { s with mbx := { s.mbx with trunkFrame := none } } := by
      simp [State.authorise, htrunk]
    have hhere : State.destElse { s with mbx := { s.mbx with trunkFrame := none } } f = false := by
      simp [State.destElse, htrunk]
    exact executes_of_admitted (admission_of_go hheard hgo hrole hhere hup hgroup hwaiting) hfree

/-- Settles O52: VERSION and length are tested before anything of the session, then the session's own checks one after another;
that order (log 12) is the model's choice. -/
theorem framesRefused : Obligations.FramesRefused := by
  unfold Obligations.FramesRefused
  refine ⟨?version, ?length, ?noSession, ?badMac, ?thirdMac, ?badSeq, ?role⟩
  case version =>
    intro op f c b s hfresh hbus hup hidentify hnew hversion
    refine commandR_of_answer ?_
    have hchannel : f.xport ≠ .sliceChan := by rcases smbus_or_i3c_of_bus hbus with hx | hx <;> simp [hx]
    have hlow : ¬ 0xD000 ≤ op := Nat.not_le.mpr hnew
    simp [State.admission, State.admitMac, hfresh, bus_reachable hbus hup, bus_ne_cxl (smbus_or_i3c_of_bus hbus), hchannel,
      hidentify, hversion, hlow]
  case length =>
    intro op f c b s hfresh hbus hup hversion hlength
    refine commandR_of_answer ?_
    rcases hlength with hbad | hbad <;>
      simp [State.admission, State.admitMac, hfresh, bus_reachable hbus hup, bus_ne_cxl (smbus_or_i3c_of_bus hbus), hversion, hbad]
  case noSession =>
    intro op f c b s hfresh hbus hup hversion hlength hshort hany hsession hx
    exact commandR_of_answer (admission_of_answer (heard_of_bus hfresh hbus hup hversion hlength hshort hany)
      (authorise_noSession (smbus_or_i3c_of_bus hbus) hsession hx))
  case badMac =>
    intro op f c b s x hfresh hbus hup hversion hlength hshort hany hsession hx hauth hport hep hmac hcount
    have hbad : s.macHolds op f = false := (macHolds_of_session hx).trans (decide_eq_false hmac)
    have hauthorise := authorise_badMac (smbus_or_i3c_of_bus hbus) hsession hx hauth hport hep hbad
    rw [if_neg (Nat.not_le.mpr hcount)] at hauthorise
    exact commandR_of_answer (admission_of_answer (heard_of_bus hfresh hbus hup hversion hlength hshort hany) hauthorise)
  case thirdMac =>
    intro op f c b s x hfresh hbus hup hversion hlength hshort hany hsession hx hauth hport hep hmac hcount
    have hbad : s.macHolds op f = false := (macHolds_of_session hx).trans (decide_eq_false hmac)
    have hauthorise := authorise_badMac (smbus_or_i3c_of_bus hbus) hsession hx hauth hport hep hbad
    rw [if_pos hcount] at hauthorise
    exact commandR_of_answer (admission_of_answer (heard_of_bus hfresh hbus hup hversion hlength hshort hany) hauthorise)
  case badSeq =>
    intro op f c b s x hfresh hbus hup hversion hlength hshort hany hsession hx hauth hport hep hmac hseq
    have hgood : s.macHolds op f = true := (macHolds_of_session hx).trans (decide_eq_true hmac)
    exact commandR_of_answer (admission_of_answer (heard_of_bus hfresh hbus hup hversion hlength hshort hany)
      (authorise_badSeq (smbus_or_i3c_of_bus hbus) hsession hx hauth hport hep hgood hseq))
  case role =>
    intro op f c b s x hfresh hbus hup hversion hlength hshort hany hsession hx hauth hport hep hmac hseq hrole
    have hgood : s.macHolds op f = true := (macHolds_of_session hx).trans (decide_eq_true hmac)
    exact commandR_of_answer (admission_of_roleDenied (heard_of_bus hfresh hbus hup hversion hlength hshort hany)
      (authorise_nextSeq (smbus_or_i3c_of_bus hbus) hsession hx hauth hport hep hgood hseq) hrole)

end Sys2Proof.Machine
end

section
/-! The obligations of the mailbox chapter on its commands: locks, sessions and keys, firmware banks. -/
namespace Sys2Proof.Machine

/-! ### MODULE_LOCK and the commands a lock group holds (R490) -/

/-- A command of a lock group, admitted while the group's bit is set, is answered LOCKED. -/
theorem heldBy_of_command {g op : Nat} {f : Frame} {c : Instr} {guard : State → Option Nat}
    {run : State → State × Nat × List Nat} (hexec : ∀ s, exec c s = command op f c guard run s)
    (hgroup : lockBit op = some g) : HeldBy g op f c := by
  intro s role sl s1 hadmitted hlocked
  rw [hexec, command, commandR, hadmitted]
  simp [execBody, hgroup, hlocked]

/-- After MODULE_LOCK a lock bit is set where it was before or the payload names it. -/
theorem locked_of_lockSet (s : State) (mask : Nat) {g : Nat} (hg : g < 5) :
    ({ s with glob := { s.glob with lock := Tri.all (s.glob.lock.maj ||| BitVec.ofNat 64 (mask % 32)) } } : State).locked g
      = (s.locked g || bit mask g) := by
  have hfits : mask % 2 ^ 5 % 2 ^ 64 = mask % 2 ^ 5 := Nat.mod_eq_of_lt ((Nat.mod_lt _ (by decide)).trans (by decide))
  simp only [State.locked, maj_all, bit_eq_testBit, BitVec.toNat_or, BitVec.toNat_ofNat, Nat.testBit_or]
  rw [show mask % 32 = mask % 2 ^ 5 from rfl, hfits, Nat.testBit_mod_two_pow, decide_eq_true hg, Bool.true_and]

/-- Settles O53: MODULE_LOCK has no guard; a command of a lock group is answered before its own rule; PORT_MAP_COMMIT meets
the CLOCK bit in its own guard, once the map has passed. That the map is checked first (log 12) is the model's choice. -/
theorem lockGroups : Obligations.LockGroups := by
  unfold Obligations.LockGroups
  refine ⟨fun f mask => ?set, fun s mask g hg => locked_of_lockSet s mask hg, fun f x y => ?_, fun f a b c => ?_, fun f n x => ?_,
    fun f d i x => ?_, fun f t => ?_, fun f r k => ?_, fun f r k => ?_, fun f k => ?_, fun f z => ?_, fun f l => ?_,
    fun f a b c d => ?_, fun f n => ?_, fun f i => ?_, fun f i => ?_, fun f t => ?_, fun f t => ?_, ?clock⟩
  case set => exact answers_of_command (fun _ => rfl) (fun _ _ _ _ => rfl) (fun _ _ _ _ => rfl)
  case clock =>
    intro f m s role sl s1 g hexecutes hlocked hlength hok hchanged hdiffers
    refine commandR_refused hexecutes ?_
    have hclock : (mapDiff s1.ports.map (mapOf m)).any (fun g =>
        bits (mapEntry (mapOf m) g) 29 28 != bits (mapEntry s1.ports.map g) 29 28
          || bits (mapEntry (mapOf m) g) 23 22 != bits (mapEntry s1.ports.map g) 23 22) = true :=
      List.any_eq_true.mpr ⟨g, hchanged, by simpa using hdiffers⟩
    simp only [checks_cons, hlength, hok, hlocked, hclock]
    rfl
  all_goals exact heldBy_of_command (fun _ => rfl) rfl

/-! ### Sessions, keys and lockouts (R478 to R480, R483, R484) -/

/-- A role that exists passes the check of its number. -/
theorem role_passes {role : Nat} (hlo : 1 ≤ role) (hhi : role ≤ 4) : ¬ (role = 0 ∨ 4 < role) := by omega

/-- Settles O1: OPEN_SESSION and SESSION_AUTH pass their guards by the session's own conditions, and the proof of SESSION_AUTH
splits on whether it is the one of R479. -/
theorem sessionsOpen : Obligations.SessionsOpen := by
  unfold Obligations.SessionsOpen
  refine ⟨?opens, ?proved, ?failed, ?expiry⟩
  case opens =>
    exact fun f role slice ksrc nc => answers_of_command (fun _ => rfl)
      (fun _ _ s ⟨hlo, hhi, hksrc, htenant, hfree, hroom⟩ => by
        have hrole : (role == 0) = false := beq_eq_false_iff_ne.mpr (by omega)
        have hslice : (role == 4 && (s.slice slice).isNone) = false := by
          by_cases h4 : role = 4
          · simp [htenant h4]
          · simp [h4]
        simp only [checks_cons, checks_nil, hrole, decide_eq_false (Nat.not_lt.mpr hhi), decide_eq_false (Nat.not_lt.mpr hksrc),
          hslice, hfree, decide_eq_false (Nat.not_le.mpr hroom)]
        rfl)
      (fun _ _ _ _ => rfl)
  case proved =>
    exact fun f sid proof x => answers_of_command (fun _ => rfl)
      (fun _ _ s ⟨hsession, hnew, hport, hep, _⟩ => by simp [hsession, hnew, hport, hep])
      (fun _ _ s ⟨hsession, _, _, _, hproof⟩ => by simp only [hsession, if_pos hproof])
  case failed =>
    exact fun f sid proof x => answers_of_command (fun _ => rfl)
      (fun _ _ s ⟨hsession, hnew, hport, hep, _⟩ => by simp [hsession, hnew, hport, hep])
      (fun _ _ s ⟨hsession, _, _, _, hproof⟩ => by
        simp only [hsession, if_neg hproof, State.authFailed]
        split <;> rfl)
  case expiry =>
    exact fun role => occurs_of_evt (fun _ => rfl) (fun _ hlocked => hlocked) (fun _ _ => rfl)

/-- Settles O2: CLOSE_SESSION asks for its own session or an ADMIN; the two timeouts split on whether the session was ever
authenticated; the settings pass by their ranges. -/
theorem sessionsEndAndKeys : Obligations.SessionsEndAndKeys := by
  unfold Obligations.SessionsEndAndKeys
  refine ⟨?close, ?idle, ?never, ?list, ?key, ?password, ?idleTime⟩
  case close =>
    exact fun f sid => answers_of_commandR (fun _ => rfl)
      (fun role _ s ⟨hmay, hsession⟩ => by
        have hrole : (sid != f.sid && role != 1) = false := by rcases hmay with h | h <;> simp [h]
        simp [hrole, Option.isSome_iff_ne_none.mp hsession])
      (fun _ _ _ _ => rfl)
  case idle =>
    exact fun sid x => occurs_of_evt (fun _ => rfl)
      (fun s ⟨hsession, hauth⟩ => by simp only [hsession, hauth]) (fun _ _ => rfl)
  case never =>
    exact fun sid x => occurs_of_evt (fun _ => rfl)
      (fun s ⟨hsession, hnew⟩ => by simp only [hsession, hnew]; rfl) (fun _ _ => rfl)
  case list => exact fun f => answers_of_query (fun _ => rfl) (fun _ _ _ _ => rfl)
  case key | password =>
    exact fun f role key => answers_of_command (fun _ => rfl)
      (fun _ _ _ ⟨hlo, hhi⟩ => if_neg (role_passes hlo hhi)) (fun _ _ _ _ => rfl)
  case idleTime =>
    exact fun f role secs => answers_of_command (fun _ => rfl)
      (fun _ _ _ ⟨_, _, _, _⟩ => if_neg (by omega)) (fun _ _ _ _ => rfl)

/-! ### Firmware banks (R499 to R501) -/

/-- FW_TRANSFER takes 1 to 4,032 bytes that fit the bank. -/
theorem transferSize_passes {off : Nat} {data : List Byte} (hsome : data ≠ []) (hmax : data.length ≤ 4032)
    (hfits : off + data.length ≤ 0x1800000) :
    (data.isEmpty || decide (4032 < data.length) || decide (0x1800000 < off + data.length)) = false := by
  simp [hsome, hmax, hfits]

/-- Settles O33: a transfer splits on whether it starts at offset 0, FW_ACTIVATE on whether bank 0 is STAGED; each guard passes by
the operation, sizes and bank states that the conditions name. That RESET_NOW leaves the retry count (log 89) is the model's
choice. -/
theorem firmware : Obligations.Firmware := by
  unfold Obligations.Firmware
  refine ⟨?info, ?first, ?next, ?verify, ?verified, ?activate0, ?activate1, ?resetNow⟩
  case info => exact fun f => answers_of_query (fun _ => rfl) (fun _ _ _ _ => rfl)
  case first =>
    exact fun f data => answers_of_command (fun _ => rfl)
      (fun _ _ s ⟨hidle, hsome, hmax⟩ => by
        simp only [checks_cons, checks_nil, hidle, transferSize_passes (off := 0) hsome hmax (by omega)]
        rfl)
      (fun _ _ _ _ => rfl)
  case next =>
    exact fun f off data => answers_of_command (fun _ => rfl)
      (fun _ _ s ⟨hidle, hsome, hmax, hfits, _, hstaging, hsize⟩ => by
        simp [hidle, transferSize_passes hsome hmax hfits, hstaging, hsize])
      (fun _ _ s ⟨_, _, _, _, hpos, _, _⟩ => by simp only [if_neg (Nat.ne_of_gt hpos)])
  case verify =>
    exact fun f => answers_of_command (fun _ => rfl)
      (fun _ _ s ⟨hidle, hstaging⟩ => by simp only [checks_cons, checks_nil, hidle, hstaging]; rfl) (fun _ _ _ _ => rfl)
  case verified => exact occurs_of_evt (fun _ => rfl) (fun _ hruns => hruns) (fun _ _ => rfl)
  case activate0 | resetNow =>
    exact fun f => answers_of_command (fun _ => rfl) (fun _ _ _ hstaged => if_pos (.inl hstaged))
      (fun _ _ s hstaged => by simp only [if_pos hstaged]; rfl)
  case activate1 =>
    exact fun f => answers_of_command (fun _ => rfl) (fun _ _ _ ⟨_, hstaged⟩ => if_pos (.inr hstaged))
      (fun _ _ s ⟨hother, _⟩ => by simp only [if_neg hother]; rfl)

end Sys2Proof.Machine
end

section
/-! The obligations of the registers and counters chapter: sequence clear, counters and the performance monitor. -/
namespace Sys2Proof.Machine

/-! ### Sequence-clear registers (R515, R516) -/

/-- An event bit of a sequence-clear register was set within the last `n` steps of SEQ. -/
def Sqc.young (q : Sqc) (n b : Nat) : Bool := q.ages.any (fun e => e.1 == b && decide (e.2 < n))

/-- A key is listed where some entry has it. -/
theorem find_isSome {α : Type} (t : Tbl α) (k : Nat) : (Tbl.find t k).isSome = t.any (fun e => e.1 == k) := by
  induction t with
  | nil => rfl
  | cons e r ih =>
    obtain ⟨i, a⟩ := e
    by_cases h : i = k <;> simp [Tbl.find, h, ih]

/-- What a write of a SEQ value leaves is what was set since that value. -/
theorem Sqc.has_clear (q : Sqc) (w : BitVec 8) (b : Nat) : (q.clear w).has b = q.young (q.seq - w).toNat b := by
  simp [Sqc.has, Sqc.clear, Sqc.young, find_isSome, Bool.and_comm]

/-- Nothing is younger than 0 steps. -/
@[simp] theorem Sqc.young_zero (q : Sqc) (b : Nat) : q.young 0 b = false := by simp [Sqc.young]

/-- After a value that meets a test is put, the entries that meet it are at its key and where they were. -/
theorem any_put {α : Type} {p : α → Bool} {v : α} (hv : p v = true) (t : Tbl α) (k b : Nat) :
    (Tbl.put t k v).any (fun e => e.1 == b && p e.2) = (k == b || t.any (fun e => e.1 == b && p e.2)) := by
  induction t with
  | nil => simp [Tbl.put, hv]
  | cons e r ih =>
    obtain ⟨i, a⟩ := e
    unfold Tbl.put
    split
    · simp [hv]
    · split
      · rename_i heq
        cases hb : k == b <;> simp [heq, hv, hb]
      · rw [List.any_cons, ih, List.any_cons, Bool.or_left_comm]

/-- A new event is the youngest, and every other event is one step older. -/
theorem Sqc.young_raise (q : Sqc) {n : Nat} (k b : Nat) (v m : Reg32) (hn : n < 255) :
    (q.raise k v m).young (n + 1) b = (k == b || q.young n b) := by
  have hage : ∀ a : Nat, min 255 (a + 1) < n + 1 ↔ a < n := fun a => by omega
  simp only [Sqc.young, Sqc.raise]
  rw [any_put (p := fun a => decide (a < n + 1)) (decide_eq_true n.succ_pos)]
  simp only [List.any_map, Function.comp_def, hage]

/-- The register after a list of events. -/
abbrev Sqc.raises (q : Sqc) (l : List (Nat × Reg32 × Reg32)) : Sqc := l.foldl (fun q e => q.raise e.1 e.2.1 e.2.2) q

/-- Of the events of the last steps, those are young that came in the list or were young before it. -/
theorem Sqc.young_raises (q : Sqc) (l : List (Nat × Reg32 × Reg32)) (n b : Nat) (hl : n + l.length ≤ 255) :
    (q.raises l).young (n + l.length) b = (l.any (fun e => e.1 == b) || q.young n b) := by
  induction l generalizing q n with
  | nil => simp
  | cons e r ih =>
    have hlen : n + (e :: r).length = n + 1 + r.length := by simp only [List.length_cons]; omega
    rw [hlen] at hl ⊢
    rw [Sqc.raises, List.foldl_cons, ih _ _ hl, Sqc.young_raise q _ b _ _ (by omega), List.any_cons, ← Bool.or_assoc,
      Bool.or_comm (r.any _)]

/-- SEQ counts the events. -/
theorem Sqc.seq_raises (q : Sqc) (l : List (Nat × Reg32 × Reg32)) : (q.raises l).seq = q.seq + BitVec.ofNat 8 l.length := by
  induction l generalizing q with
  | nil => simp
  | cons e r ih =>
    rw [Sqc.raises, List.foldl_cons, ih]
    simp only [Sqc.raise, List.length_cons]
    bv_omega

/-- After up to 255 events, the SEQ value read before them is as many steps back. -/
theorem Sqc.steps_raises (q : Sqc) {l : List (Nat × Reg32 × Reg32)} (hl : l.length ≤ 255) :
    ((q.raises l).seq - q.seq).toNat = l.length := by
  rw [Sqc.seq_raises]
  bv_omega

/-- A write of the SEQ value read before up to 255 events leaves exactly those events. -/
theorem Sqc.has_raises_clear (q : Sqc) {l : List (Nat × Reg32 × Reg32)} (b : Nat) (hl : l.length ≤ 255) :
    ((q.raises l).clear q.seq).has b = l.any (fun e => e.1 == b) := by
  have hyoung := Sqc.young_raises q l 0 b (by omega)
  rw [Nat.zero_add] at hyoung
  rw [Sqc.has_clear, Sqc.steps_raises q hl, hyoung, Sqc.young_zero, Bool.or_false]

/-- While an event bit is left, the value fields stay. -/
theorem Sqc.val_clear_of_has {q : Sqc} {w : BitVec 8} {b : Nat} (h : (q.clear w).has b = true) : (q.clear w).val = q.val := by
  refine if_neg fun hnil => ?_
  rw [Sqc.has_of_ages_nil b hnil] at h
  cases h

/-- A write of the current SEQ leaves no event. -/
theorem Sqc.ages_clear_seq (q : Sqc) : (q.clear q.seq).ages = [] := by simp [Sqc.clear]

/-- Settles O55: what is left of a write is what came in the steps of SEQ since the value written. -/
theorem sequenceClear : Obligations.SequenceClear := by
  unfold Obligations.SequenceClear
  refine ⟨?later, ?values, ?current, ?raised⟩
  case later => exact fun q l b hl => q.has_raises_clear b hl
  case values =>
    intro q l hl hsome
    obtain ⟨e, he⟩ := List.exists_mem_of_ne_nil l hsome
    refine Sqc.val_clear_of_has (b := e.1) ((q.has_raises_clear e.1 hl).trans ?_)
    exact List.any_eq_true.mpr ⟨e, he, beq_self_eq_true e.1⟩
  case current =>
    exact fun q b => ⟨Sqc.has_of_ages_nil b q.ages_clear_seq, if_pos q.ages_clear_seq, rfl⟩
  case raised =>
    refine fun q w b v m => ⟨?_, rfl⟩
    rw [Sqc.has, Sqc.raise, find_put, if_pos rfl, Option.isSome_some]

/-! ### Counters (R526, R527) -/

/-- A counter wraps at 48 bits. -/
theorem Cnt.count_add (c : Cnt) (n : Nat) : (c.add n).count.toNat = (c.count.toNat + n) % 2 ^ 48 := by
  simp [Cnt.add, BitVec.toNat_add]

/-- Bit 63 of a value above a field of 48 bits. -/
theorem bit_of_field_below {b : Bool} {n : Nat} (h : n < 2 ^ 48) : bit (b2n b * 2 ^ 63 + n) 63 = b := by
  have hdiv : (b2n b * 2 ^ 63 + n) / 2 ^ 63 = b2n b := by omega
  rw [bit, hdiv]
  cases b <;> rfl

/-- Settles O57: COUNT is a sum modulo 2^48, and OVF stands above it in the value read. -/
theorem countersWrap : Obligations.CountersWrap := by
  unfold Obligations.CountersWrap
  refine ⟨fun c n => ⟨c.count_add n, rfl⟩, fun c n m => ⟨?twice, ?sticks⟩, fun c => ⟨?ovf, ?count⟩⟩
  case twice =>
    apply BitVec.eq_of_toNat_eq
    simp only [Cnt.count_add]
    omega
  case sticks =>
    intro hovf
    simp [Cnt.add, hovf]
  case ovf => exact bit_of_field_below c.count.isLt
  case count =>
    have hlt := c.count.isLt
    rw [Cnt.read]
    omega

/-! ### Counters and samplers (R520, R524, R527, R529 to R537) -/

/-- PERF_CNT_SET takes a valid selector for a counter that exists, with a preload of 48 bits. -/
theorem perfCntSet_passes {s : State} {g : Bool} {p i sel : Nat} {preload : Option Nat} (hnamed : s.perfNamed g p i = none)
    (hsel : s.selOk g p sel = true) (hpre : preload.any (fun n => decide (2 ^ 48 ≤ n)) = false) :
    ((s.perfNamed g p i).orElse fun _ => checks [(! s.selOk g p sel || preload.any (fun n => decide (2 ^ 48 ≤ n)), rcParam)]) = none := by
  simp only [hnamed, Option.orElse_none, checks_cons, checks_nil, hsel, hpre]
  rfl

/-- PERF_SAMPLE_SET takes a setting in range for a sampler that is not enabled, or that has this setting. -/
theorem perfSampleSet_passes {s : State} {i : Nat} {c : List Nat} (hi : i ≤ 3) (hlen : c.length = 12) (hok : (smpOf c).ok = true)
    (hsame : ((Tbl.get ({} : Sampler) s.perf.smp i).en && (smpOf c).setting != (Tbl.get ({} : Sampler) s.perf.smp i).setting) = false) :
    checks [(decide (3 < i) || c.length != 12 || ! (smpOf c).ok, rcParam),
      ((Tbl.get ({} : Sampler) s.perf.smp i).en && (smpOf c).setting != (Tbl.get ({} : Sampler) s.perf.smp i).setting, rcBusy)] = none := by
  simp [hi, hlen, hok, hsame]

/-- A completed transaction of a sampler that exists can be recorded. -/
theorem sampleRecord_occurs {s : State} {i : Nat} {t : SampSel} {r : List SampSel} (hrun : s.running = true) (hi : i < 4)
    (hended : (Tbl.get ({} : Sampler) s.perf.smp i).ended = t :: r) :
    (s.running && decide (i < 4) && ! (Tbl.get ({} : Sampler) s.perf.smp i).ended.isEmpty) = true := by
  simp [hrun, hi, hended]

/-- An overflow message that waits for no earlier one is due. -/
theorem overflowMessage_occurs {s : State} (hrun : s.running = true) (hpend : s.perf.ovfPend = true) (hlast : s.perf.ovfLast = none) :
    (s.running && s.perf.ovfPend && s.perf.ovfLast.all (fun t => decide (t + usTicks 1 ≤ s.now))) = true := by
  rw [hrun, hpend, hlast]
  rfl

/-- Settles O32: each guard passes by the counter, selector or setting that the conditions name; PERF_SAMPLE_SET splits on whether
the sampler is enabled, a completed transaction on whether its ring has room, and the overflow message on OVF. That FREEZE acts at
once (log 74) and that EN starts the ring anew (log 69) are the model's choice. -/
theorem perfMonitor : Obligations.PerfMonitor := by
  unfold Obligations.PerfMonitor
  refine ⟨?select, ?preload, ?getGlobal, ?getPort, ?overflow, ?sampleStart, ?sampleSame, ?freeze, ?clear, ?head, ?written, ?lost,
    ?sent, ?dropped⟩
  case select =>
    exact fun f g p i sel => answers_of_command (fun _ => rfl)
      (fun _ _ _ ⟨hnamed, hsel⟩ => perfCntSet_passes hnamed hsel rfl)
      (fun _ _ _ _ => by simp only [Option.map_none, Option.getD_none, Bool.not_false, Bool.and_true])
  case preload =>
    exact fun f g p i sel n => answers_of_command (fun _ => rfl)
      (fun _ _ _ ⟨hnamed, hsel, hn⟩ => perfCntSet_passes hnamed hsel (decide_eq_false (Nat.not_le.mpr hn)))
      (fun _ _ _ _ => by simp only [Option.map_some, Option.getD_some, Bool.not_true, Bool.and_false])
  case getGlobal =>
    exact fun f p i => answers_of_query (fun _ => rfl) (fun _ _ _ hi => if_neg (Nat.not_lt.mpr hi))
  case getPort =>
    exact fun f p i => answers_of_query (fun _ => rfl)
      (fun _ _ s ⟨hi, hp, hport⟩ => by simp [State.perfNamed, hi, hp, hport])
  case overflow =>
    exact fun f en v => answers_of_command (fun _ => rfl) (fun _ _ _ hv => if_neg (Nat.not_lt.mpr hv)) (fun _ _ _ _ => rfl)
  case sampleStart =>
    exact fun f i c => answers_of_command (fun _ => rfl)
      (fun _ _ _ ⟨hi, hlen, hok, hidle, _⟩ => perfSampleSet_passes hi hlen hok (by rw [hidle, Bool.false_and]))
      (fun _ _ _ ⟨_, _, _, hidle, hen⟩ => by simp only [hidle, hen, Bool.false_eq_true, if_true, if_false])
  case sampleSame =>
    exact fun f i c => answers_of_command (fun _ => rfl)
      (fun _ _ _ ⟨hi, hlen, hok, _, hsame⟩ => perfSampleSet_passes hi hlen hok (by rw [hsame, bne_self_eq_false, Bool.and_false]))
      (fun _ _ _ ⟨_, _, _, hen, _⟩ => by simp only [hen, if_true])
  case freeze => exact fun b => occurs_of_evt (fun _ => rfl) (fun _ hrun => hrun) (fun _ _ => rfl)
  case clear => exact occurs_of_evt (fun _ => rfl) (fun _ hrun => hrun) (fun _ _ => rfl)
  case head =>
    exact fun i h => occurs_of_evt (fun _ => rfl)
      (fun _ ⟨hrun, hi, _⟩ => Bool.and_eq_true_iff.mpr ⟨hrun, decide_eq_true hi⟩)
      (fun _ ⟨_, _, hh⟩ => by rw [Nat.mod_eq_of_lt hh])
  case written =>
    exact fun i ns t r => occurs_of_evt (fun _ => rfl)
      (fun _ ⟨hrun, hi, hended, _⟩ => sampleRecord_occurs hrun hi hended)
      (fun _ ⟨_, _, hended, hroom⟩ => by simp only [hended, if_neg (Nat.not_le.mpr hroom)])
  case lost =>
    exact fun i ns t r => occurs_of_evt (fun _ => rfl)
      (fun _ ⟨hrun, hi, hended, _⟩ => sampleRecord_occurs hrun hi hended)
      (fun _ ⟨_, _, hended, hfull⟩ => by simp only [hended, if_pos hfull])
  case sent =>
    exact occurs_of_evt (fun _ => rfl) (fun _ ⟨hrun, hpend, hlast, _⟩ => overflowMessage_occurs hrun hpend hlast)
      (fun _ ⟨_, _, _, hovf, hen⟩ => if_pos ⟨hovf, hen⟩)
  case dropped =>
    exact occurs_of_evt (fun _ => rfl) (fun _ ⟨hrun, hpend, hlast, _⟩ => overflowMessage_occurs hrun hpend hlast)
      (fun _ ⟨_, _, _, hovf⟩ => if_neg fun ⟨hset, _⟩ => by simp [hovf] at hset)

end Sys2Proof.Machine
end

section
/-! The obligations of the fault collection chapter: the FAULT commands and the reports of the collector tree. -/
namespace Sys2Proof.Machine

/-! ### FAULT commands and reports (R542 to R571) -/

/-- Settles O27: each guard passes by the ranges, the reaction or the location that the conditions name, and ALIVE_SET splits on
whether ALIVE runs. That SCRUB_CORR counts the reports of code 0x0004 (log 65), and that a wire's source gives its plane modulo 4,
are the model's choice. -/
theorem faultCommands : Obligations.FaultCommands := by
  unfold Obligations.FaultCommands
  refine ⟨?logGet, ?status, ?classSet, ?classDel, ?codeDel, ?codeSet, ?dryrun, ?logClear, ?aliveRuns, ?aliveStopped, ?report, ?wire,
    ?close⟩
  case logGet =>
    exact fun f q n => answers_of_query (fun _ => rfl) (fun _ _ _ ⟨hpos, hmax⟩ => if_neg (by omega))
  case status => exact fun f => answers_of_query (fun _ => rfl) (fun _ _ _ _ => rfl)
  case classSet =>
    exact fun f c pat a irq i => answers_of_command (fun _ => rfl)
      (fun _ _ _ hok => (if_pos rfl).trans (if_pos (.inr hok))) (fun _ _ _ _ => rfl)
  case classDel =>
    exact fun f c pat a irq i => answers_of_command (fun _ => rfl)
      (fun _ _ _ hc => (if_pos rfl).trans (if_pos (.inl ⟨rfl, hc⟩))) (fun _ _ _ _ => rfl)
  case codeDel =>
    exact fun f c pat a irq i => answers_of_command (fun _ => rfl) (fun _ _ _ hlisted => if_pos hlisted) (fun _ _ _ _ => rfl)
  case codeSet =>
    exact fun f c pat a irq i k => answers_of_command (fun _ => rfl)
      (fun _ _ s ⟨hcode, hclass, hloc, hi, hok⟩ => by simp [checks_cons, hcode, hclass, hloc, Nat.not_lt.mpr hi, hok])
      (fun _ _ _ _ => rfl)
  case dryrun =>
    exact fun f c l => answers_of_query (fun _ => rfl)
      (fun _ _ s ⟨hc, hloc⟩ => by simp [hloc, Nat.not_lt.mpr hc])
  case logClear => exact fun f => answers_of_command (fun _ => rfl) (fun _ _ _ _ => rfl) (fun _ _ _ _ => rfl)
  case aliveRuns =>
    exact fun f hz => answers_of_command (fun _ => rfl) (fun _ _ _ ⟨hlo, hhi, _⟩ => if_neg (by omega))
      (fun _ _ _ ⟨_, _, halive⟩ => by simp only [if_pos halive])
  case aliveStopped =>
    exact fun f hz => answers_of_command (fun _ => rfl) (fun _ _ _ ⟨hlo, hhi, _⟩ => if_neg (by omega))
      (fun _ _ _ ⟨_, _, hstopped⟩ => by simp only [hstopped, Bool.false_eq_true, if_false])
  case report =>
    exact fun c l d p => occurs_of_evt (fun _ => rfl)
      (fun _ ⟨hcode, hloc, hon⟩ => by rw [hcode, hloc, bne_iff_ne.mpr hon]; rfl) (fun _ _ => rfl)
  case wire =>
    exact fun l x => occurs_of_evt (fun _ => rfl)
      (fun _ ⟨hloc, hon⟩ => Bool.and_eq_true_iff.mpr ⟨hloc, bne_iff_ne.mpr hon⟩) (fun _ _ => rfl)
  case close => exact fun l => occurs_of_evt (fun _ => rfl) (fun _ hopen => hopen) (fun _ _ => rfl)

end Sys2Proof.Machine
end

section
/-! The obligations of the power entry chapter: the POWER and thermal commands, the Sill, brownout, flushes, metering and start-up. -/
namespace Sys2Proof.Machine

/-! ### POWER and thermal commands (R583, R601 to R612, R638, R640) -/

/-- From READY or ACTIVE, POWER_STATE_SET takes each of its three targets, and one below ACTIVE where nothing is in use (R603). -/
theorem powerStateSet_passes {s : State} {t : Nat} (ht : t = 1 ∨ t = 2 ∨ t = 3) (hup : s.glob.pstate = .ready ∨ s.glob.pstate = .active)
    (hfree : t = 3 ∨ s.inUse = false) :
    checks [(! [1, 2, 3].contains t, rcParam), (s.glob.pstate == .brownout, rcBusy), (t != 3 && s.running && s.inUse, rcBusy),
      (t != 1 && s.glob.pstate == .standby && (s.sill.state != .on || ! s.sill.selfTest), rcNotReady)] = none := by
  have htarget : ([1, 2, 3].contains t) = true := by rcases ht with rfl | rfl | rfl <;> rfl
  have huse : (t != 3 && s.running && s.inUse) = false := by rcases hfree with rfl | h <;> simp [*]
  simp only [checks_cons, checks_nil, htarget, huse]
  rcases hup with h | h <;> simp [h]

/-- Settles O28: POWER_STATE_SET splits on the state the module is in and on the target. That POWER_STATUS corrects the voted fields
before it reads them (log 70), and that CARRY is drawn where both feeds conduct (log 15), are the model's choice. -/
theorem powerCommands : Obligations.PowerCommands := by
  unfold Obligations.PowerCommands
  refine ⟨?status, ?set, ?activeStandby, ?activeReady, ?readyActive, ?readyStandby, ?start, ?energy, ?thermal, ?thermalStatus⟩
  case status => exact fun f => answers_of_command (fun _ => rfl) (fun _ _ _ _ => rfl) (fun _ _ _ _ => rfl)
  case set => exact fun f c l => answers_of_command (fun _ => rfl) (fun _ _ _ hok => if_pos hok) (fun _ _ _ _ => rfl)
  case activeStandby =>
    exact fun f p => answers_of_command (fun _ => rfl)
      (fun _ _ _ ⟨hactive, hfree⟩ => powerStateSet_passes (.inl rfl) (.inr hactive) (.inr hfree))
      (fun _ _ _ ⟨hactive, _⟩ => by simp only [hactive, if_true])
  case activeReady =>
    exact fun f p => answers_of_command (fun _ => rfl)
      (fun _ _ _ ⟨hactive, hfree⟩ => powerStateSet_passes (.inr (.inl rfl)) (.inr hactive) (.inr hfree))
      (fun _ _ _ ⟨hactive, _⟩ => by simp [hactive])
  case readyActive =>
    exact fun f p => answers_of_command (fun _ => rfl)
      (fun _ _ _ hready => powerStateSet_passes (.inr (.inr rfl)) (.inl hready) (.inl rfl))
      (fun _ _ _ hready => by simp [hready])
  case readyStandby =>
    exact fun f p => answers_of_command (fun _ => rfl)
      (fun _ _ _ ⟨hready, hfree⟩ => powerStateSet_passes (.inl rfl) (.inl hready) (.inr hfree))
      (fun _ _ _ ⟨hready, _⟩ => by simp only [hready, if_true])
  case start =>
    exact fun f p t => answers_of_command (fun _ => rfl)
      (fun _ _ s ⟨ht, hstandby, hon, htested⟩ => by
        rcases ht with rfl | rfl <;> simp [State.running, hstandby, hon, htested])
      (fun _ _ s ⟨ht, hstandby, _, _⟩ => by
        rcases ht with rfl | rfl <;> simp [hstandby])
  case energy => exact fun f => answers_of_command (fun _ => rfl) (fun _ _ _ _ => rfl) (fun _ _ _ _ => rfl)
  case thermal =>
    exact fun f g w c => answers_of_command (fun _ => rfl) (fun _ _ _ ⟨_, _, _, _, _, _⟩ => if_neg (by omega)) (fun _ _ _ _ => rfl)
  case thermalStatus => exact fun f => answers_of_query (fun _ => rfl) (fun _ _ _ _ => rfl)

/-! ### The Sill state machine (Table 13.2) -/

/-- The AON domain runs in every state but OFF. -/
theorem aon_of_ne_off {s : State} (hon : s.glob.pstate ≠ .off) : s.aon = true := bne_iff_ne.mpr hon

/-- The Sill controller runs where the AON domain does and the controller is not stuck. -/
theorem sillRuns_of {s : State} (hon : s.glob.pstate ≠ .off) (hfree : s.sill.stuck = false) : s.sillRuns = true := by
  rw [State.sillRuns, aon_of_ne_off hon, hfree]
  rfl

/-- A running Sill controller in a state. -/
theorem sillRuns_in {s : State} {x : SillState} (hon : s.glob.pstate ≠ .off) (hfree : s.sill.stuck = false) (hstate : s.sill.state = x) :
    (s.sillRuns && s.sill.state == x) = true :=
  Bool.and_eq_true_iff.mpr ⟨sillRuns_of hon hfree, beq_iff_eq.mpr hstate⟩

/-- Settles O29: each transition's test is the running controller in the state it leaves; trips, overvoltage and EN split on
whether Sill is ON, the end of the cool-down on the retries left. -/
theorem sillEvents : Obligations.SillEvents := by
  unfold Obligations.SillEvents
  refine ⟨?qual, ?qualified, ?unqualified, ?good, ?soa, ?fastRamp, ?fastOn, ?slow, ?retry, ?latched, ?reload, ?ovRamp, ?ovOn, ?recover,
    ?recharge, ?recharged, ?enable, ?disableUp, ?disableStandby, ?feedB, ?feedA⟩
  case qual | qualified | unqualified | recover =>
    exact occurs_of_evt (fun _ => rfl) (fun _ ⟨hon, hfree, hstate⟩ => sillRuns_in hon hfree hstate) (fun _ _ => rfl)
  case good =>
    refine occurs_of_evt (fun _ => rfl) (fun _ ⟨hon, hfree, hramp⟩ => sillRuns_in hon hfree hramp) (fun s _ => ?_)
    by_cases hstandby : s.glob.pstate = .standby <;> simp only [hstandby, if_true, if_false]
  case soa =>
    exact occurs_of_evt (fun _ => rfl)
      (fun _ ⟨hon, hfree, hramp⟩ => Bool.and_eq_true_iff.mpr ⟨sillRuns_of hon hfree, by simpa using hramp⟩) (fun _ _ => rfl)
  case fastRamp =>
    exact occurs_of_evt (fun _ => rfl) (fun _ ⟨hon, hfree, hramp⟩ => by simp [sillRuns_of hon hfree, hramp])
      (fun _ ⟨_, _, hramp⟩ => if_pos hramp)
  case fastOn =>
    exact occurs_of_evt (fun _ => rfl) (fun _ ⟨hon, hfree, hstate⟩ => by simp [sillRuns_of hon hfree, hstate])
      (fun _ ⟨_, _, hstate⟩ => if_neg (by simp [hstate]))
  case slow =>
    exact occurs_of_evt (fun _ => rfl) (fun _ ⟨hon, hfree, hstate, harmed⟩ => by rw [sillRuns_in hon hfree hstate, harmed]; rfl)
      (fun _ _ => rfl)
  case retry =>
    exact occurs_of_evt (fun _ => rfl) (fun _ ⟨hon, hfree, hcool, _⟩ => sillRuns_in hon hfree hcool)
      (fun _ ⟨_, _, _, hleft⟩ => if_neg hleft)
  case latched =>
    exact occurs_of_evt (fun _ => rfl) (fun _ ⟨hon, hfree, hcool, _⟩ => sillRuns_in hon hfree hcool)
      (fun _ ⟨_, _, _, hnone⟩ => if_pos hnone)
  case reload =>
    exact occurs_of_evt (fun _ => rfl)
      (fun _ ⟨hon, hstate⟩ => Bool.and_eq_true_iff.mpr ⟨aon_of_ne_off hon, beq_iff_eq.mpr hstate⟩) (fun _ _ => rfl)
  case ovRamp =>
    exact occurs_of_evt (fun _ => rfl) (fun _ ⟨hon, hfree, hramp⟩ => by simp [sillRuns_of hon hfree, hramp])
      (fun _ ⟨_, _, hramp⟩ => if_neg (by simp [hramp]))
  case ovOn =>
    exact occurs_of_evt (fun _ => rfl) (fun _ ⟨hon, hfree, hstate⟩ => by simp [sillRuns_of hon hfree, hstate])
      (fun _ ⟨_, _, hstate⟩ => if_pos (beq_iff_eq.mpr hstate))
  case recharge =>
    exact occurs_of_evt (fun _ => rfl) (fun _ ⟨hon, hfree, hstate, hconducts⟩ => by rw [sillRuns_in hon hfree hstate, hconducts]; rfl)
      (fun _ _ => rfl)
  case recharged =>
    exact occurs_of_evt (fun _ => rfl)
      (fun _ ⟨hon, hfree, hstate, hruns⟩ => Bool.and_eq_true_iff.mpr ⟨sillRuns_in hon hfree hstate, hruns⟩) (fun _ _ => rfl)
  case enable =>
    exact occurs_of_evt (fun _ => rfl)
      (fun _ ⟨hon, hsettled, _⟩ => Bool.and_eq_true_iff.mpr ⟨aon_of_ne_off hon, bne_iff_ne.mpr hsettled⟩)
      (fun s ⟨_, _, hopen, hwas, hfree, hstate⟩ => by
        simp only [State.sillEn, hopen, hwas, hfree, Bool.false_eq_true, if_false, if_true, or_self, reduceCtorEq, if_neg hstate])
  case disableUp =>
    exact occurs_of_evt (fun _ => rfl)
      (fun _ ⟨hup, _⟩ => by rcases hup with h | h <;> simp [State.aon, h])
      (fun s ⟨hup, hopen, hwas, hfree⟩ => by
        simp only [State.sillEn, hopen, hwas, hfree, Bool.false_eq_true, if_false, or_self, if_pos hup])
  case disableStandby =>
    exact occurs_of_evt (fun _ => rfl)
      (fun _ ⟨hstandby, _⟩ => by simp [State.aon, hstandby])
      (fun s ⟨hstandby, hopen, hwas, hfree⟩ => by
        simp only [State.sillEn, hopen, hwas, hfree, hstandby, Bool.false_eq_true, if_false, or_self, false_and, reduceCtorEq])
  case feedB | feedA =>
    exact fun st => occurs_of_evt (fun _ => rfl)
      (fun s ⟨hon, hst, hnew⟩ => by simp [aon_of_ne_off hon, hst, hnew]) (fun _ _ => rfl)

/-! ### Brownout, metering, flushes, start-up and COLD reset (R588, R593 to R602, R607) -/

/-- Settles O30: each event's test follows from the power state and the Sill state that the conditions name; BROWNOUT_SLEEP splits
on whether a MODULE reset waits, GPF_REQUEST on brownout. -/
theorem powerEvents : Obligations.PowerEvents := by
  unfold Obligations.PowerEvents
  refine ⟨?brownout, ?sleepReset, ?sleep, ?release, ?stop, ?meter, ?gpfBrownout, ?gpfActive, ?gpfDone, ?tested, ?testFailed, ?ready,
    ?cold, ?coldRelease⟩
  case brownout =>
    exact occurs_of_evt (fun _ => rfl) (fun _ ⟨hon, hpfw⟩ => by rw [bne_iff_ne.mpr hon, hpfw]; rfl) (fun _ _ => rfl)
  case sleepReset =>
    exact occurs_of_evt (fun _ => rfl) (fun _ ⟨hbrown, hstep, _⟩ => by rw [hbrown, hstep]; rfl)
      (fun _ ⟨_, _, hwaits⟩ => by simp only [hwaits, Option.isSome_some, Option.getD_some, if_true])
  case sleep =>
    exact occurs_of_evt (fun _ => rfl) (fun _ ⟨hbrown, hstep, _⟩ => by rw [hbrown, hstep]; rfl)
      (fun _ ⟨_, _, hwaits⟩ => by simp only [hwaits, Option.isSome_none, Bool.false_eq_true, if_false, State.brownSleep])
  case release =>
    exact occurs_of_evt (fun _ => rfl)
      (fun _ ⟨hpfw, hstate, hconducts, hup⟩ => by simp [hpfw, hstate, hconducts, hup])
      (fun _ ⟨_, _, _, hup⟩ => if_neg hup)
  case stop =>
    exact occurs_of_evt (fun _ => rfl) (fun _ ⟨hoff, hpol⟩ => Bool.and_eq_true_iff.mpr ⟨hoff, hpol⟩) (fun _ _ => rfl)
  case meter =>
    exact fun va vb vin vk ia ib iin => occurs_of_evt (fun _ => rfl) (fun _ ⟨hon, _⟩ => aon_of_ne_off hon)
      (fun _ ⟨_, hva, hvb, hvin, hvk, hia, hib, hiin⟩ => by
        simp only [Nat.min_eq_left, hva, hvb, hvin, hvk, hia, hib, hiin, if_true])
  case gpfBrownout =>
    exact fun p => occurs_of_evt (fun _ => rfl) (fun _ ⟨hport, hlink, hbrown⟩ => by simp [hport, hlink, hbrown])
      (fun _ ⟨_, _, hbrown⟩ => if_pos hbrown)
  case gpfActive =>
    exact fun p => occurs_of_evt (fun _ => rfl) (fun _ ⟨hport, hlink, hactive⟩ => by simp [hport, hlink, hactive])
      (fun _ ⟨_, _, hactive⟩ => if_neg (by simp [hactive]))
  case gpfDone => exact fun p => occurs_of_evt (fun _ => rfl) (fun _ hasked => hasked) (fun _ _ => rfl)
  case tested | testFailed =>
    exact occurs_of_evt (fun _ => rfl) (fun _ ⟨hstate, hstandby, hfirst⟩ => by rw [hstate, hstandby, hfirst]; rfl) (fun _ _ => rfl)
  case ready =>
    exact occurs_of_evt (fun _ => rfl)
      (fun _ ⟨hstandby, hpol, hstate, hrst, hpll0, hpll1⟩ => by rw [hstandby, hpol, hstate, hrst, hpll0, hpll1]; rfl) (fun _ _ => rfl)
  case cold => exact fun _ hon => congrArg Host.Outcome.next (if_neg hon)
  case coldRelease => exact occurs_of_evt (fun _ => rfl) (fun _ hoff => beq_iff_eq.mpr hoff) (fun _ _ => rfl)

end Sys2Proof.Machine
end

section
/-! The obligations of the electrical and mechanical chapter: thermal sensors and the test access port. -/
namespace Sys2Proof.Machine

/-! ### Thermal sensors and the test access port (R633, R638, R641 to R643) -/

/-- Settles O31: a die past its comparator splits on D6, and the test access port on whether a test instruction is in effect. The
codes of the test instructions (log 24) and the reading as two's complement (log 86) are the model's choice. -/
theorem thermalAndTest : Obligations.ThermalAndTest := by
  unfold Obligations.ThermalAndTest
  refine ⟨?sensors, ?die, ?d6, ?instruction, ?replaced, ?reset, ?resetLive⟩
  case sensors =>
    exact fun rs => occurs_of_evt (fun _ => rfl)
      (fun _ ⟨hon, hlen⟩ => Bool.and_eq_true_iff.mpr ⟨bne_iff_ne.mpr hon, beq_iff_eq.mpr hlen⟩) (fun _ _ => rfl)
  case die =>
    exact fun d => occurs_of_evt (fun _ => rfl)
      (fun s ⟨hd, hrun⟩ => by
        have hon : s.glob.pstate ≠ .off := fun hoff => by simp [State.running, hoff] at hrun
        simp [Nat.le_of_lt hd, hon, hrun])
      (fun _ ⟨hd, _⟩ => if_neg (Nat.ne_of_lt hd))
  case d6 =>
    exact occurs_of_evt (fun _ => rfl) (fun _ hon => by simp [hon]) (fun _ _ => rfl)
  case instruction =>
    exact fun op => occurs_of_evt (fun _ => rfl) (fun _ ⟨hon, _⟩ => bne_iff_ne.mpr hon) (fun _ ⟨_, hidle⟩ => if_neg (by simp [hidle]))
  case replaced =>
    exact fun op => occurs_of_evt (fun _ => rfl) (fun _ ⟨hon, _⟩ => bne_iff_ne.mpr hon) (fun _ ⟨_, hlive⟩ => if_pos hlive)
  case reset =>
    exact occurs_of_evt (fun _ => rfl) (fun _ ⟨hon, _⟩ => bne_iff_ne.mpr hon) (fun _ ⟨_, hidle⟩ => if_neg (by simp [hidle]))
  case resetLive =>
    exact occurs_of_evt (fun _ => rfl) (fun _ ⟨hon, _⟩ => bne_iff_ne.mpr hon) (fun _ ⟨_, hlive⟩ => if_pos hlive)

end Sys2Proof.Machine
end

section
/-! The obligations on every command: the next state that exec answers, and the command in front that a step runs. -/
namespace Sys2Proof.Machine

/-- Every command and event answers a next state: a mailbox command whatever its admission says, and the others, the events, whether
or not they can occur, since their outcome is a next state by its form. -/
theorem exec_goesOn (c : Instr) (s : State) : goesOn (exec c s) := by
  cases c with
  | openSession | sessionAuth | closeSession | sessionList | keySet | passwordSet | sessionSet
  | moduleIdentify | moduleStatus | moduleSet | moduleLock | eventGet | opJournalGet | opStatus | opAbort | moduleReset | resetTarget
  | resetStatus | regGet | regSet | identifyV1 | sliceFreezeV1 | sliceSaveV1 | sliceRestoreV1 | sliceThawV1
  | portMapGet | portMapCommit | portEnable | portDisable | portStatus | portSet | portEqSet | portEqStatus | portReset | portBlockRead
  | portBlockWrite | partnerList | partnerEventGet | partnerSet | partnerRelease | evacuatePartner | bindAdd | bindRelease | bindTableGet
  | bindPassthru | poolAddPartner | poolStatus | poolExtentRevalidate | poolExtentRelease | poolAlloc | poolSpillSet
  | sliceCreate | sliceSet | sliceDestroy | sliceStatus | sliceFreeze | sliceThaw | sliceSave | sliceRestore | sliceWindowSet
  | sliceChanSet | sliceChanGet | sliceChanPut | logStart | logHarvest | logStop | sliceCounterClear
  | dmaChSet | dmaRingAssign | dmaRingRelease | dmaStatus | dmaAliasSet | dmaAliasStatus
  | wardRegionSet | wardRegionGet | wardCutSet | wardCommit | wardStatusGet | shapeBktSet | shapeBktGet | shapeStatus
  | gateListSet | gateCommit | gateGet | gateTsyncSet | hierStatus | hierKeySet | hierSet | hierAdmit | hierRemove | hierForget
  | hierTrunkDisable | hierTrunkEnable | faultLogGet | faultStatus | faultReactionSet | reactionDryrun | faultLogClear | aliveSet
  | powerStatus | powerSet | powerStateSet | energyClear | thermalSet | thermalStatus | perfCntSet | perfCntGet | perfSampleSet
  | perfOvfSet | fwInfo | fwTransfer | fwVerify | fwActivate => exact commandR_goesOn _ _ _ _ _
  | _ => exact ⟨_, rfl⟩

/-- Settles O54: exec answers a next state, and what moves leaves the queue. -/
theorem everyCommandAnswers : Obligations.EveryCommandAnswers := by
  intro c s
  obtain ⟨t, ht⟩ := exec_goesOn c s
  obtain ⟨hqueue, -⟩ := exec_moves ht
  exact ⟨t, ht, hqueue⟩

/-- Settles O48: the queue is the command and its rest. -/
theorem stepRunsFront : Obligations.StepRunsFront := fun _ _ _ => rfl

end Sys2Proof.Machine
end
